-- ==== Sys2Proof/Word.lean ====
section
/-! DEFINITION. The plain types the whole model is written in, and reading and writing one place of a fixed-size table. -/

namespace Sys2Proof

/-- One byte of a port, a character cell or journal memory. -/
abbrev Byte := BitVec 8

/-- A teller position, 0 to 15 (Introduction, Ports). -/
abbrev Pos := Fin 16

/-- A passbook printer, 0 to 3 (Introduction, Ports). -/
abbrev Prn := Fin 4

/-- A customer account number: its decimal digits, first digit first (R6: 1 to 19 of them). -/
abbrev Account := List (Fin 10)

/-- All sixteen positions in ascending order. -/
def allPos : List Pos := List.finRange 16

/-- All four printers in ascending order. -/
def allPrn : List Prn := List.finRange 4

/-- The entry of a fixed-size table at an index. -/
def rd {α : Type} {n : Nat} (v : Vector α n) (i : Fin n) : α := v[i]

/-- A fixed-size table with one entry replaced. -/
def wr {α : Type} {n : Nat} (v : Vector α n) (i : Fin n) (x : α) : Vector α n := v.set i x

/-- A fixed-size table with one entry changed by a function. -/
def upd {α : Type} {n : Nat} (v : Vector α n) (i : Fin n) (f : α → α) : Vector α n := wr v i (f (rd v i))

/-- The entry at a number that may lie outside the table. -/
def rdN {α : Type} {n : Nat} (v : Vector α n) (i : Nat) : Option α := if h : i < n then some (rd v ⟨i, h⟩) else none

/-- A table with the entry at a number changed; a number outside the table changes nothing. -/
def updN {α : Type} {n : Nat} (v : Vector α n) (i : Nat) (f : α → α) : Vector α n :=
  if h : i < n then upd v ⟨i, h⟩ f else v

/-- A table with a function applied to every entry. -/
def mapV {α β : Type} {n : Nat} (v : Vector α n) (f : α → β) : Vector β n := ⟨⟨v.toList.map f⟩, by simp⟩

/-- The table of a function of the index. -/
def tabV {α : Type} {n : Nat} (f : Fin n → α) : Vector α n := ⟨⟨List.ofFn f⟩, by simp⟩

@[simp] theorem rd_wr_self {α : Type} {n : Nat} (v : Vector α n) (i : Fin n) (x : α) : rd (wr v i x) i = x := by
  simp [rd, wr]

theorem rd_wr_ne {α : Type} {n : Nat} (v : Vector α n) {i j : Fin n} (x : α) (h : j ≠ i) : rd (wr v i x) j = rd v j := by
  have h' : (i : Nat) ≠ (j : Nat) := fun e => h (Fin.ext e.symm)
  simp [rd, wr, h']

theorem rd_wr {α : Type} {n : Nat} (v : Vector α n) (i j : Fin n) (x : α) :
    rd (wr v i x) j = if j = i then x else rd v j := by
  by_cases h : j = i
  · simp [h]
  · simp [h, rd_wr_ne]

@[simp] theorem rd_upd_self {α : Type} {n : Nat} (v : Vector α n) (i : Fin n) (f : α → α) :
    rd (upd v i f) i = f (rd v i) := by simp [upd]

theorem rd_upd_ne {α : Type} {n : Nat} (v : Vector α n) {i j : Fin n} (f : α → α) (h : j ≠ i) :
    rd (upd v i f) j = rd v j := by simp [upd, rd_wr_ne, h]

theorem rd_upd {α : Type} {n : Nat} (v : Vector α n) (i j : Fin n) (f : α → α) :
    rd (upd v i f) j = if j = i then f (rd v i) else rd v j := by simp [upd, rd_wr]

@[simp] theorem rd_mapV {α β : Type} {n : Nat} (v : Vector α n) (f : α → β) (i : Fin n) : rd (mapV v f) i = f (rd v i) := by
  simp [rd, mapV]

@[simp] theorem rd_replicate {α : Type} {n : Nat} (a : α) (i : Fin n) : rd (Vector.replicate n a) i = a := by simp [rd]

@[simp] theorem rd_tabV {α : Type} {n : Nat} (f : Fin n → α) (i : Fin n) : rd (tabV f) i = f i := by simp [rd, tabV]

end Sys2Proof
end

