-- ==== Sys2Proof/Syntax.lean ====
section
/-! DEFINITION. The commands of the part: one constructor of Instr for each row of spec/opcode_table.json, and the
fields each carries. Inbound line messages carry their fields, not bytes: the manual gives byte layouts for the frame
header only (R172, R180). Frames as bytes are FRAME_DISCARD's, which hands on the valid messages among them. A field that an enumeration lists is an Option where the rule speaks of a missing or unknown
value; numbers are unbounded so that the rules' range checks have something to refuse. -/

namespace Sys2Proof

/-- The position and tag fields of an inbound frame's header (R172, R180). -/
structure Hdr where
  pos : Nat
  tag : Nat
deriving DecidableEq, Repr

/-- A cell attribute (R91). -/
inductive Attr where
  | normal | bright | reverse | underline | blink | hidden
deriving DecidableEq, Repr

/-- The kind of a capture or balance (R23, R24). -/
inductive BalKind where
  | interim | final
deriving DecidableEq, Repr

/-- A posting class (R3). -/
inductive PClass where
  | cashIn | cashOut | exchangeBuy | exchangeSell | nonCash | internal
deriving DecidableEq, Repr

/-- The direction of a NON_CASH code (R3). -/
inductive Direction where
  | increase | decrease
deriving DecidableEq, Repr

/-- The role of a position in its balancing group (R27, R76). -/
inductive Role where
  | leader | member
deriving DecidableEq, Repr

/-- The kind of a form field (R94). -/
inductive FieldKind where
  | text | numeric
deriving DecidableEq, Repr

/-- The role of a form field (R94); a COUNT role names a currency slot. -/
inductive FieldRole where
  | none | code | amount | currency | account | counterparty
  | count (slot : Nat)
deriving DecidableEq, Repr

/-- One field description of a form (R94). -/
structure FieldDesc where
  row : Nat
  col : Nat
  kind : FieldKind
  length : Nat
  decimals : Nat
  attr : Attr
  prot : Bool
  mandatory : Bool
  sent : Bool
  preset : List Byte
  role : FieldRole
deriving DecidableEq, Repr

/-- A Form Fields entry, table 1 (R94). -/
structure FormDesc where
  fields : List FieldDesc
  standIn : Bool
  fixedCode : Option Nat
deriving DecidableEq, Repr

/-- A Form Text entry, table 2 (R95). -/
structure FormText where
  text : List Byte
  attr : Attr
deriving DecidableEq, Repr

/-- A Posting Codes entry, table 3 (R3). -/
structure CodeEntry where
  name : List Byte
  cls : PClass
  generalLine : Option Nat
  direction : Option Direction
  passbook : Bool
  standIn : Bool
  limitClass : Nat
deriving DecidableEq, Repr

/-- A Currencies entry, table 4 (R1): code, minor exponent e and cash unit C. -/
structure CurrencyEntry where
  code : List Byte
  exponent : Nat
  unit : Nat
deriving DecidableEq, Repr

/-- The two rates of a Rates entry, table 5 (R2), with six implied decimals; 0 is unset. -/
structure RateEntry where
  buy : Nat
  sell : Nat
deriving DecidableEq, Repr

/-- A Positions entry, table 7 (R76). -/
structure PositionEntry where
  role : Role
  home : Nat
  alternate : Option Nat
  budget : Nat
deriving DecidableEq, Repr

/-- A Book Layouts entry, table 8 (R133). -/
structure Layout where
  linesPerPage : Nat
  pages : Nat
  fold : Nat
  dateCol : Nat
  nameCol : Nat
  amountCol : Nat
  amountWidth : Nat
  balanceCol : Nat
  balanceWidth : Nat
  markCol : Nat
deriving DecidableEq, Repr

/-- The Parameters entry, table 9 (R178), in seconds but for the retry limit. -/
structure Params where
  lineTimer : Nat
  entryTimer : Nat
  ackTimer : Nat
  retryLimit : Nat
  bookWait : Nat
deriving DecidableEq, Repr

/-- The content of a TABLE LOAD (R176). `incomplete` is a defining load with an item missing, or with an enumerated
item that names none of its listed values. -/
inductive Content (α : Type) where
  | clear
  | incomplete
  | define (a : α)
deriving DecidableEq, Repr

/-- The passbook part of a POST (R6). DESIGN CHOICE (assumption 60): no part lacks its book type, page or line. -/
structure PassbookPart where
  bookType : Nat
  page : Nat
  line : Nat
  balance : Option Int
deriving DecidableEq, Repr

/-- The body of a POST (R6); code, slot and amount are absent when the body lacks them. -/
structure PostBody where
  code : Option Nat
  slot : Option Nat
  amount : Option Nat
  account : Option Account
  passbook : Option PassbookPart
  counterparty : Option Nat
  entryRef : Option Nat
deriving DecidableEq, Repr, Inhabited

/-- One line of a BOOK LINES message (R126). -/
structure BookLineItem where
  date : Nat
  name : List Byte
  amount : Int
  exponent : Nat
  balance : Option Int
deriving DecidableEq, Repr

/-- The body of a BOOK LINES message (R126); `incomplete` has a field missing. -/
inductive BookLinesBody where
  | incomplete
  | full (account : Account) (bookType : Nat) (lines : List BookLineItem)
deriving DecidableEq, Repr, Inhabited

/-- The direction of a PAINT (R100). -/
inductive PaintDir where
  | across | down
deriving DecidableEq, Repr

/-- The body of a PAINT (R100); an absent direction or attribute is one the part does not know. DESIGN CHOICE (assumption
54): no body lacks its start row, start column, erase mark or unlock flag. -/
structure PaintBody where
  row : Nat
  col : Nat
  dir : Option PaintDir
  attr : Option Attr
  erase : Bool
  unlock : Bool
  run : List Byte
deriving DecidableEq, Repr, Inhabited

/-- The body of a NOTICE (R102); an absent attribute is missing or unknown. DESIGN CHOICE (assumption 54): no body lacks its
unlock flag. -/
structure NoticeBody where
  attr : Option Attr
  unlock : Bool
  text : List Byte
deriving DecidableEq, Repr, Inhabited

/-- The opening source of a day (R63). -/
inductive OpenSource where
  | retained | supplied
deriving DecidableEq, Repr

/-- The body of a DAY CONTROL OPEN (R63): the amounts are the rows the request carries, empty when it carries none. The
source is absent where the body lacks it or names neither; R63 gives that no status (assumption 42). DESIGN CHOICE
(assumption 61): no body lacks its date or discard flag. -/
structure OpenBody where
  date : Nat
  source : Option OpenSource
  amounts : List (List Int)
  discard : Bool
deriving DecidableEq, Repr

/-- The body of a POSITION CONTROL SIGN ON (R82). `noKnownRequest` is the POSITION CONTROL body of R81 that lacks its
request or carries one the part does not know; the table has no row of its own for it. -/
inductive SignOnBody where
  | request (tellerId : Option (List (Fin 10)))
  | noKnownRequest
deriving DecidableEq, Repr

/-- What a DAY CONTROL that is none of the other rows carries: a SEND of kind FORWARD (R170); a SEND without a kind the
part knows; or no request the part knows at all (R173, assumption 23). The last two have no row of their own. -/
inductive SendKind where
  | forward
  | noKnownKind
  | noKnownRequest
deriving DecidableEq, Repr

/-- The status of a TRANSFER ACK (R164). -/
inductive AckStatus where
  | accept | refuse
deriving DecidableEq, Repr, Inhabited

/-- The body of a TRANSFER ACK (R164). DESIGN CHOICE (assumption 57): no body lacks a field or has another status. -/
structure AckBody where
  batch : Nat
  through : Nat
  status : AckStatus
deriving DecidableEq, Repr, Inhabited

/-- A key token that enters a position's key queue (R109); REVIEW UP and REVIEW DOWN never do. -/
inductive Token where
  | character (code : Byte)
  | fieldNext | fieldBack | backspace | eraseField | clear | transmit
  | balance | signOff | groupBalance | groupClose | printBook | cancelBook | attention
deriving DecidableEq, Repr

/-- The content of a STRIPE DATA event (R136). -/
structure StripeData where
  account : Account
  bookType : Nat
  page : Nat
  line : Nat
deriving DecidableEq, Repr

/-- The retained store record (R72): last close date, closing cash of each position and slot, CRC. -/
structure RetainedRec where
  date : Nat
  amounts : Vector (Vector Int 8) 16
  crc : BitVec 16
deriving DecidableEq, Repr, Inhabited

/-- A DAY CONTROL request as its body spells it (R60, R61, R63, R65, R69, R71, R170). DESIGN CHOICE (assumption 61): no SET
TIME lacks its time and no SET CUTOFF its second. -/
inductive DayRequest where
  | openDay (b : OpenBody)
  | closeDay
  | setTime (time : Nat)
  | setCutoff (second : Nat)
  | clearCutoff
  | forceClose
  | sendDay
  | sendForward (k : SendKind)
deriving DecidableEq, Repr, Inhabited

/-- A POSITION CONTROL request as its body spells it (R81). The kind of a BALANCE is absent where the body lacks the kind
or the group flag, or names no kind (assumption 43). -/
inductive PosRequest where
  | signOn (b : SignOnBody)
  | forceSignOff
  | unlock
  | balance (k : Option BalKind)
  | groupBalance (k : Option BalKind)
deriving DecidableEq, Repr, Inhabited

/-- The header of a message that reaches the Transfer Engine. `noticesFirst` says that the engine takes the line notices
that wait, one this message gives among them, before it takes the message (R153, R167, R170, assumption 47). -/
structure EngineHdr where
  hdr : Hdr
  noticesFirst : Bool
deriving DecidableEq, Repr

/-- Inbound bytes (R172), with what the engine's notices and the journal memory device do when a message among them is
handed on. -/
structure Inbound where
  bytes : List Byte
  noticesFirst : Bool
  readBack : Option RetainedRec
deriving DecidableEq, Repr

/-- The commands of the part, one for each row of spec/opcode_table.json, in the table's order. `readBack` is what the
journal memory device returns when the retained store is read back (R73): absent when it returns what was written. DESIGN
CHOICE: no FORM lacks its number or unlock flag (assumption 54), no SET TIME its time and no SET CUTOFF its second
(assumption 61). -/
inductive Instr where
  | powerOn
  | replayEntry
  | recoveryFinish (readBack : Option RetainedRec)
  | frameDiscard (i : Inbound)
  | unknownKind (h : Hdr) (kind : Byte)
  | lineCheck (h : Hdr)
  | paint (h : Hdr) (b : PaintBody)
  | form (h : Hdr) (number : Nat) (unlock : Bool)
  | notice (h : Hdr) (b : NoticeBody)
  | post (h : Hdr) (b : PostBody)
  | bookLines (h : Hdr) (b : BookLinesBody)
  | formFieldsLoad (h : Hdr) (index : Nat) (c : Content FormDesc)
  | formTextLoad (h : Hdr) (index : Nat) (c : Content FormText)
  | postingCodesLoad (h : Hdr) (index : Nat) (c : Content CodeEntry)
  | currenciesLoad (h : Hdr) (index : Nat) (c : Content CurrencyEntry)
  | ratesLoad (h : Hdr) (index : Nat) (c : Content RateEntry)
  | limitClassesLoad (h : Hdr) (index : Nat) (c : Content Nat)
  | positionsLoad (h : Hdr) (index : Nat) (c : Content PositionEntry)
  | bookLayoutsLoad (h : Hdr) (index : Nat) (c : Content Layout)
  | parametersLoad (h : Hdr) (index : Nat) (c : Content Params)
  | tableLoadReadOnly (h : Hdr) (body : Option (Nat × Nat))
  | tableQuery (h : Hdr) (body : Option (Nat × Nat))
  | positionsQuery (h : Hdr) (index : Nat)
  | drawerQuery (h : Hdr) (index : Nat)
  | printerStatusQuery (h : Hdr) (index : Nat)
  | journalStatusQuery (h : Hdr) (index : Nat)
  | dayAndLineStatusQuery (h : Hdr) (index : Nat)
  | openDay (h : Hdr) (b : OpenBody)
  | closeDay (h : Hdr)
  | setTime (h : Hdr) (time : Nat)
  | setCutoff (h : Hdr) (second : Nat)
  | clearCutoff (h : Hdr)
  | forceClose (h : Hdr) (readBack : Option RetainedRec)
  | sendDay (h : EngineHdr)
  | sendForward (h : EngineHdr) (k : SendKind)
  | signOn (h : Hdr) (b : SignOnBody)
  | forceSignOff (h : Hdr)
  | unlock (h : Hdr)
  | positionControlBalance (h : Hdr) (k : Option BalKind)
  | positionControlGroupBalance (h : Hdr) (k : Option BalKind)
  | transferAck (h : EngineHdr) (b : AckBody)
  | restart (h : EngineHdr)
  | keyToken (p : Pos) (t : Token)
  | reviewUp (p : Pos)
  | reviewDown (p : Pos)
  | present (p : Pos)
  | rowTaken (p : Pos)
  | rowSend (p : Pos)
  | character (p : Pos)
  | fieldNext (p : Pos)
  | fieldBack (p : Pos)
  | backspace (p : Pos)
  | eraseField (p : Pos)
  | clear (p : Pos)
  | transmit (p : Pos)
  | balance (p : Pos)
  | signOff (p : Pos)
  | groupBalance (p : Pos)
  | groupClose (p : Pos)
  | printBook (p : Pos)
  | cancelBook (p : Pos)
  | attention (p : Pos)
  | entryTimerExpiry (p : Pos)
  | lineLoss
  | clockAdvance
  | cutoffAlarmFire
  | closingConditionTest (readBack : Option RetainedRec)
  | dayBatchCompletion
  | transferLineLoss
  | transferLineReturn
  | transferRecoveryFinish
  | ackTimerExpiry
  | outboundSendStart
  | outboundSendDone
  | ready (n : Prn)
  | homeDone (n : Prn)
  | bookIn (n : Prn)
  | stripeData (n : Prn) (d : StripeData)
  | stripeFail (n : Prn)
  | printerDecision (n : Prn)
  | lineDone (n : Prn)
  | stripeWritten (n : Prn)
  | stripeWriteFail (n : Prn)
  | ejectDone (n : Prn)
  | fault (n : Prn)
  | printerTimerExpiry (n : Prn)
  | bookWaitExpiry (n : Prn)
  | powerFailure (writesDone : Nat) (torn : Bool)
deriving DecidableEq, Repr

end Sys2Proof
end

