-- ==== Sys2Proof/Machine/State.lean ====
section
/-! DEFINITION. The state of the part, block by block as the Introduction names them, all plain data; and the state
after reset. Every field is listed in INVENTORY.md with the rule that names it. -/

namespace Sys2Proof.Machine

/-- Why the part stops. No rule of the manual stops the part, so no command raises a fault and the type is empty. -/
inductive Fault where
deriving DecidableEq, Repr

/-- A command without a meaning. -/
inductive Refusal where
  /-- Raised by exec's arm of a command that has no meaning yet; safe, since nothing can be proved of what it does. -/
  | notModelled (mnemonic : String)
deriving DecidableEq, Repr

/-- A running device timer (Introduction, Time): the length it was started with and the seconds still to count. -/
structure Timer where
  length : Nat
  left : Nat
deriving DecidableEq, Repr

/-- A status a request or a key is answered with (R180), and the seven that only a teller sees (R7, R119, R155, R116). -/
inductive Status where
  | accepted | malformed | unknownKind | badPosition | badIndex | readOnly | inUse | printersBusy
  | dayState | recovering | clockUnset | noLocalCurrency | dateNotLater | undeliveredDay | retainedBad
  | cashUnitMismatch | cutoffArmed | journalFull | codeUndefined | currencyUndefined | rateUnset | amountRange
  | notCashable | badCounterparty | notLeader | memberBalancing | positionState
  | afterCutoff | tellerState | formNotStandin | codeNotStandin | overLimit | budgetExhausted | counterpartyBalancing
deriving DecidableEq, Repr, Inhabited

/-! ## The journal (Section 3) -/

/-- The origin of a posting (Terms, Posting). -/
inductive Origin where
  | online | standIn
deriving DecidableEq, Repr

/-- The print state of a POSTING or BOOK LINE entry (R49). -/
inductive PrintState where
  | none | stored | printed | overflow | backlogged
deriving DecidableEq, Repr

/-- The forward state of a POSTING entry (R50). -/
inductive ForwardState where
  | notNeeded | pending | forwarded
deriving DecidableEq, Repr

/-- One line of a drawer (R21). -/
structure DLine where
  amount : Int
  count : Nat
  exceeded : Bool
deriving DecidableEq, Repr

/-- A leg: a position, a drawer line and a signed amount (subsection 1.5). -/
structure Leg where
  pos : Pos
  line : Fin 16
  amount : Int
deriving DecidableEq, Repr

/-- The text of a passbook line as a posting hands it on (R19): name, signed amount and its exponent. -/
structure LineText where
  name : List Byte
  amount : Int
  exponent : Nat
deriving DecidableEq, Repr

/-- Book type and expected page and line of a passbook part (R6). -/
structure BookPlace where
  bookType : Nat
  page : Nat
  line : Nat
deriving DecidableEq, Repr

/-- The fields of a POSTING entry (R17, R44, R181). `book` is present when the POST carried a passbook part, `yielded`
when the posting yields a passbook line. -/
structure PostingRec where
  origin : Origin
  late : Bool
  pos : Pos
  code : Nat
  slot : Fin 8
  cls : PClass
  direction : Option Direction
  serial : Nat
  amount : Nat
  value : Nat
  account : Option Account
  entryRef : Option Nat
  balance : Option Int
  book : Option BookPlace
  yielded : Option LineText
  legs : List Leg
deriving DecidableEq, Repr

/-- The fields of a BOOK LINE entry (R43). -/
structure BookLineRec where
  account : Account
  bookType : Nat
  date : Nat
  name : List Byte
  amount : Int
  exponent : Nat
  balance : Option Int
deriving DecidableEq, Repr

/-- The fields of a CAPTURE entry (R23); the time of day is the entry header's. -/
structure CaptureRec where
  pos : Pos
  kind : BalKind
  number : Nat
  leader : Option Pos
  lines : Vector DLine 16
deriving DecidableEq, Repr

/-- One slot taking part in a declaration (R31, R32): its count, the live cash line, the difference, and for a slot
with legs the amount of its over/short leg and the rate serial used. -/
structure DeclSlot where
  slot : Fin 8
  count : Nat
  live : Int
  diff : Int
  overShort : Option Int
  serial : Nat
deriving DecidableEq, Repr

/-- The fields of a DECLARATION entry (R31, R32, R181). -/
structure DeclRec where
  pos : Pos
  kind : BalKind
  number : Nat
  slots : List DeclSlot
deriving DecidableEq, Repr

/-- The cause of a CUTOFF entry (R43); an alarm carries its alarm second. -/
inductive CutoffCause where
  | alarm (second : Nat)
  | request
deriving DecidableEq, Repr

/-- The cause of a BALANCE ABANDONED entry (R35, R36). -/
inductive AbandonCause where
  | forceSignOff | forceClose | powerOn
deriving DecidableEq, Repr

/-- A day state as the control record writes it (R40). -/
inductive RecDay where
  | opened | cutoff | closing | closed
deriving DecidableEq, Repr

/-- The fields of a RECOVERY entry (R43). -/
structure RecoveryRec where
  day : RecDay
  slotsUsed : Nat
  entryCount : Nat
  abandoned : Nat
  readded : Nat
deriving DecidableEq, Repr

/-- The body of a journal entry, one constructor for each kind of Table 3-1. -/
inductive EntryBody where
  | opening (pos : Pos) (date : Nat) (source : OpenSource) (discard : Bool) (amounts : Vector Int 8)
  | posting (r : PostingRec)
  | bookLine (r : BookLineRec)
  | capture (r : CaptureRec)
  | declaration (r : DeclRec)
  | groupBegin (leader : Pos) (kind : BalKind) (captured signedOff : List Pos)
  | groupEnd (leader : Pos) (kind : BalKind) (abandoned : List Pos)
  | midnight (count : Nat)
  | cutoff (cause : CutoffCause)
  | abandoned (pos : Pos) (kind : BalKind) (number : Nat) (cause : AbandonCause)
  | recovery (r : RecoveryRec)
  | backlog (account : Account) (seqs : List Nat)
  | close (forced : Bool) (slotsUsed entryCount : Nat)
deriving DecidableEq, Repr

/-- A journal entry: the common header of R41 with the states byte of R181, and the body. The header's kind code and
size stand beside the body because replay checks them (R54). -/
structure Entry where
  seq : Nat
  kind : Nat
  size : Nat
  time : Nat
  clockMark : Bool
  print : PrintState
  fwd : ForwardState
  body : EntryBody
deriving DecidableEq, Repr

/-- The fields of the control record (R40) but its CRC; the day is absent when it is none of the four values. -/
structure ControlFields where
  date : Nat
  day : Option RecDay
  slotsUsed : Nat
  entryCount : Nat
  delivered : Nat
  undelivered : Bool
deriving DecidableEq, Repr, Inhabited

/-- The control record as it stands in journal memory (R40). -/
structure ControlRec where
  fields : ControlFields
  crc : BitVec 16
deriving DecidableEq, Repr

/-- The journal memory (R39): control record, the entries in slot order from slot 0, retained store. An entry past the
control record's entry count lies at or above slots used and is no part of the journal. -/
structure JournalMem where
  control : ControlRec
  entries : List Entry
  retained : RetainedRec
deriving DecidableEq, Repr

/-- One write on the Journal Memory Port, in the units that complete or do not complete (R45, R49, R73). `backlogged` is
the control record's write after a BACKLOG entry together with the states bytes of that entry's lines (R67, assumption 44). -/
inductive NvWrite where
  | slots (e : Entry)
  | control (c : ControlRec)
  | backlogged (c : ControlRec) (indices : List Nat)
  | states (index : Nat) (p : PrintState) (f : ForwardState)
  | retained (r : RetainedRec)
  | retainedCrc (c : BitVec 16)
deriving DecidableEq, Repr

/-- How far a replay has come (R54): the next slot and entry, the OPENING entries read, the open balances begun, the
BEGIN mark that still applies, the passbook lines re-added. -/
structure Replay where
  slot : Nat
  index : Nat
  opened : Nat
  openBal : Vector (Option (BalKind × Nat)) 16
  mark : Option (Pos × List Pos)
  readded : Nat
deriving DecidableEq, Repr

/-- What the Journal Controller keeps in the part (R40), and the replay in progress while the day is RECOVERING. -/
structure JournalCtl where
  unreadable : Bool
  lowSpace : Bool
  pendingCount : Nat
  replay : Option Replay
deriving DecidableEq, Repr

/-! ## Day Controller and Branch Clock (Section 4) -/

/-- The day state (subsection 4.3); CLOSED carries the undelivered mark. -/
inductive DayState where
  | closed (undelivered : Bool)
  | recovering | opened | cutoff | closing
deriving DecidableEq, Repr

/-- The armed cut-off alarm (R61, R62): its second, and whether an advance has reached it and its firing is due. -/
structure Alarm where
  second : Nat
  due : Bool
deriving DecidableEq, Repr

/-- What the Day Controller keeps in the part (R61, R63, R72), with the day batch completions it has yet to take, each
with the business date its blocks carried (R168). -/
structure DayCtl where
  state : DayState
  date : Option Nat
  alarm : Option Alarm
  retainedBad : Bool
  completions : List Nat
deriving DecidableEq, Repr

/-- The Branch Clock (R58). -/
structure Clock where
  time : Nat
  isSet : Bool
  midnights : Nat
deriving DecidableEq, Repr

/-! ## Drawer Store (Section 2) -/

/-- The balance context of a BALANCING position (R24). -/
structure BalCtx where
  kind : BalKind
  number : Nat
  leader : Option Pos
  returnForm : Option (Fin 32)
deriving DecidableEq, Repr

/-- A drawer record with its capture number and balance context (R21, R23, R24). -/
structure Drawer where
  lines : Vector DLine 16
  captureNo : Nat
  ctx : Option BalCtx
deriving DecidableEq, Repr

/-- The group balance record of a leader (R28, R29): kind, pending set, and the set abandoned so far (R35). -/
structure GroupRec where
  kind : BalKind
  pending : List Pos
  abandoned : List Pos
deriving DecidableEq, Repr

/-! ## Position Manager (Section 5) -/

/-- The state of a position (R80). -/
inductive PState where
  | signedOff | ready | awaiting | balancing
deriving DecidableEq, Repr

/-- The live record of a position (R79). The current form is the Screen Engine's, the capture number and balance kind
the Drawer Store's; they are held there once. -/
structure PosRec where
  state : PState
  teller : Option (List (Fin 10))
  entryNo : Nat
  outstanding : Option Nat
  inDoubt : Option Nat
  usage : Nat
deriving DecidableEq, Repr

/-! ## Screen Engine (Section 6) -/

/-- A cell of a screen (R91). -/
structure Cell where
  ch : Byte
  attr : Attr
  prot : Bool
deriving DecidableEq, Repr

/-- A cell of the notice ring (R101). -/
structure RingCell where
  ch : Byte
  attr : Attr
deriving DecidableEq, Repr

/-- A printer prompt (R93). -/
inductive Prompt where
  | insertBook
  | turnToPage (page : Nat)
  | wrongBook
deriving DecidableEq, Repr

/-- A screen memory (R91, R93, R101, R105, R106). `area` holds rows 1 to 15; row 0 and rows 16 to 19 are views of other
values (R92, R101) and are computed. `dirty` lists the dirty rows in ascending order. -/
structure Screen where
  area : Vector (Vector Cell 80) 15
  form : Option (Fin 32)
  cursor : Option (Nat × Nat)
  ring : Vector (Vector RingCell 80) 16
  newest : Fin 16
  column : Nat
  review : Nat
  prompts : Vector (Option Prompt) 4
  noPrinter : Bool
  dirty : List Nat
  inFlight : Bool
  present : Bool
deriving DecidableEq, Repr

/-! ## Key and Field Unit (Section 7) -/

/-- The key queue, editor context and entry timer of a position (R109, R111, R118). -/
structure KeyUnit where
  queue : List Token
  values : List (List Byte)
  cursorField : Option Nat
  textPos : Nat
  timer : Option Timer
deriving DecidableEq, Repr

/-! ## Passbook Store and Printer Controllers (Sections 8 and 9) -/

/-- A passbook line (R124). -/
structure PLine where
  date : Nat
  name : List Byte
  amount : Int
  exponent : Nat
  balance : Option Int
  standIn : Bool
  expected : Option (Nat × Nat)
  source : Nat
deriving DecidableEq, Repr

/-- An account record of the passbook line store (R124). -/
structure AccountRec where
  account : Account
  bookType : Option Nat
  lines : List PLine
  jobMark : Bool
deriving DecidableEq, Repr

/-- A print job (R128). -/
structure Job where
  account : Account
  owner : Pos
deriving DecidableEq, Repr

/-- The state of a Printer Controller (R137). -/
inductive PrnState where
  | offline | homing | empty | waitBook | reading | held | printing | writingStripe | ejecting
deriving DecidableEq, Repr

/-- Why a book is coming out (R137). -/
inductive Reason where
  | complete | turnPage | bookFull | cancelled | wrongBook | unreadable
deriving DecidableEq, Repr

/-- The job record of a printer's head job (R137), with the stripe position last written with success (R145). -/
structure JobRec where
  attempts : Nat
  printed : Nat
  mismatch : Bool
  stripeFailed : Bool
  faultDuringLine : Bool
  cancelPending : Bool
  lastStripe : Option (Nat × Nat)
deriving DecidableEq, Repr

/-- The record of a Printer Controller (R137); `ejectJob` says that the eject owner is the head job. -/
structure Printer where
  state : PrnState
  timer : Option Timer
  ejectJob : Bool
  reason : Option Reason
  layoutType : Fin 4
  openPage : Nat
  nextPage : Nat
  nextLine : Nat
  job : JobRec
deriving DecidableEq, Repr

/-- A printer command (R136). -/
inductive PrnCmd where
  | home
  | readStripe
  | printLine (line fold : Nat) (text : List Byte)
  | writeStripe (page line : Nat)
  | eject
deriving DecidableEq, Repr

/-- What a PRINT_RESULT carries of the head job's record (R145). -/
structure JobLife where
  printed : Nat
  lastStripe : Option (Nat × Nat)
  attempts : Nat
  mismatch : Bool
  stripeFailed : Bool
  faultDuringLine : Bool
deriving DecidableEq, Repr

/-- What a printer status query shows of the head job's record (R149): attempts, lines printed and marks. -/
structure JobView where
  attempts : Nat
  printed : Nat
  mismatch : Bool
  stripeFailed : Bool
  faultDuringLine : Bool
deriving DecidableEq, Repr

/-- The cause of a printer going OFFLINE (R147). -/
inductive OfflineCause where
  | fault | restarted | homeTimer | stripeReadTimer | linePrintTimer | stripeWriteTimer | ejectTimer
deriving DecidableEq, Repr

/-! ## Transfer Engine (Section 11) -/

/-- The kind of a batch (R160). -/
inductive BatchKind where
  | forward | day
deriving DecidableEq, Repr

/-- The state of the Transfer Engine (R160). -/
inductive EngineState where
  | idle | active | paused | failed
deriving DecidableEq, Repr

/-- The batch record (R160); `carried` counts the entries packed so far, for TRANSFER_COMPLETE (R168). -/
structure Batch where
  kind : BatchKind
  number : Nat
  extentEnd : Nat
  nextSlot : Nat
  highest : Nat
  acked : Nat
  nextQueue : Nat
  final : Option Nat
  retries : Nat
  carried : Nat
deriving DecidableEq, Repr

/-- An entry of the in-flight block table (R162). -/
structure Flight where
  number : Nat
  first : Nat
  last : Nat
  firstSeq : Nat
  entries : Nat
  slots : Nat
  final : Bool
deriving DecidableEq, Repr

/-- A notice of the Line Interface that the engine has yet to take (R166, R167). -/
inductive LineNotice where
  | loss | back
deriving DecidableEq, Repr

/-- The Transfer Engine (R160), with the notices it has yet to take in the order given (R166, R167). -/
structure Engine where
  state : EngineState
  batch : Option Batch
  lastBatch : Nat
  dayAwaited : Bool
  flights : List Flight
  timer : Option Timer
  notices : List LineNotice
  recoveryDone : Bool
deriving DecidableEq, Repr

/-- The header of a BLOCK body (R181). -/
structure BlockHdr where
  kind : BatchKind
  batch : Nat
  block : Nat
  date : Nat
  firstSeq : Nat
  entries : Nat
  slots : Nat
  final : Bool
deriving DecidableEq, Repr

/-! ## Table Store and Line Interface (Section 12) -/

/-- The loaded tables 1 to 9 (section 12.3). A Rates serial stands beside its entry (R2); index 0 of the Rates and
Posting Codes tables is never loaded. -/
structure Tables where
  forms : Vector (Option FormDesc) 32
  texts : Vector (Option FormText) 512
  codes : Vector (Option CodeEntry) 256
  currencies : Vector (Option CurrencyEntry) 8
  rates : Vector (Option RateEntry) 8
  serials : Vector Nat 8
  limits : Vector (Option Nat) 4
  positions : Vector (Option PositionEntry) 16
  layouts : Vector (Option Layout) 4
  params : Params
deriving DecidableEq, Repr

/-- The line state (R151). -/
inductive LineState where
  | online | standIn
deriving DecidableEq, Repr

/-- The receive framer (R172): hunting, with whether the last byte was 0xC3, or holding the bytes taken since a sync
pair. -/
inductive Framer where
  | hunting (half : Bool)
  | framing (taken : List Byte)
deriving DecidableEq, Repr

/-- The result a RECOVERY_DONE report carries (R54, R55). -/
inductive RecoveryResult where
  | good (day : RecDay) (slotsUsed abandoned readded : Nat)
  | unreadable (slot : Nat)
deriving DecidableEq, Repr

/-- The reason of a PRINT_RESULT (R145). -/
inductive PrintReason where
  | ended (r : Reason)
  | noBook
  | fault
deriving DecidableEq, Repr

/-- The cause of a retained store write (R73). -/
inductive RetainedCause where
  | closing | forceClose | recovery
deriving DecidableEq, Repr

/-- The cause of a TRANSFER_FAILED (R164, R165). -/
inductive FailCause where
  | refused (block : Nat)
  | retries
deriving DecidableEq, Repr

/-- A REPORT, one constructor for each event code of R180, with the fields its rule lists. -/
inductive Report where
  | attention (pos : Pos) (teller : Option (List (Fin 10))) (form : Option (Fin 32)) (inDoubt : Option Nat) (time : Nat)
  | captureTaken (pos : Pos) (kind : BalKind) (number time : Nat) (lines : Vector DLine 16)
  | declaration (r : DeclRec)
  | groupComplete (leader : Pos) (kind : BalKind) (group abandoned : List Pos)
  | cutoffReached (date : Nat) (cause : CutoffCause) (time : Nat)
  | dayClosing (date slotsUsed entryCount backlogs : Nat) (retainedGood : Bool)
  | dayClosed (date : Nat) (delivered forced : Bool) (leftover : Option Nat)
  | retainedWriteFailed (date : Nat) (cause : RetainedCause)
  | journalLow (slotsUsed entryCount date : Nat)
  | recoveryDone (r : RecoveryResult)
  | latePosting (pos : Pos) (entryRef seq : Nat) (outstanding : Option Nat) (removed : Bool)
  | printResult (n : Prn) (account : Account) (owner : Pos) (reason : PrintReason) (j : JobLife)
  | printerState (n : Prn) (state : PrnState) (cause : Option OfflineCause) (jobs : Nat)
  | transferComplete (kind : BatchKind) (batch blocks entries : Nat) (delivered : Option Nat)
  | transferFailed (kind : BatchKind) (batch : Nat) (cause : FailCause) (acked : Nat)
deriving DecidableEq, Repr

/-- The live record as a Positions query shows it (R79). -/
structure LiveRec where
  state : PState
  teller : Option (List (Fin 10))
  entryNo : Nat
  outstanding : Option Nat
  inDoubt : Option Nat
  usage : Nat
  form : Option (Fin 32)
  captureNo : Nat
  balKind : Option BalKind
deriving DecidableEq, Repr

/-- The answer to a journal status query (R52): the day state with, in every day state, the undelivered mark. -/
structure JournalStatus where
  date : Option Nat
  day : DayState
  undelivered : Bool
  slotsUsed : Nat
  entryCount : Nat
  nextSeq : Nat
  delivered : Nat
  pendingCount : Nat
  unreadable : Bool
  lowSpace : Bool
  recovering : Bool
deriving DecidableEq, Repr

/-- The answer to a day and line status query (R74). -/
structure DayStatus where
  date : Option Nat
  day : DayState
  recovering : Bool
  time : Nat
  isSet : Bool
  midnights : Nat
  alarm : Option Nat
  closeDate : Nat
  retainedGood : Bool
  line : LineState
deriving DecidableEq, Repr

/-- The answer to a printer status query (R149): state, whether the timer runs, head job, queued jobs, and the record.
DESIGN CHOICE (assumption 45): the queued jobs are the whole queue, its head among them. -/
structure PrinterStatus where
  state : PrnState
  timerRuns : Bool
  head : Option Job
  queue : List Job
  ejectJob : Bool
  reason : Option Reason
  layoutType : Fin 4
  openPage : Nat
  nextPage : Nat
  nextLine : Nat
  job : JobView
deriving DecidableEq, Repr

/-- The content of a TABLE QUERY's REPLY (R177); `empty` is an empty entry with no content. -/
inductive Answer where
  | empty
  | form (e : FormDesc)
  | text (e : FormText)
  | code (e : CodeEntry)
  | currency (e : CurrencyEntry)
  | rates (e : Option RateEntry) (serial : Nat)
  | limit (e : Nat)
  | position (e : Option PositionEntry) (live : LiveRec)
  | layout (e : Layout)
  | params (e : Params)
  | drawer (lines : Vector DLine 16) (captureNo : Nat) (kind : Option BalKind)
  | printer (st : PrinterStatus)
  | journal (st : JournalStatus)
  | day (st : DayStatus)
deriving DecidableEq, Repr

/-- What a REPLY carries beyond its status (R173). -/
inductive Extra where
  | none
  | kept (lines : Nat)
  | query (table index : Nat) (emptyFlag : Bool) (content : Answer)
deriving DecidableEq, Repr

/-- The body of an outbound message (R174). -/
inductive OutBody where
  | entry (pos : Pos) (number : Nat) (form : Fin 32) (fields : List (Nat × List Byte))
  | reply (st : Status) (extra : Extra)
  | report (r : Report)
  | block (b : BlockHdr) (entries : List Entry)
deriving DecidableEq, Repr

/-- An outbound message: header position (0xFF is 255), tag and body (R174). -/
structure OutMsg where
  pos : Nat
  tag : Nat
  body : OutBody
deriving DecidableEq, Repr

/-- The Line Interface (R151, R172, R174); `sending` says that the head of the queue is being sent. -/
structure LineIf where
  state : LineState
  timer : Option Timer
  framer : Framer
  outbound : List OutMsg
  sending : Bool
deriving DecidableEq, Repr

/-- What a command puts out at the device ports (R105, R106, R136) and on the Trunk Port (R174). -/
inductive Output where
  | tone (p : Pos)
  | row (p : Pos) (row : Nat) (cells : List Cell) (cursor : Option (Nat × Nat))
  | printer (n : Prn) (c : PrnCmd)
  | sendStart (m : OutMsg)
  | sendDone (m : OutMsg)
deriving DecidableEq, Repr

/-! ## The whole state -/

/-- The part and its journal memory. The last five fields are the model's own: whether branch power is on, what the
last command put out, the journal memory before the last command with the writes it made, and the free values used so
far; `pending` is the queue of waiting commands. -/
structure State where
  line : LineIf
  tables : Tables
  posns : Vector PosRec 16
  screens : Vector Screen 16
  keys : Vector KeyUnit 16
  drawers : Vector Drawer 16
  groups : Vector (Option GroupRec) 16
  nv : JournalMem
  jc : JournalCtl
  day : DayCtl
  clock : Clock
  store : List AccountRec
  queues : Vector (List Job) 4
  printers : Vector Printer 4
  engine : Engine
  powered : Bool
  out : List Output
  nvBefore : JournalMem
  nvLog : List NvWrite
  freeUsed : Nat
  pending : List Instr
deriving DecidableEq, Repr

/-! ## Power-on values -/

/-- The Line Interface after power-on (R151, R172, R174). -/
def LineIf.initial : LineIf := ⟨.standIn, none, .hunting false, [], false⟩

/-- The five default parameters (R178). -/
def Params.initial : Params := ⟨45, 30, 20, 5, 60⟩

/-- The tables after power-on (R5, R90, R108, R135, R178). -/
def Tables.initial : Tables :=
  { forms := Vector.replicate 32 none, texts := Vector.replicate 512 none, codes := Vector.replicate 256 none,
    currencies := Vector.replicate 8 none, rates := Vector.replicate 8 none, serials := Vector.replicate 8 0,
    limits := Vector.replicate 4 none, positions := Vector.replicate 16 none, layouts := Vector.replicate 4 none,
    params := Params.initial }

/-- A live position record after power-on (R90). -/
def PosRec.initial : PosRec := ⟨.signedOff, none, 0, none, none, 0⟩

/-- A blank unprotected cell (R99, R108). -/
def Cell.blank : Cell := ⟨0x20, .normal, false⟩

/-- A screen after power-on (R108). -/
def Screen.initial : Screen :=
  { area := Vector.replicate 15 (Vector.replicate 80 Cell.blank), form := none, cursor := none,
    ring := Vector.replicate 16 (Vector.replicate 80 ⟨0x20, .normal⟩), newest := 0, column := 0, review := 0,
    prompts := Vector.replicate 4 none, noPrinter := false, dirty := List.range 20, inFlight := false, present := false }

/-- A key unit after power-on (R123). -/
def KeyUnit.initial : KeyUnit := ⟨[], [], none, 0, none⟩

/-- A drawer line at zero. -/
def DLine.zero : DLine := ⟨0, 0, false⟩

/-- A drawer after power-on (R38). -/
def Drawer.initial : Drawer := ⟨Vector.replicate 16 DLine.zero, 0, none⟩

/-- A job record with every count 0 and every mark clear (R137). -/
def JobRec.initial : JobRec := ⟨0, 0, false, false, false, false, none⟩

/-- A Printer Controller after power-on (R150). DESIGN CHOICE (assumption 6): layout type 0, open page 1 and next
position page 1 line 1, which the manual leaves open until a book is accepted. -/
def Printer.initial : Printer := ⟨.offline, none, false, none, 0, 1, 1, 1, JobRec.initial⟩

/-- The Transfer Engine after power-on (R171). -/
def Engine.initial : Engine := ⟨.idle, none, 0, false, [], none, [], false⟩

/-- The Branch Clock after power-on (R58). -/
def Clock.initial : Clock := ⟨0, false, 0⟩

/-- Journal memory that has never been written. DESIGN CHOICE (assumption 5): zeros, no day state, no entry; neither
the control record nor the retained store checks good (R72: a memory that has never held a close fails the CRC). -/
def JournalMem.blank : JournalMem :=
  { control := ⟨⟨0, none, 0, 0, 0, false⟩, 0⟩, entries := [], retained := ⟨0, Vector.replicate 16 (Vector.replicate 8 0), 0⟩ }

/-- The part after power-on with journal memory that has never been written: the control record does not check good,
so the day is CLOSED-undelivered with the unreadable mark set (R53). -/
def State.reset : State :=
  { line := LineIf.initial, tables := Tables.initial, posns := Vector.replicate 16 PosRec.initial,
    screens := Vector.replicate 16 Screen.initial, keys := Vector.replicate 16 KeyUnit.initial,
    drawers := Vector.replicate 16 Drawer.initial, groups := Vector.replicate 16 none, nv := JournalMem.blank,
    jc := ⟨true, false, 0, none⟩, day := ⟨.closed true, none, none, false, []⟩, clock := Clock.initial, store := [],
    queues := Vector.replicate 4 [], printers := Vector.replicate 4 Printer.initial, engine := Engine.initial,
    powered := true, out := [], nvBefore := JournalMem.blank, nvLog := [], freeUsed := 0, pending := [] }

end Sys2Proof.Machine
end

