-- ==== Sys2Proof/Config.lean ====
section
/-! DEFINITION. The part's fixed sizes and times, and the free values: what the manual leaves open, as constants that
have no body, so that nothing can be proved of their value. -/

namespace Sys2Proof.Config

open Sys2Proof.Machine

/-! ## Fixed sizes, limits and times -/

/-- The greatest posting amount, leg, count, limit, budget and rate (Introduction, Amounts; R2, R4, R6). -/
def maxAmount : Nat := 999999999999

/-- The greatest magnitude of a drawer line total or balance (R21, R6, R124): 10^14 − 1. -/
def maxTotal : Nat := 99999999999999

/-- The greatest item count of a drawer line (R21). -/
def maxCount : Nat := 65535

/-- Slots used after a business-class append (R42). -/
def businessLimit : Nat := 16128

/-- Slots used after a control-class append (R42). -/
def controlLimit : Nat := 16256

/-- Slots used after a closing-class append; the journal's slots (R39, R42). -/
def closingLimit : Nat := 16384

/-- Slots used above which JOURNAL_LOW is raised (R48). -/
def lowMark : Nat := 15872

/-- Places of the outbound queue (R174). -/
def outboundMax : Nat := 32

/-- Messages at which the outbound queue is full for ENTRY, REPORT and BLOCK (R174). -/
def outboundFull : Nat := 28

/-- Places of a key queue (R109). -/
def keyMax : Nat := 16

/-- Lines of the passbook line store, lines of one account, and accounts (R125). -/
def storeLines : Nat := 512
def accountLines : Nat := 32
def storeAccounts : Nat := 64

/-- Places of a printer's job queue (R128). -/
def queueMax : Nat := 8

/-- Slots of a block and blocks unacknowledged at a time (R162, R163). -/
def blockSlots : Nat := 16
def window : Nat := 4

/-- The fixed printer timers of Table 9-1, in seconds. -/
def homeTime : Nat := 15
def stripeReadTime : Nat := 5
def linePrintTime : Nat := 5
def stripeWriteTime : Nat := 5
def ejectTime : Nat := 10

/-- The header position of a message that concerns the part as a whole (R174, R180). -/
def wholePart : Nat := 255

/-! ## Free values -/

/-- The fields of a control record written only in part when power failed (R45, R55 Caution): free. The argument is
the number of free values used before it. -/
opaque tornControl : Nat → ControlFields

/-- The content of a retained store record, its CRC included, written only in part when power failed (R45, R73): free. -/
opaque tornRetained : Nat → RetainedRec

/-- The minor exponent a conversion would use with the Currencies entry of slot 0 empty: free. No day trades so (R63
step 4, R1), and the manual gives no value. -/
opaque noLocalExponent : Nat

/-- The cash unit a rounding would use with the Currencies entry of slot 0 empty: free, as `noLocalExponent`. -/
opaque noLocalUnit : Nat

/-- The bytes of a TABLE QUERY's REPLY content: free, since the manual gives their fields and no layout (R177, R180). -/
opaque answerBytes : Answer → List Byte

/-- The bytes that follow the event code of a REPORT: free, since R180 gives their order and no widths. -/
opaque reportBytes : Report → List Byte

/-- The body of an ENTRY message: free, since R117 gives its fields and no layout. -/
opaque entryMessageBytes : Pos → Nat → Fin 32 → List (Nat × List Byte) → List Byte

/-- Bytes 9 onward of a journal entry other than POSTING and DECLARATION: free, since R181 lays out only those two. -/
opaque entryRestBytes : EntryBody → List Byte

/-! ## Bodies the manual lays out no bytes for

R180 gives the header of an inbound frame, R175 and R176 the first three bytes of a table message; what fields the other
bytes of a body spell is free (assumption 12). A free field stands for whatever those bytes mean; that no body lacks a field
the type gives it is the model's choice (assumptions 54, 57, 60 and 61). -/

opaque paintBody : List Byte → PaintBody
opaque formBody : List Byte → Nat × Bool
opaque noticeBody : List Byte → NoticeBody
opaque postBody : List Byte → PostBody
opaque bookLinesBody : List Byte → BookLinesBody
opaque dayRequest : List Byte → DayRequest
opaque posRequest : List Byte → PosRequest
opaque ackBody : List Byte → AckBody

/-- The content of a defining TABLE LOAD after its table id and index: absent when an item is missing (R176). -/
opaque formContent : List Byte → Option FormDesc
opaque textContent : List Byte → Option FormText
opaque codeContent : List Byte → Option CodeEntry
opaque currencyContent : List Byte → Option CurrencyEntry
opaque rateContent : List Byte → Option RateEntry
opaque limitContent : List Byte → Option Nat
opaque positionContent : List Byte → Option PositionEntry
opaque layoutContent : List Byte → Option Layout
opaque paramsContent : List Byte → Option Params

/-! ## Statuses the manual does not name -/

/-- The status of the REPLY to a DAY CONTROL that carries no request the part knows (R173): free (assumption 23). -/
opaque dayRequestStatus : Status

/-- The status of the REPLY to an OPEN whose source is absent or unknown (R63): free (assumption 42). -/
opaque openSourceStatus : Status

/-- The status of the REPLY to a BALANCE whose kind or group flag is absent or unknown (R26, R28, R81): free
(assumption 43). -/
opaque balanceBodyStatus : Status

end Sys2Proof.Config
end

