-- ==== Sys2Proof/Machine/Codec.lean ====
section
/-! DEFINITION. Bytes, digits and texts: the CRC of R40 and R172, integers and packed decimals of R180, the characters
of names and notices, and the calendar of R63. -/

namespace Sys2Proof.Machine

/-! ## CRC-16 -/

/-- One bit of the CRC-16 of R172, most significant bit first. -/
def crcBit (r : Nat) (bit : Bool) : Nat :=
  let top := r / 0x8000 % 2 == 1
  let r := r * 2 % 0x10000
  if top != bit then Nat.xor r 0x1021 else r

/-- One byte of the CRC-16, most significant bit first. -/
def crcByte (r : Nat) (b : Byte) : Nat :=
  [7, 6, 5, 4, 3, 2, 1, 0].foldl (fun r i => crcBit r (b.toNat.testBit i)) r

/-- CRC-16 with polynomial 0x1021 and initial value 0xFFFF, no final inversion (R40, R72, R172). -/
def crc16 (bs : List Byte) : BitVec 16 := BitVec.ofNat 16 (bs.foldl crcByte 0xFFFF)

/-! ## Integers and digits as bytes -/

/-- An unsigned integer in n bytes, high byte first (R180). -/
def natBytes (n v : Nat) : List Byte := (List.range n).map fun i => BitVec.ofNat 8 (v / 256 ^ (n - 1 - i))

/-- A signed integer in n bytes, two's complement, high byte first (R180). -/
def intBytes (n : Nat) (v : Int) : List Byte := natBytes n (v % (256 ^ n : Nat)).toNat

/-- A date packed two digits to a byte (R180). -/
def dateBytes (d : Nat) : List Byte :=
  [1000000, 10000, 100, 1].map fun k => BitVec.ofNat 8 (d / k % 100 / 10 * 16 + d / k % 10)

/-- The decimal digits of a number, most significant first; no digit for 0. -/
def digitsAux : Nat → Nat → List Nat → List Nat
  | 0, _, acc => acc
  | fuel + 1, n, acc => if n = 0 then acc else digitsAux fuel (n / 10) (n % 10 :: acc)

/-- The decimal digits of a number padded on the left with zeros to at least k digits. -/
def digitsPad (k n : Nat) : List Nat :=
  let ds := digitsAux 40 n []
  List.replicate (k - ds.length) 0 ++ ds

/-- The character of a decimal digit. -/
def digitChar (d : Nat) : Byte := BitVec.ofNat 8 (0x30 + d)

/-- The digits of a number as characters, at least k of them. -/
def decimal (k n : Nat) : List Byte := (digitsPad k n).map digitChar

/-- The value of a string of digit characters. -/
def digitsValue (bs : List Byte) : Nat := bs.foldl (fun n b => n * 10 + (b.toNat - 0x30)) 0

/-- Whether a character is a decimal digit. -/
def isDigit (b : Byte) : Bool := 0x30 ≤ b.toNat && b.toNat ≤ 0x39

/-- The code 0x20 to 0x7E of a printable character (R91). -/
def isPrintable (b : Byte) : Bool := 0x20 ≤ b.toNat && b.toNat ≤ 0x7E

/-- A character as a cell stores it: a code outside 0x20 to 0x7E is stored as 0x20 (R91). -/
def printable (b : Byte) : Byte := if isPrintable b then b else 0x20

/-- A text as character codes. -/
def chars (cs : List Char) : List Byte := cs.map fun c => BitVec.ofNat 8 c.toNat

/-- A text padded with blanks on the right, or cut, to n characters. -/
def padRight (n : Nat) (bs : List Byte) : List Byte := (bs ++ List.replicate (n - bs.length) 0x20).take n

/-- A text padded with blanks on the left to n characters. -/
def padLeft (n : Nat) (bs : List Byte) : List Byte := List.replicate (n - bs.length) 0x20 ++ bs

/-- A text without its leading and trailing blanks (R119). -/
def trimBlanks (bs : List Byte) : List Byte :=
  ((bs.dropWhile (· == 0x20)).reverse.dropWhile (· == 0x20)).reverse

/-- A text without its trailing blanks (R117). -/
def trimRight (bs : List Byte) : List Byte := (bs.reverse.dropWhile (· == 0x20)).reverse

/-- An account number read from a text: 1 to 19 decimal digits, or none (R119, R121). -/
def accountOf (bs : List Byte) : Option Account :=
  if 1 ≤ bs.length ∧ bs.length ≤ 19 ∧ bs.all isDigit then some (bs.map fun b => Fin.ofNat 10 (b.toNat - 0x30)) else none

/-- An account number of 1 to 19 digits (R6). -/
def accountOk (a : Account) : Bool := 1 ≤ a.length && a.length ≤ 19

/-! ## The calendar -/

/-- Days of a month of a year 2000 to 2099: February has 29 days in years divisible by 4 (R63). -/
def monthDays (y m : Nat) : Nat :=
  if m = 2 then (if y % 4 = 0 then 29 else 28) else if m = 4 ∨ m = 6 ∨ m = 9 ∨ m = 11 then 30 else 31

/-- A calendar date YYYYMMDD with year 2000 to 2099 (R63, R126). -/
def dateOk (d : Nat) : Bool :=
  let y := d / 10000
  let m := d / 100 % 100
  let dd := d % 100
  2000 ≤ y && y ≤ 2099 && 1 ≤ m && m ≤ 12 && 1 ≤ dd && dd ≤ monthDays y m

end Sys2Proof.Machine
end

