-- ==== Sys2Proof/Machine/Ops.lean ====
section
/-! DEFINITION. The named operations every block shares: the form of an event, the outbound queue, tones and dirty
rows, device timers, the journal memory port, and the one-place updates of State. -/

namespace Sys2Proof.Machine

/-! ## Events -/

/-- The state at the start of an event: nothing put out yet, and the journal memory's writes counted from here. -/
def State.begin (s : State) : State := { s with out := [], nvBefore := s.nv, nvLog := [] }

/-- One event of the part. Without branch power the part takes none (R45). -/
def event (f : State → State) (s : State) : Host.Outcome State Fault Refusal :=
  .next (if s.powered then f s.begin else s)

/-! ## One-place updates -/

def State.updPos (p : Pos) (f : PosRec → PosRec) (s : State) : State := { s with posns := upd s.posns p f }
def State.updScreen (p : Pos) (f : Screen → Screen) (s : State) : State := { s with screens := upd s.screens p f }
def State.updKeys (p : Pos) (f : KeyUnit → KeyUnit) (s : State) : State := { s with keys := upd s.keys p f }
def State.updDrawer (p : Pos) (f : Drawer → Drawer) (s : State) : State := { s with drawers := upd s.drawers p f }
def State.updPrinter (n : Prn) (f : Printer → Printer) (s : State) : State := { s with printers := upd s.printers n f }
def State.updQueue (n : Prn) (f : List Job → List Job) (s : State) : State := { s with queues := upd s.queues n f }
def State.updEngine (f : Engine → Engine) (s : State) : State := { s with engine := f s.engine }
def State.updLine (f : LineIf → LineIf) (s : State) : State := { s with line := f s.line }
def State.updDay (f : DayCtl → DayCtl) (s : State) : State := { s with day := f s.day }
def State.updTables (f : Tables → Tables) (s : State) : State := { s with tables := f s.tables }

/-- A function applied for every position in ascending order. -/
def eachPos (f : Pos → State → State) (s : State) : State := allPos.foldl (fun s p => f p s) s

/-- A function applied for every printer in ascending order. -/
def eachPrn (f : Prn → State → State) (s : State) : State := allPrn.foldl (fun s n => f n s) s

/-! ## Outputs -/

/-- Something put out at a port in this event. -/
def emit (o : Output) (s : State) : State := { s with out := s.out ++ [o] }

/-- A TONE to a station; one asked for while the station-present mark is clear is not sent (R106). -/
def tone (p : Pos) (s : State) : State := if (rd s.screens p).present then emit (.tone p) s else s

/-- A command to a printer (R136). -/
def command (n : Prn) (c : PrnCmd) (s : State) : State := emit (.printer n c) s

/-! ## Drawer lines -/

/-- A drawer line with its exceeded marker cleared (R23, R54). -/
def DLine.clearMark (l : DLine) : DLine := { l with exceeded := false }

/-! ## Dirty rows -/

/-- A row added to a dirty-row set, kept ascending with each row at most once (R105). -/
def insertRow (r : Nat) : List Nat → List Nat
  | [] => [r]
  | x :: xs => if r < x then r :: x :: xs else if r = x then x :: xs else x :: insertRow r xs

/-- A row of a screen marked dirty (R105). -/
def Screen.mark (r : Nat) (sc : Screen) : Screen := { sc with dirty := insertRow r sc.dirty }

/-- Rows 1 to 15 of a screen marked dirty (R96, R99). -/
def Screen.markArea (sc : Screen) : Screen := { sc with dirty := (List.range' 1 15).foldl (fun d r => insertRow r d) sc.dirty }

/-- Row 0 of one screen rewritten from its values and marked dirty (R92). -/
def markRow0 (p : Pos) (s : State) : State := s.updScreen p (Screen.mark 0)

/-- Row 0 of all sixteen screens rewritten and marked dirty (R92). -/
def markRow0All (s : State) : State := { s with screens := mapV s.screens (Screen.mark 0) }

/-! ## Device timers -/

/-- A timer started afresh with a length. -/
def Timer.start (n : Nat) : Option Timer := some ⟨n, n⟩

/-- A timer after one second of the time base (R58). -/
def Timer.tick (t : Option Timer) : Option Timer := t.map fun t => { t with left := t.left - 1 }

/-- Whether a timer runs and has counted its length, so that its expiry may be taken (Introduction, Time). -/
def Timer.due (t : Option Timer) : Bool := t.any fun t => t.left == 0

/-! ## The outbound queue -/

/-- A message at the tail of the outbound queue (R174). -/
def enqueue (m : OutMsg) (s : State) : State := s.updLine fun l => { l with outbound := l.outbound ++ [m] }

/-- Whether the outbound queue takes an ENTRY, REPORT or BLOCK (R174). -/
def outboundRoom (s : State) : Bool := s.line.outbound.length < Config.outboundFull

/-- A REPLY offered to the outbound queue: tag and position of the message it answers; dropped when 32 wait (R173, R174). -/
def replyWith (h : Hdr) (st : Status) (x : Extra) (s : State) : State :=
  if s.line.outbound.length < Config.outboundMax then enqueue ⟨h.pos, h.tag, .reply st x⟩ s else s

/-- A REPLY that carries its status alone (R173). -/
def reply (h : Hdr) (st : Status) (s : State) : State := replyWith h st .none s

/-- A REPORT offered to the outbound queue: dropped while the line is STAND_IN or the queue is full (R154, R174). -/
def report (pos : Nat) (r : Report) (s : State) : State :=
  if s.line.state = .online ∧ outboundRoom s then enqueue ⟨pos, 0, .report r⟩ s else s

/-! ## The Journal Memory Port -/

/-- An entry whose print state changes from STORED to BACKLOGGED; in any other print state it stays as it is (R49). -/
def Entry.backlog (e : Entry) : Entry := if e.print = .stored then { e with print := .backlogged } else e

/-- Journal memory after one completed write. An entry's slots are written after the entries the control record counts. -/
def JournalMem.write (w : NvWrite) (m : JournalMem) : JournalMem :=
  match w with
  | .slots e => { m with entries := m.entries.take m.control.fields.entryCount ++ [e] }
  | .control c => { m with control := c }
  | .backlogged c is => { m with control := c, entries := is.foldl (fun es i => es.modify i Entry.backlog) m.entries }
  | .states i p f => { m with entries := m.entries.modify i fun e => { e with print := p, fwd := f } }
  | .retained r => { m with retained := r }
  | .retainedCrc c => { m with retained := { m.retained with crc := c } }

/-- A write made by the part in this event. -/
def nvWrite (w : NvWrite) (s : State) : State := { s with nv := s.nv.write w, nvLog := s.nvLog ++ [w] }

/-- The code of a recorded day state in the bytes the control record's CRC is taken over. DESIGN CHOICE (assumption 8). -/
def recDayCode : Option RecDay → Nat
  | none => 0
  | some .opened => 1
  | some .cutoff => 2
  | some .closing => 3
  | some .closed => 4

/-- The bytes the control record's CRC is taken over: the other fields in the order R40 lists them. DESIGN CHOICE
(assumption 8): their widths. -/
def controlBytes (f : ControlFields) : List Byte :=
  dateBytes f.date ++ natBytes 1 (recDayCode f.day) ++ natBytes 2 f.slotsUsed ++ natBytes 2 f.entryCount ++
    natBytes 2 f.delivered ++ natBytes 1 (if f.undelivered then 1 else 0)

/-- Whether the control record checks good (R40). -/
def ControlRec.good (c : ControlRec) : Bool :=
  c.crc == crc16 (controlBytes c.fields) && c.fields.day.isSome && c.fields.slotsUsed ≤ Config.closingLimit &&
    c.fields.entryCount ≤ c.fields.slotsUsed && c.fields.delivered ≤ c.fields.slotsUsed

/-- The control record rewritten: every field together with a new CRC (R40). -/
def writeControl (f : ControlFields → ControlFields) (s : State) : State :=
  let g := f s.nv.control.fields
  nvWrite (.control ⟨g, crc16 (controlBytes g)⟩) s

/-- Slots used, as the control record holds it (R40). -/
def slotsUsed (s : State) : Nat := s.nv.control.fields.slotsUsed

/-- The business date of the control record (R40). -/
def businessDate (s : State) : Nat := s.nv.control.fields.date

/-! ## The retained store -/

/-- The bytes the retained store's CRC is taken over: the date and the amounts in that order (R72). DESIGN CHOICE
(assumption 8): six bytes for an amount. -/
def retainedBytes (date : Nat) (amounts : Vector (Vector Int 8) 16) : List Byte :=
  dateBytes date ++ (amounts.toList.flatMap fun row => row.toList.flatMap (intBytes 6))

/-- Whether the retained store checks good (R72). -/
def retainedGood (s : State) : Bool :=
  !s.day.retainedBad && s.nv.retained.crc == crc16 (retainedBytes s.nv.retained.date s.nv.retained.amounts)

/-! ## Forms and local currency -/

/-- The Form Fields entry of a form, when the form is defined (R94). -/
def formDesc (s : State) (n : Fin 32) : Option FormDesc := rd s.tables.forms n

/-- The Form Fields entry of the form a position shows. -/
def currentForm (s : State) (p : Pos) : Option FormDesc := (rd s.screens p).form.bind (formDesc s)

/-- The fields of the form a position shows; none without a form (R111). -/
def currentFields (s : State) (p : Pos) : List FieldDesc := (currentForm s p).elim [] (·.fields)

/-- The minor exponent of the local currency (R1, R10). -/
def localExponent (s : State) : Nat := (rd s.tables.currencies 0).elim Config.noLocalExponent (·.exponent)

/-- The cash unit of the local currency (R1, R13). -/
def localUnit (s : State) : Nat := (rd s.tables.currencies 0).elim Config.noLocalUnit (·.unit)

/-- The Positions entry of a position (R76). -/
def positionEntry (s : State) (p : Pos) : Option PositionEntry := rd s.tables.positions p

end Sys2Proof.Machine
end

