-- ==== Sys2Proof/Machine/Journal.lean ====
section
/-! DEFINITION. The Journal Controller (Section 3): entries, the room test, the append with its two writes, the MIDNIGHT
entry, JOURNAL_LOW, the changes in place, and reading by slot. -/

namespace Sys2Proof.Machine

/-- The kind code of an entry (R181). -/
def kindCode : EntryBody → Nat
  | .opening .. => 0x01
  | .posting .. => 0x02
  | .bookLine .. => 0x03
  | .capture .. => 0x04
  | .declaration .. => 0x05
  | .groupBegin .. => 0x06
  | .groupEnd .. => 0x06
  | .midnight .. => 0x07
  | .cutoff .. => 0x08
  | .abandoned .. => 0x09
  | .recovery .. => 0x0A
  | .backlog .. => 0x0B
  | .close .. => 0x0C

/-- The slots an entry occupies, by kind (Table 3-1). -/
def kindSlots : EntryBody → Nat
  | .opening .. => 2
  | .posting .. => 2
  | .bookLine .. => 1
  | .capture .. => 4
  | .declaration .. => 4
  | .groupBegin .. => 1
  | .groupEnd .. => 1
  | .midnight .. => 1
  | .cutoff .. => 1
  | .abandoned .. => 1
  | .recovery .. => 1
  | .backlog .. => 1
  | .close .. => 1

/-- The capacity class of a request (R42, R45). -/
inductive CapClass where
  | business | control | closing
deriving DecidableEq, Repr

/-- Slots used a class may reach (R42). -/
def CapClass.limit : CapClass → Nat
  | .business => Config.businessLimit
  | .control => Config.controlLimit
  | .closing => Config.closingLimit

/-- The forward state written at the append (R50). -/
def firstForward : EntryBody → ForwardState
  | .posting r => if r.origin = .standIn then .pending else .notNeeded
  | _ => .notNeeded

/-- The next sequence number: the entry count plus 1 (R41). -/
def nextSeq (s : State) : Nat := s.nv.control.fields.entryCount + 1

/-- The entry a body becomes when it is appended now (R41). -/
def makeEntry (b : EntryBody) (s : State) : Entry :=
  { seq := nextSeq s, kind := kindCode b, size := kindSlots b, time := if s.clock.isSet then s.clock.time else 0,
    clockMark := s.clock.isSet, print := .none, fwd := firstForward b, body := b }

/-- The low-space flag and the JOURNAL_LOW report after an append (R48). DESIGN CHOICE (assumption 40): in a request of
several entries the report carries slots used and entry count as they stand after the entry that passes the mark. -/
def lowSpaceCheck (s : State) : State :=
  if !s.jc.lowSpace ∧ Config.lowMark < slotsUsed s then
    report Config.wholePart (.journalLow (slotsUsed s) s.nv.control.fields.entryCount (businessDate s))
      { s with jc := { s.jc with lowSpace := true } }
  else s

/-- One entry appended in two writes: its slots, then the control record with the new slots used and entry count, to
which the record write may add a day state (R45, R51, R67, R69). -/
def appendWith (more : ControlFields → ControlFields) (b : EntryBody) (s : State) : State :=
  let e := makeEntry b s
  let s := nvWrite (.slots e) s
  let s := writeControl (fun c => more { c with slotsUsed := c.slotsUsed + e.size, entryCount := c.entryCount + 1 }) s
  let s := if e.fwd = .pending then { s with jc := { s.jc with pendingCount := s.jc.pendingCount + 1 } } else s
  lowSpaceCheck s

/-- One entry appended (R45). -/
def append (b : EntryBody) (s : State) : State := appendWith id b s

/-- Several entries appended in the order given (R45). -/
def appendAll (bs : List EntryBody) (s : State) : State := bs.foldl (fun s b => append b s) s

/-- Whether a MIDNIGHT entry is to be placed ahead of a request of a class (R47). -/
def midnightAhead (cls : CapClass) (s : State) : Bool :=
  0 < s.clock.midnights && (cls != .closing || slotsUsed s + 1 ≤ Config.controlLimit)

/-- The start of a request that is taken: a pending midnight is journaled and its count cleared (R47). -/
def placeMidnight (cls : CapClass) (s : State) : State :=
  if midnightAhead cls s then
    let s := append (.midnight s.clock.midnights) s
    { s with clock := { s.clock with midnights := 0 } }
  else s

/-- Whether a request of a class for some slots fits, with a MIDNIGHT ahead of it (R45, R47). -/
def fits (cls : CapClass) (slots : Nat) (s : State) : Bool :=
  slotsUsed s + slots + (if midnightAhead cls s then 1 else 0) ≤ cls.limit

/-- Why the Journal Controller refuses a request, if it does: DAY_STATE while CLOSED or after the CLOSE entry in
CLOSING (R46), JOURNAL_FULL without room (R45). -/
def refusal (cls : CapClass) (slots : Nat) (s : State) : Option Status :=
  match s.day.state with
  | .closed _ => some .dayState
  | .closing => some .dayState
  | _ => if fits cls slots s then none else some .journalFull

/-- The entries of the journal: those the control record counts (R39, R41). -/
def journal (s : State) : List Entry := s.nv.entries.take s.nv.control.fields.entryCount

/-- The entries of a list with the slot each begins at (R39). -/
def slotted : Nat → List Entry → List (Nat × Entry)
  | _, [] => []
  | n, e :: es => (n, e) :: slotted (n + e.size) es

/-- The whole entries the journal offers for reading, with their slots; none while the unreadable mark is set (R52, R53). -/
def readable (s : State) : List (Nat × Entry) :=
  if s.jc.unreadable then [] else (slotted 0 (journal s)).filter fun x => x.1 < slotsUsed s

/-- A BACKLOG entry appended (R67): its slots, then one write of the control record and of the states bytes of the lines
it carries, which change from STORED to BACKLOGGED (assumption 44). -/
def appendBacklog (s : State) (b : Account × List Nat) : State :=
  let e := makeEntry (.backlog b.1 b.2) s
  let s := nvWrite (.slots e) s
  let f := s.nv.control.fields
  let g : ControlFields := { f with slotsUsed := f.slotsUsed + e.size, entryCount := f.entryCount + 1 }
  let known := b.2.filter fun q => 1 ≤ q && q ≤ f.entryCount
  lowSpaceCheck (nvWrite (.backlogged ⟨g, crc16 (controlBytes g)⟩ (known.map fun q => q - 1)) s)

/-- The journal entry with a sequence number. -/
def entryAt (seq : Nat) (s : State) : Option Entry := if seq = 0 then none else (journal s)[seq - 1]?

/-- Whether R49 allows a change of print state. -/
def printChangeOk : PrintState → PrintState → Bool
  | .none, .stored => true
  | .none, .overflow => true
  | .stored, .printed => true
  | .stored, .backlogged => true
  | _, _ => false

/-- The print state of an entry changed in place; a change R49 does not allow leaves it as it is. -/
def changePrint (seq : Nat) (new : PrintState) (s : State) : State :=
  match entryAt seq s with
  | some e => if printChangeOk e.print new then nvWrite (.states (seq - 1) new e.fwd) s else s
  | none => s

/-- The forward state of an entry changed from PENDING to FORWARDED, and the pending count with it (R50). -/
def changeForward (seq : Nat) (s : State) : State :=
  match entryAt seq s with
  | some e =>
    if e.fwd = .pending then
      let s := nvWrite (.states (seq - 1) e.print .forwarded) s
      { s with jc := { s.jc with pendingCount := s.jc.pendingCount - 1 } }
    else s
  | none => s

/-- Whether a slot lies at an entry boundary (R50). -/
def atBoundary (slot : Nat) (s : State) : Bool :=
  slot == 0 || (slotted 0 (journal s)).any fun x => x.1 + x.2.size == slot

/-- The delivered-through slot written at the Transfer Engine's request; a slot outside R50's range leaves it. -/
def setDelivered (slot : Nat) (s : State) : State :=
  let f := s.nv.control.fields
  if atBoundary slot s ∧ f.delivered ≤ slot ∧ slot ≤ f.slotsUsed then
    writeControl (fun c => { c with delivered := slot }) s
  else s

/-- Whether the day's CLOSE entry carries the forced mark (R71). -/
def closeForced (s : State) : Bool :=
  (journal s).any fun e =>
    match e.body with
    | .close true _ _ => true
    | _ => false

end Sys2Proof.Machine
end

