-- ==== Sys2Proof/Machine/Arithmetic.lean ====
section
/-! DEFINITION. The posting arithmetic (Section 1): conversion, cash rounding, local value, legs, and the eleven checks
of Table 1-1. -/

namespace Sys2Proof.Machine

/-- The conversion of a foreign amount at a rate into local minor units, rounding an exact half to even (R10). -/
def convert (amount rate localExp foreignExp : Nat) : Nat :=
  let n := amount * rate * 10 ^ localExp
  let d := 10 ^ (foreignExp + 6)
  let q := n / d
  let r := n % d
  if 2 * r < d then q else if d < 2 * r then q + 1 else if q % 2 = 0 then q else q + 1

/-- The magnitude of cash rounding: the nearest multiple of the unit, the lesser at a midpoint (R13). -/
def roundMagnitude (m unit : Nat) : Nat :=
  let q := m / unit
  if unit < 2 * (m % unit) then (q + 1) * unit else q * unit

/-- Cash rounding of a signed local amount (R13). -/
def cashRound (amount : Int) (unit : Nat) : Int :=
  if 0 ≤ amount then (roundMagnitude amount.natAbs unit : Int) else -(roundMagnitude amount.natAbs unit : Int)

/-- A posting request (R6). -/
structure PostReq where
  origin : Origin
  pos : Nat
  code : Nat
  slot : Nat
  amount : Nat
  account : Option Account
  passbook : Option PassbookPart
  counterparty : Option Nat
  entryRef : Option Nat
deriving DecidableEq, Repr

/-- What the checks of a request have found, for its hand-off: the position, the code's entry, the slot with its
exponent, the local value, the rate serial and the legs (R12, R17). -/
structure Plan where
  pos : Pos
  code : CodeEntry
  slot : Fin 8
  exponent : Nat
  value : Nat
  serial : Nat
  legs : List Leg
deriving DecidableEq, Repr

/-- The drawer line of a currency slot's cash (R21). -/
def cashLine (c : Fin 8) : Fin 16 := ⟨c.val, Nat.lt_of_lt_of_le c.isLt (by decide)⟩

/-- Whether a class is an exchange. -/
def isExchange (c : PClass) : Bool := c == .exchangeBuy || c == .exchangeSell

/-- Whether the cash-unit test of step 8 applies to a class and slot (R8). -/
def needsCashable (c : PClass) (slot : Fin 8) : Bool :=
  match c with
  | .cashIn => slot != 0
  | .cashOut => slot != 0
  | .exchangeBuy => true
  | .exchangeSell => true
  | .nonCash => false
  | .internal => true

/-- The local cash amount S that cash rounding takes, for the classes that have one (R13, Table 1-2). -/
def localCash (c : PClass) (slot : Fin 8) (amount value : Nat) : Option Int :=
  match c with
  | .cashIn => if slot = 0 then some amount else none
  | .cashOut => if slot = 0 then some (-(amount : Int)) else none
  | .exchangeBuy => some (-(value : Int))
  | .exchangeSell => some value
  | .nonCash => none
  | .internal => none

/-- The rounding leg on line 14, omitted when the rounding difference is 0 (R15, Table 1-2). -/
def roundingLeg (p : Pos) (diff : Int) : List Leg := if diff = 0 then [] else [⟨p, 14, diff⟩]

/-- The legs of a posting in the order of Table 1-2 (R14, R15). For an exchange the value is the conversion L. -/
def formLegs (e : CodeEntry) (p : Pos) (slot : Fin 8) (amount value unit : Nat) (counterparty : Option Pos) : List Leg :=
  let a : Int := amount
  let v : Int := value
  let lc (sgn : Int) := cashRound sgn unit
  match e.cls with
  | .cashIn => if slot = 0 then ⟨p, 0, lc a⟩ :: roundingLeg p (a - lc a) else [⟨p, cashLine slot, a⟩]
  | .cashOut => if slot = 0 then ⟨p, 0, lc (-a)⟩ :: roundingLeg p (-a - lc (-a)) else [⟨p, cashLine slot, -a⟩]
  | .exchangeBuy => [⟨p, cashLine slot, a⟩, ⟨p, 0, lc (-v)⟩] ++ roundingLeg p (-v - lc (-v)) ++ [⟨p, 13, v⟩]
  | .exchangeSell => [⟨p, cashLine slot, -a⟩, ⟨p, 0, lc v⟩] ++ roundingLeg p (v - lc v) ++ [⟨p, 13, -v⟩]
  | .nonCash => [⟨p, Fin.ofNat 16 (e.generalLine.getD 8), if e.direction = some .decrease then -v else v⟩]
  | .internal =>
    match counterparty with
    | some q => [⟨p, cashLine slot, -a⟩, ⟨q, cashLine slot, a⟩]
    | none => [⟨p, cashLine slot, -a⟩]

/-- A number as a position, when it is 0 to 15. -/
def posOf (n : Nat) : Option Pos := if h : n < 16 then some ⟨n, h⟩ else none

/-- The counterparty of an INTERNAL request: present, 0 to 15 and different from the position (Table 1-1, step 9). -/
def counterpartyOf (req : PostReq) (p : Pos) : Option Pos := (req.counterparty.bind posOf).filter fun q => q != p

/-- The defined Posting Codes entry a code names (R3, R7 step 4). -/
def codeEntry (s : State) (code : Nat) : Option CodeEntry :=
  if code = 0 then none else (rdN s.tables.codes code).join

/-- The rate of a slot that a class converts at: R_s for EXCHANGE_SELL, else R_b (R10); 0 when unset. -/
def rateFor (s : State) (c : PClass) (slot : Fin 8) : Nat :=
  match rd s.tables.rates slot with
  | some r => if c = .exchangeSell then r.sell else r.buy
  | none => 0

/-- Step 7 of Table 1-1: for a foreign slot R_b is set, for EXCHANGE_SELL R_s too. -/
def ratesSet (s : State) (c : PClass) (slot : Fin 8) : Bool :=
  slot == 0 || (rd s.tables.rates slot).any fun r => r.buy != 0 && (c != .exchangeSell || r.sell != 0)

/-- The local value V of a posting: A in slot 0, the conversion in a foreign slot (R11). -/
def localValue (s : State) (c : PClass) (slot : Fin 8) (cur : CurrencyEntry) (amount : Nat) : Nat :=
  if slot = 0 then amount else convert amount (rateFor s c slot) (localExponent s) cur.exponent

/-- Step 10 of Table 1-1: the conversion, the local value and the rounded local cash fit (R9). -/
def amountsFit (s : State) (c : PClass) (slot : Fin 8) (amount value : Nat) : Bool :=
  value ≤ Config.maxAmount &&
    (localCash c slot amount value).all fun x => (cashRound x (localUnit s)).natAbs ≤ Config.maxAmount

/-- The checks of Table 1-1, in order; the first that fails gives the status (R7). -/
def checkPosting (req : PostReq) (s : State) : Except Status Plan :=
  if req.origin = .standIn ∧ s.day.state = .cutoff then .error .afterCutoff
  else if ¬(s.day.state = .opened ∨ (req.origin = .online ∧ s.day.state = .cutoff)) then .error .dayState
  else if s.clock.isSet = false then .error .clockUnset
  else
    match posOf req.pos with
    | none => .error .badPosition
    | some p =>
      match codeEntry s req.code with
      | none => .error .codeUndefined
      | some e =>
        if h : req.slot < 8 then
          let slot : Fin 8 := ⟨req.slot, h⟩
          match rd s.tables.currencies slot with
          | none => .error .currencyUndefined
          | some cur =>
            let value := localValue s e.cls slot cur req.amount
            let cp := counterpartyOf req p
            if isExchange e.cls ∧ slot = 0 then .error .currencyUndefined
            else if ¬(1 ≤ req.amount ∧ req.amount ≤ Config.maxAmount) then .error .amountRange
            else if ratesSet s e.cls slot = false then .error .rateUnset
            else if needsCashable e.cls slot ∧ req.amount % cur.unit ≠ 0 then .error .notCashable
            else if e.cls = .internal ∧ cp = none then .error .badCounterparty
            else if amountsFit s e.cls slot req.amount value = false then .error .amountRange
            else if fits .business 2 s = false then .error .journalFull
            else .ok { pos := p, code := e, slot := slot, exponent := cur.exponent, value := value,
                       serial := if slot = 0 then 0 else rd s.tables.serials slot,
                       legs := formLegs e p slot req.amount value (localUnit s) cp }
        else .error .currencyUndefined

/-! ## Legs on drawers -/

/-- A leg added to a drawer line: the amount held at the limit it would pass, the count at 65,535, the exceeded marker
set in either case (R22). -/
def applyToLine (a : Int) (l : DLine) : DLine :=
  let max : Int := Config.maxTotal
  let sum := l.amount + a
  { amount := if max < sum then max else if sum < -max then -max else sum,
    count := if Config.maxCount < l.count + 1 then Config.maxCount else l.count + 1,
    exceeded := l.exceeded || (max < sum) || (sum < -max) || (Config.maxCount < l.count + 1) }

/-- A leg applied to the drawer line it names (R22). -/
def applyLeg (g : Leg) (s : State) : State :=
  s.updDrawer g.pos fun d => { d with lines := upd d.lines g.line (applyToLine g.amount) }

/-- Legs applied in the order of their entry (R18, R22). -/
def applyLegs (gs : List Leg) (s : State) : State := gs.foldl (fun s g => applyLeg g s) s

end Sys2Proof.Machine
end

