-- ==== Sys2Proof/Machine/Screens.lean ====
section
/-! DEFINITION. The Screen Engine (Section 6): the status row, the notice ring and its window, part notices, printer
prompts, field cells, the showing of forms, and the repaint's parts that touch one screen. -/

namespace Sys2Proof.Machine

/-! ## Names shown on screens -/

/-- The name of a status as a notice shows it (R119, R25, R28, R30). DESIGN CHOICE (assumption 9): as the manual
writes it. -/
def Status.name : Status → List Byte
  | .accepted => chars ['A','C','C','E','P','T','E','D']
  | .malformed => chars ['M','A','L','F','O','R','M','E','D']
  | .unknownKind => chars ['U','N','K','N','O','W','N','_','K','I','N','D']
  | .badPosition => chars ['B','A','D','_','P','O','S','I','T','I','O','N']
  | .badIndex => chars ['B','A','D','_','I','N','D','E','X']
  | .readOnly => chars ['R','E','A','D','_','O','N','L','Y']
  | .inUse => chars ['I','N','_','U','S','E']
  | .printersBusy => chars ['P','R','I','N','T','E','R','S','_','B','U','S','Y']
  | .dayState => chars ['D','A','Y','_','S','T','A','T','E']
  | .recovering => chars ['R','E','C','O','V','E','R','I','N','G']
  | .clockUnset => chars ['C','L','O','C','K','_','U','N','S','E','T']
  | .noLocalCurrency => chars ['N','O','_','L','O','C','A','L','_','C','U','R','R','E','N','C','Y']
  | .dateNotLater => chars ['D','A','T','E','_','N','O','T','_','L','A','T','E','R']
  | .undeliveredDay => chars ['U','N','D','E','L','I','V','E','R','E','D','_','D','A','Y']
  | .retainedBad => chars ['R','E','T','A','I','N','E','D','_','B','A','D']
  | .cashUnitMismatch => chars ['C','A','S','H','_','U','N','I','T','_','M','I','S','M','A','T','C','H']
  | .cutoffArmed => chars ['C','U','T','O','F','F','_','A','R','M','E','D']
  | .journalFull => chars ['J','O','U','R','N','A','L','_','F','U','L','L']
  | .codeUndefined => chars ['C','O','D','E','_','U','N','D','E','F','I','N','E','D']
  | .currencyUndefined => chars ['C','U','R','R','E','N','C','Y','_','U','N','D','E','F','I','N','E','D']
  | .rateUnset => chars ['R','A','T','E','_','U','N','S','E','T']
  | .amountRange => chars ['A','M','O','U','N','T','_','R','A','N','G','E']
  | .notCashable => chars ['N','O','T','_','C','A','S','H','A','B','L','E']
  | .badCounterparty => chars ['B','A','D','_','C','O','U','N','T','E','R','P','A','R','T','Y']
  | .notLeader => chars ['N','O','T','_','L','E','A','D','E','R']
  | .memberBalancing => chars ['M','E','M','B','E','R','_','B','A','L','A','N','C','I','N','G']
  | .positionState => chars ['P','O','S','I','T','I','O','N','_','S','T','A','T','E']
  | .afterCutoff => chars ['A','F','T','E','R','_','C','U','T','O','F','F']
  | .tellerState => chars ['T','E','L','L','E','R','_','S','T','A','T','E']
  | .formNotStandin => chars ['F','O','R','M','_','N','O','T','_','S','T','A','N','D','I','N']
  | .codeNotStandin => chars ['C','O','D','E','_','N','O','T','_','S','T','A','N','D','I','N']
  | .overLimit => chars ['O','V','E','R','_','L','I','M','I','T']
  | .budgetExhausted => chars ['B','U','D','G','E','T','_','E','X','H','A','U','S','T','E','D']
  | .counterpartyBalancing =>
    chars ['C','O','U','N','T','E','R','P','A','R','T','Y','_','B','A','L','A','N','C','I','N','G']

/-- The texts of the other part notices (R103). -/
def textLineBusy : List Byte := chars ['L','I','N','E',' ','B','U','S','Y']
def textNoReply : List Byte := chars ['N','O',' ','R','E','P','L','Y']
def textLineDown : List Byte := chars ['L','I','N','E',' ','D','O','W','N']
def textLineRestored : List Byte := chars ['L','I','N','E',' ','R','E','S','T','O','R','E','D']
def textNothingToPrint : List Byte := chars ['N','O','T','H','I','N','G',' ','T','O',' ','P','R','I','N','T']
def textNoJob : List Byte := chars ['N','O',' ','J','O','B']

/-- The notice ACCEPTED with a sequence number (R20). DESIGN CHOICE (assumption 9): a blank between the two. -/
def textAccepted (seq : Nat) : List Byte := Status.accepted.name ++ [0x20] ++ decimal 1 seq

/-! ## The status row -/

/-- The prompt item of row 0: the prompt of the lowest-numbered printer with one, else NO PRINTER while the mark is
set, else blank (R93). -/
def promptText (sc : Screen) : List Byte :=
  match allPrn.find? fun n => (rd sc.prompts n).isSome with
  | some n =>
    match rd sc.prompts n with
    | some .insertBook => chars ['I','N','S','E','R','T',' ','B','O','O','K',' ','P'] ++ decimal 1 n
    | some (.turnToPage page) => chars ['T','U','R','N',' ','T','O',' ','P','A','G','E',' '] ++ decimal 1 page
    | some .wrongBook => chars ['W','R','O','N','G',' ','B','O','O','K']
    | none => []
  | none => if sc.noPrinter then chars ['N','O',' ','P','R','I','N','T','E','R'] else []

/-- The day state item of row 0 (R92). -/
def dayText : DayState → List Byte
  | .closed false => chars ['C','L','O','S','E','D']
  | .closed true => chars ['C','L','O','S','E','D','-','U']
  | .recovering => chars ['R','E','C','O','V','E','R','Y']
  | .opened => chars ['O','P','E','N']
  | .cutoff => chars ['C','U','T','O','F','F']
  | .closing => chars ['C','L','O','S','I','N','G']

/-- The keyboard state item of row 0 (R92). -/
def keyboardText (st : PState) (kind : Option BalKind) : List Byte :=
  match st with
  | .signedOff => chars ['O','F','F']
  | .ready => chars ['R','E','A','D','Y']
  | .awaiting => chars ['L','O','C','K','E','D']
  | .balancing =>
    match kind with
    | some .interim => chars ['B','A','L',' ','I','N','T','E','R']
    | some .final => chars ['B','A','L',' ','F','I','N','A','L']
    | none => []

/-- The balance kind of a position: the kind of its balance context (R24, R79). -/
def balanceKind (s : State) (p : Pos) : Option BalKind := (rd s.drawers p).ctx.map (·.kind)

/-- The characters of row 0 of a position's screen, from the values it shows at their fixed columns (R92). DESIGN
CHOICE (assumption 53): a text shorter than its columns stands left-aligned, with blanks after it. -/
def statusChars (s : State) (p : Pos) : List Byte :=
  let r := rd s.posns p
  let sc := rd s.screens p
  let item (n : Nat) (bs : List Byte) : List Byte := padRight n bs ++ [0x20]
  item 3 (chars ['P'] ++ decimal 2 p) ++
  item 6 (match r.teller with
    | some ds => ds.map fun d => digitChar d
    | none => List.replicate 6 0x2D) ++
  item 8 (match s.day.date with
    | some d => decimal 8 d
    | none => []) ++
  item 5 (if s.clock.isSet then decimal 2 (s.clock.time / 3600) ++ [0x3A] ++ decimal 2 (s.clock.time / 60 % 60)
    else chars ['-','-',':','-','-']) ++
  item 7 (match s.line.state with
    | .online => chars ['O','N','L','I','N','E']
    | .standIn => chars ['S','T','A','N','D','I','N']) ++
  item 9 (dayText s.day.state) ++
  item 15 (promptText sc) ++
  item 9 (keyboardText r.state (balanceKind s p)) ++
  item 5 (match r.inDoubt with
    | some n => [0x3F] ++ decimal 4 n
    | none => []) ++
  item 3 (if sc.review = 0 then [] else chars ['R'] ++ decimal 2 sc.review)

/-- A ring line shown in the window: window row k of 0 to 3 shows line newest − 3 + k − offset modulo 16 (R101). -/
def Screen.windowLine (sc : Screen) (k : Nat) : Vector RingCell 80 :=
  rd sc.ring (Fin.ofNat 16 (sc.newest.val + 32 + k - 3 - sc.review))

/-- The cells of a row of a position's screen as they stand (R91, R92, R101). -/
def rowCells (s : State) (p : Pos) (r : Nat) : List Cell :=
  let sc := rd s.screens p
  if r = 0 then (statusChars s p).map fun c => ⟨printable c, .reverse, true⟩
  else if r < 16 then (rdN sc.area (r - 1)).elim [] (·.toList)
  else (sc.windowLine (r - 16)).toList.map fun c => ⟨c.ch, c.attr, true⟩

/-- A cell as it travels to the station: a HIDDEN cell is sent with 0x20 for its character (R91). -/
def sentCell (c : Cell) : Cell := if c.attr = .hidden then { c with ch := 0x20 } else c

/-! ## The notice ring -/

/-- A change of the ring or the offset: each window row whose shown cells differ from before is marked dirty (R101). -/
def Screen.withWindow (f : Screen → Screen) (sc : Screen) : Screen :=
  let t := f sc
  [0, 1, 2, 3].foldl (fun u k => if sc.windowLine k = t.windowLine k then u else u.mark (16 + k)) t

/-- The review offset set; a change of it also marks row 0 for its review item (R92, R101, R104). -/
def Screen.setReview (o : Nat) (sc : Screen) : Screen :=
  if sc.review = o then sc else (sc.withWindow fun sc => { sc with review := o }).mark 0

/-- A line advanced: the next ring line becomes the newest, cleared to blanks with the attribute of column 0 of the
line that was newest (R101). -/
def Screen.advanceLine (sc : Screen) : Screen :=
  let a := (rd (rd sc.ring sc.newest) 0).attr
  let n : Fin 16 := sc.newest + 1
  sc.withWindow fun sc => { sc with newest := n, ring := wr sc.ring n (Vector.replicate 80 ⟨0x20, a⟩) }

/-- A printable character written at the notice column; a full line is advanced first (R102). -/
def Screen.putNotice (a : Attr) (b : Byte) (sc : Screen) : Screen :=
  let sc := if sc.column = 80 then { sc.advanceLine with column := 0 } else sc
  let sc := sc.withWindow fun sc =>
    { sc with ring := upd sc.ring sc.newest fun l => updN l sc.column fun _ => ⟨printable b, a⟩ }
  { sc with column := sc.column + 1 }

/-- One byte of a NOTICE's text (R102). -/
def noticeByte (p : Pos) (a : Attr) (s : State) (b : Byte) : State :=
  if b = 0x0D then s.updScreen p fun sc => { sc with column := 0 }
  else if b = 0x0A then s.updScreen p fun sc =>
    let t := sc.advanceLine
    { t with column := if t.column = 80 then 0 else t.column }
  else if b = 0x08 then s.updScreen p fun sc => { sc with column := sc.column - 1 }
  else if b = 0x07 then tone p s
  else s.updScreen p fun sc => sc.putNotice a b

/-- A notice the part writes itself: offset 0, a line advanced unless the column is 0, the text from column 0 in
BRIGHT (R103). -/
def Screen.partNotice (text : List Byte) (sc : Screen) : Screen :=
  let sc := sc.setReview 0
  let sc := if sc.column = 0 then sc else sc.advanceLine
  let sc := sc.withWindow fun sc =>
    { sc with ring := upd sc.ring sc.newest fun l =>
        (text.zipIdx).foldl (fun l ci => updN l ci.2 fun _ => ⟨printable ci.1, .bright⟩) l }
  { sc with column := text.length }

/-- A part notice shown on a position (R103). -/
def notice (p : Pos) (text : List Byte) (s : State) : State := s.updScreen p (Screen.partNotice text)

/-- A part notice shown on every position. -/
def noticeAll (text : List Byte) (s : State) : State := { s with screens := mapV s.screens (Screen.partNotice text) }

/-! ## Prompts -/

/-- A printer's prompt record on a position's screen set, which marks row 0 (R93). -/
def Screen.setPrompt (n : Prn) (pr : Prompt) (sc : Screen) : Screen := { sc with prompts := wr sc.prompts n (some pr) }.mark 0

/-- A printer's prompt record on a screen that holds one emptied, which marks row 0 (R93). -/
def Screen.dropPrompt (n : Prn) (sc : Screen) : Screen :=
  if (rd sc.prompts n).isSome then { sc with prompts := wr sc.prompts n none }.mark 0 else sc

/-- A screen's NO PRINTER mark set or cleared, which marks row 0, also when the mark already stands so (R93). -/
def Screen.markNoPrinter (b : Bool) (sc : Screen) : Screen := { sc with noPrinter := b }.mark 0

/-- The prompt of a printer set on the screen of its head job's owner (R93). -/
def setPrompt (p : Pos) (n : Prn) (pr : Prompt) (s : State) : State := s.updScreen p (Screen.setPrompt n pr)

/-- The prompt of a printer withdrawn from the screen that holds it (R93). -/
def withdrawPrompt (n : Prn) (s : State) : State := { s with screens := mapV s.screens (Screen.dropPrompt n) }

/-- The NO PRINTER mark of a position's screen set or cleared (R93). -/
def setNoPrinter (p : Pos) (b : Bool) (s : State) : State := s.updScreen p (Screen.markNoPrinter b)

/-! ## Field cells -/

/-- The width of a field on the screen: its length, plus one cell for a decimal point (R94). -/
def fieldWidth (f : FieldDesc) : Nat :=
  f.length + (if f.kind = .numeric ∧ 0 < f.decimals then 1 else 0)

/-- A NUMERIC value as it shows: padded with zeros to decimals + 1 digits, a point before the last decimals digits,
right-aligned; an empty value shows as blanks (R96). -/
def numericShown (width decimals : Nat) (v : List Byte) : List Byte :=
  if v.isEmpty then List.replicate width 0x20
  else
    let ds := List.replicate (decimals + 1 - v.length) 0x30 ++ v
    padLeft width (if decimals = 0 then ds
      else ds.take (ds.length - decimals) ++ [0x2E] ++ ds.drop (ds.length - decimals))

/-- The characters a field's cells take from its value (R96). -/
def fieldShown (f : FieldDesc) (v : List Byte) : List Byte :=
  match f.kind with
  | .text => padRight (fieldWidth f) v
  | .numeric => numericShown (fieldWidth f) f.decimals v

/-- A cell of rows 1 to 15 changed. -/
def Screen.updCell (row col : Nat) (f : Cell → Cell) (sc : Screen) : Screen :=
  if row = 0 then sc else { sc with area := updN sc.area (row - 1) fun r => updN r col f }

/-- A field's cells written from its value; the field's row is marked dirty. The characters change, the attributes and
protected flags do not (R96; assumption 10). -/
def Screen.writeField (f : FieldDesc) (v : List Byte) (sc : Screen) : Screen :=
  (((fieldShown f v).zipIdx).foldl (fun sc ci => sc.updCell f.row (f.col + ci.2) fun c => { c with ch := printable ci.1 })
    sc).mark f.row

/-- A field's cells take the field's attribute, and lose their protected flags when the field is not protected (R96). -/
def Screen.dressField (f : FieldDesc) (sc : Screen) : Screen :=
  (List.range (fieldWidth f)).foldl
    (fun sc i => sc.updCell f.row (f.col + i) fun c => { c with attr := f.attr, prot := c.prot && f.prot }) sc

/-- A form-area row as its Form Text entry gives it, every cell protected (R96). DESIGN CHOICE (assumption 48): the blank
cells past the end of a text shorter than 80 take the entry's attribute too. -/
def textRow (t : Option FormText) : Vector Cell 80 :=
  tabV fun c =>
    match t with
    | none => ⟨0x20, .normal, true⟩
    | some t => ⟨printable (t.text.getD c.val 0x20), t.attr, true⟩

/-! ## Showing forms -/

/-- The value a field takes when its form is shown: the preset, with blanks to its length for TEXT (R111). -/
def presetValue (f : FieldDesc) : List Byte :=
  match f.kind with
  | .text => padRight f.length f.preset
  | .numeric => f.preset

/-- The first unprotected field of a form in field order (R96, R111). -/
def firstUnprotected (fs : List FieldDesc) : Option Nat := fs.findIdx? fun f => !f.prot

/-- A form shown on a position (R96). -/
def showForm (p : Pos) (n : Fin 32) (d : FormDesc) (s : State) : State :=
  let first := firstUnprotected d.fields
  let s := s.updKeys p fun k =>
    { k with values := d.fields.map presetValue, cursorField := first, textPos := 0 }
  s.updScreen p fun sc =>
    let sc := { sc with area := tabV fun r => textRow ((rdN s.tables.texts (n.val * 16 + r.val + 1)).join) }
    let sc := d.fields.foldl (fun sc f => sc.dressField f) sc
    let sc := d.fields.foldl (fun sc f => sc.writeField f (presetValue f)) sc
    let sc := { sc with form := some n, cursor := first.bind fun i => d.fields[i]?.map fun f : FieldDesc => (f.row, f.col) }
    sc.markArea

/-- The form area of a position cleared, with the current form, the cursor and the editor context (R99, R111). -/
def clearArea (p : Pos) (s : State) : State :=
  let s := s.updKeys p fun k => { k with values := [], cursorField := none, textPos := 0 }
  s.updScreen p fun sc =>
    { sc with area := Vector.replicate 15 (Vector.replicate 80 Cell.blank), form := none, cursor := none }.markArea

/-- A showing by the part: the form when it is defined, else the form area cleared (R99). -/
def showByPart (p : Pos) (f : Option (Fin 32)) (s : State) : State :=
  match f with
  | some n =>
    match formDesc s n with
    | some d => showForm p n d s
    | none => clearArea p s
  | none => clearArea p s

/-! ## Painting -/

/-- The address counter after a character (R100): a cell of rows 1 to 15. -/
def paintNext (dir : PaintDir) (at_ : Nat × Nat) : Nat × Nat :=
  match dir with
  | .across => if at_.2 < 79 then (at_.1, at_.2 + 1) else (if at_.1 < 15 then at_.1 + 1 else 1, 0)
  | .down => (if at_.1 < 15 then at_.1 + 1 else 1, at_.2)

/-- A run of characters written through the address counter with one attribute; protected flags are kept and each row
written is marked dirty (R100). -/
def Screen.paintRun (dir : PaintDir) (a : Attr) : List Byte → Nat × Nat → Screen → Screen
  | [], _, sc => sc
  | b :: bs, at_, sc =>
    Screen.paintRun dir a bs (paintNext dir at_)
      ((sc.updCell at_.1 at_.2 fun c => { c with ch := printable b, attr := a }).mark at_.1)

end Sys2Proof.Machine
end

