-- ==== Sys2Proof/Machine/Positions.lean ====
section
/-! DEFINITION. The Position Manager (Section 5) and the Key and Field Unit's shared operations (Section 7): entries in
doubt, sign-off, balancing groups, the editor's cursor and field values, and the take of a token. -/

namespace Sys2Proof.Machine

/-! ## Entries in doubt and sign-off -/

/-- A position leaves AWAITING for a new state with its outstanding entry in doubt: the number replaces any in-doubt
entry, the entry timer stops, the status row is updated (R84). -/
def makeInDoubt (p : Pos) (st : PState) (s : State) : State :=
  let s := s.updPos p fun r => { r with state := st, inDoubt := r.outstanding.orElse fun _ => r.inDoubt, outstanding := none }
  let s := s.updKeys p fun k => { k with timer := none }
  markRow0 p s

/-- The release of a position: AWAITING becomes READY with the entry in doubt; any other state is left (R84, R97). -/
def release (p : Pos) (s : State) : State :=
  if (rd s.posns p).state = .awaiting then makeInDoubt p .ready s else s

/-- A position signed off (R86): an outstanding entry becomes in doubt, teller id and balance context go, the key queue
and editor context are emptied, form 0 is shown. -/
def signOffPos (p : Pos) (s : State) : State :=
  let s := if (rd s.posns p).state = .awaiting then makeInDoubt p .signedOff s else s
  let s := s.updPos p fun r => { r with state := .signedOff, teller := none }
  let s := s.updDrawer p fun d => { d with ctx := none }
  let s := s.updKeys p fun _ => KeyUnit.initial
  let s := showByPart p (some 0) s
  markRow0 p s

/-! ## Balancing groups -/

/-- Whether a position leads a group: position 0 always, another by its Positions entry (R27, R76). -/
def isLeader (t : Vector (Option PositionEntry) 16) (p : Pos) : Bool :=
  p == 0 || (rd t p).any fun e => e.role == .leader

/-- The leader of a position's group: the nearest leader at or below its number (R27). -/
def leaderOf (t : Vector (Option PositionEntry) 16) (p : Pos) : Pos :=
  (allPos.filter fun q => q ≤ p && isLeader t q).foldl (fun _ q => q) 0

/-- The positions of the group a position belongs to, in ascending order (R27). -/
def groupOf (t : Vector (Option PositionEntry) 16) (p : Pos) : List Pos :=
  allPos.filter fun q => leaderOf t q == leaderOf t p

/-! ## The editor -/

/-- The cell of the cursor: a TEXT field's first cell plus the text position, a NUMERIC field's last cell (R111). -/
def cursorCell (f : FieldDesc) (textPos : Nat) : Nat × Nat :=
  match f.kind with
  | .text => (f.row, f.col + textPos)
  | .numeric => (f.row, f.col + fieldWidth f - 1)

/-- The cursor moved to a field at a text position; a change is handed to the Screen Engine, which records the cell
and marks its row (R96, R111). -/
def setCursor (p : Pos) (i textPos : Nat) (s : State) : State :=
  let k := rd s.keys p
  if k.cursorField = some i ∧ k.textPos = textPos then s
  else
    match (currentFields s p)[i]? with
    | none => s
    | some f =>
      let s := s.updKeys p fun k => { k with cursorField := some i, textPos := textPos }
      let cell := cursorCell f textPos
      s.updScreen p fun sc => { sc with cursor := some cell }.mark cell.1

/-- The cursor moved to the first unprotected field at text position 0, when the form has one. -/
def cursorToFirst (p : Pos) (s : State) : State :=
  match firstUnprotected (currentFields s p) with
  | some i => setCursor p i 0 s
  | none => s

/-- A field value changed and its cells rewritten (R111). DESIGN CHOICE (assumption 55): also when the value is what the
field already holds. -/
def setValue (p : Pos) (i : Nat) (v : List Byte) (s : State) : State :=
  match (currentFields s p)[i]? with
  | none => s
  | some f =>
    let s := s.updKeys p fun k => { k with values := k.values.set i v }
    s.updScreen p (Screen.writeField f v)

/-- The value of a field of the current form. -/
def fieldValue (s : State) (p : Pos) (i : Nat) : List Byte := (rd s.keys p).values.getD i []

/-- Whether a field is filled: TEXT by a character other than 0x20, NUMERIC by a digit (R111). -/
def isFilled (f : FieldDesc) (v : List Byte) : Bool :=
  match f.kind with
  | .text => v.any fun b => b != 0x20
  | .numeric => !v.isEmpty

/-- The unprotected fields of a form, in field order. -/
def unprotected (fs : List FieldDesc) : List Nat := (List.range fs.length).filter fun i => fs[i]?.any fun f => !f.prot

/-- The next unprotected field after a field, wrapping from the last to the first (R112). -/
def nextField (fs : List FieldDesc) (i : Nat) : Nat :=
  let u := unprotected fs
  ((u.find? fun j => i < j).orElse fun _ => u.head?).getD i

/-- The previous unprotected field before a field, wrapping from the first to the last (R112). -/
def prevField (fs : List FieldDesc) (i : Nat) : Nat :=
  let u := unprotected fs
  ((u.reverse.find? fun j => j < i).orElse fun _ => u.getLast?).getD i

/-- A field back to its preset (R115). -/
def resetField (p : Pos) (fs : List FieldDesc) (s : State) (i : Nat) : State :=
  match fs[i]? with
  | some f => setValue p i (presetValue f) s
  | none => s

/-- Every field back to its preset and the cursor on the first unprotected field; Form Text rows are not rewritten (R115). -/
def clearForm (p : Pos) (s : State) : State :=
  let fs := currentFields s p
  cursorToFirst p ((List.range fs.length).foldl (resetField p fs) s)

/-- What the editor does with tokens of a position now (R110). -/
inductive TakeMode where
  | waits      -- takes none
  | takes      -- takes every token
  | signOnOnly -- takes every token, only the editing tokens and TRANSMIT act
  | discards   -- takes every token and discards it with a TONE
deriving DecidableEq, Repr

/-- The table of R110. -/
def takeMode (s : State) (p : Pos) : TakeMode :=
  match (rd s.posns p).state with
  | .ready => .takes
  | .awaiting => .waits
  | .balancing => if (rd s.screens p).form = some 1 then .takes else .waits
  | .signedOff => if (rd s.screens p).form = some 0 then .signOnOnly else .discards

/-- The tokens that act on the sign-on form of a SIGNED_OFF position (R110). -/
def actsAtSignOn : Token → Bool
  | .character _ => true
  | .fieldNext => true
  | .fieldBack => true
  | .backspace => true
  | .eraseField => true
  | .clear => true
  | .transmit => true
  | _ => false

/-- The editor takes the token at the head of a position's queue when it is the one wanted and the position lets the
editor take (R110). A take of another token, of none, or while tokens wait, is no event of the editor. -/
def takeToken (p : Pos) (want : Token → Bool) (act : Token → State → State) (s : State) : State :=
  match (rd s.keys p).queue with
  | [] => s
  | t :: rest =>
    if want t then
      let popped := s.updKeys p fun k => { k with queue := rest }
      match takeMode s p with
      | .waits => s
      | .takes => act t popped
      | .signOnOnly => if actsAtSignOn t then act t popped else tone p popped
      | .discards => tone p popped
    else s

end Sys2Proof.Machine
end

