-- ==== Sys2Proof/Machine/Drawers.lean ====
section
/-! DEFINITION. The Drawer Store (Section 2): captures, balance contexts, group balances, declarations, abandonments. -/

namespace Sys2Proof.Machine

/-! ## Captures and balances -/

/-- The new capture number: one more, or 255 if it is already 255 (R23). -/
def nextCapture (d : Drawer) : Nat := if d.captureNo < 255 then d.captureNo + 1 else 255

/-- A capture of one drawer (R23): the CAPTURE entry, the capture number, the markers cleared, CAPTURE_TAKEN. -/
def captureOne (kind : BalKind) (leader : Option Pos) (p : Pos) (s : State) : State :=
  let d := rd s.drawers p
  let n := nextCapture d
  let s := append (.capture ⟨p, kind, n, leader, d.lines⟩) s
  let s := s.updDrawer p fun d => { d with captureNo := n, lines := mapV d.lines DLine.clearMark }
  report p (.captureTaken p kind n s.clock.time d.lines) s

/-- A capture begins a balance (R24): the context is made, the position moves to BALANCING with an outstanding entry in
doubt, and form 1 is shown. -/
def beginBalance (kind : BalKind) (leader : Option Pos) (p : Pos) (s : State) : State :=
  let s := s.updDrawer p fun d => { d with ctx := some ⟨kind, d.captureNo, leader, (rd s.screens p).form⟩ }
  let s := if (rd s.posns p).state = .awaiting then makeInDoubt p .balancing s
    else s.updPos p fun r => { r with state := .balancing }
  markRow0 p (showByPart p (some 1) s)

/-- The event of a single balance that is taken (R25, R26). -/
def singleBalance (kind : BalKind) (p : Pos) (s : State) : State :=
  beginBalance kind none p (captureOne kind none p (placeMidnight .control s))

/-- A teller's BALANCE or SIGN OFF key (R25). -/
def balanceKey (kind : BalKind) (p : Pos) (s : State) : State :=
  if ¬((rd s.posns p).state = .ready ∧ (s.day.state = .opened ∨ s.day.state = .cutoff) ∧ s.clock.isSet) then tone p s
  else
    match refusal .control 4 s with
    | some st => notice p st.name (tone p s)
    | none => singleBalance kind p s

/-! ## Group balances -/

/-- The second GROUP MARK, the record's removal and GROUP_COMPLETE (R29). -/
def completeGroup (l : Pos) (g : GroupRec) (s : State) : State :=
  let s := append (.groupEnd l g.kind g.abandoned) s
  let s := { s with groups := wr s.groups l none }
  report l (.groupComplete l g.kind (groupOf s.tables.positions l) g.abandoned) s

/-- Whether the end of a position's balance empties its group's pending set (R29). -/
def emptiesGroup (p : Pos) (leader : Option Pos) (s : State) : Bool :=
  leader.any fun l => (rd s.groups l).any fun g => g.pending.contains p && (g.pending.filter fun q => q != p).isEmpty

/-- A position leaves the pending set of its group when its balance ends; an emptied set completes the group (R29, R35). -/
def leaveGroup (p : Pos) (leader : Option Pos) (abandoned : Bool) (s : State) : State :=
  match leader with
  | none => s
  | some l =>
    match rd s.groups l with
    | none => s
    | some g =>
      let h : GroupRec := { g with pending := g.pending.filter fun q => q != p,
                                   abandoned := if abandoned then g.abandoned ++ [p] else g.abandoned }
      if emptiesGroup p leader s then completeGroup l h s else { s with groups := wr s.groups l (some h) }

/-- Slots the event of a group balance needs, apart from a pending MIDNIGHT (R28). -/
def groupSlots (s : State) (l : Pos) : Nat :=
  let g := groupOf s.tables.positions l
  1 + 4 * g.length + (if g.all fun q => (rd s.posns q).state == .signedOff then 1 else 0)

/-- The checks of a group balance request from step 4 on, but step 5 (R28). -/
def groupRefusal (s : State) (l : Pos) : Option Status :=
  if isLeader s.tables.positions l = false then some .notLeader
  else if (groupOf s.tables.positions l).any fun q => (rd s.posns q).state == .balancing then some .memberBalancing
  else refusal .control (groupSlots s l) s

/-- The event of a group balance that is taken (R28). -/
def groupBalanceEvent (kind : BalKind) (l : Pos) (s : State) : State :=
  let g := groupOf s.tables.positions l
  let off := g.filter fun q => (rd s.posns q).state == .signedOff
  let on := g.filter fun q => (rd s.posns q).state != .signedOff
  let s := placeMidnight .control s
  let s := append (.groupBegin l kind g off) s
  let s := g.foldl (fun s q => captureOne kind (some l) q s) s
  let s := on.foldl (fun s q => beginBalance kind (some l) q s) s
  let r : GroupRec := ⟨kind, on, []⟩
  if on.isEmpty then completeGroup l r s else { s with groups := wr s.groups l (some r) }

/-- A leader's GROUP BALANCE or GROUP CLOSE key (R28). -/
def groupKey (kind : BalKind) (p : Pos) (s : State) : State :=
  if ¬((s.day.state = .opened ∨ s.day.state = .cutoff) ∧ s.clock.isSet) ∨ isLeader s.tables.positions p = false ∨
      (rd s.posns p).state ≠ .ready then tone p s
  else
    match groupRefusal s p with
    | some st => notice p st.name (tone p s)
    | none => groupBalanceEvent kind p s

/-! ## Declarations -/

/-- The field of a form that is the count for a currency slot (R30, R94). -/
def countField (d : FormDesc) (c : Fin 8) : Option Nat := d.fields.findIdx? fun f => f.role == .count c.val

/-- The over/short value of a difference: itself in slot 0, the signed conversion at R_b in a foreign slot (R32). -/
def overShortValue (s : State) (c : Fin 8) (cur : CurrencyEntry) (d : Int) : Int :=
  if c = 0 then d
  else
    let v : Int := convert d.natAbs (rateFor s .cashIn c) (localExponent s) cur.exponent
    if d < 0 then -v else v

/-- One slot's part of a declaration, or the status its first failing check gives (R30). -/
def declareSlot (s : State) (p : Pos) (kind : BalKind) (c : Fin 8) (cur : CurrencyEntry) (count : Nat) : Except Status DeclSlot :=
  let live := (rd (rd s.drawers p).lines (cashLine c)).amount
  let d : Int := count - live
  if Config.maxAmount < count then .error .amountRange
  else if count % cur.unit ≠ 0 then .error .notCashable
  else if kind = .interim ∨ d = 0 then .ok ⟨c, count, live, d, none, 0⟩
  else if live % (cur.unit : Int) ≠ 0 then .error .notCashable
  else if Config.maxAmount < d.natAbs then .error .amountRange
  else if ratesSet s .cashIn c = false then .error .rateUnset
  else
    let v := overShortValue s c cur d
    if c ≠ 0 ∧ Config.maxAmount < v.natAbs then .error .amountRange
    else .ok ⟨c, count, live, d, some (-v), if c = 0 then 0 else rd s.tables.serials c⟩

/-- The slots of a declaration in ascending order; the first failing slot refuses it, with the field its cursor goes to
(R30). A slot takes part when its currency is defined and the form has a count field for it. -/
def declareSlots (s : State) (p : Pos) (kind : BalKind) (d : FormDesc) : List (Fin 8) → Except (Status × Nat) (List DeclSlot)
  | [] => .ok []
  | c :: cs =>
    match rd s.tables.currencies c, countField d c with
    | some cur, some i =>
      match declareSlot s p kind c cur (digitsValue (fieldValue s p i)) with
      | .error st => .error (st, i)
      | .ok x =>
        match declareSlots s p kind d cs with
        | .error e => .error e
        | .ok xs => .ok (x :: xs)
    | _, _ => declareSlots s p kind d cs

/-- The legs of a declaration, slot by slot: the cash line and the over/short line (R32). -/
def declLegs (r : DeclRec) : List Leg :=
  r.slots.flatMap fun x =>
    match x.overShort with
    | some v => [⟨r.pos, cashLine x.slot, x.diff⟩, ⟨r.pos, 15, v⟩]
    | none => []

/-- A refused declaration: the cursor to the slot's field when there is one, a TONE, the status as a notice (R30). -/
def refuseDeclaration (p : Pos) (st : Status) (field : Option Nat) (s : State) : State :=
  let s := match field with
    | some i => setCursor p i 0 s
    | none => s
  notice p st.name (tone p s)

/-- A declaration that passed its checks (R31, R32). -/
def takeDeclaration (p : Pos) (ctx : BalCtx) (r : DeclRec) (s : State) : State :=
  let s := placeMidnight .control s
  let s := append (.declaration r) s
  let s := applyLegs (declLegs r) s
  let s := match r.kind with
    | .interim =>
      let s := s.updDrawer p fun d => { d with ctx := none }
      let s := s.updPos p fun x => { x with state := .ready }
      markRow0 p (showByPart p ctx.returnForm s)
    | .final => signOffPos p s
  let s := leaveGroup p ctx.leader false s
  report p (.declaration r) s

/-- The declaration a TRANSMIT of form 1 makes on a BALANCING position (R30). -/
def declare (p : Pos) (d : FormDesc) (s : State) : State :=
  match (rd s.drawers p).ctx with
  | none => s
  | some ctx =>
    match declareSlots s p ctx.kind d (List.finRange 8) with
    | .error (st, i) => refuseDeclaration p st (some i) s
    | .ok xs =>
      match refusal .control (4 + if emptiesGroup p ctx.leader s then 1 else 0) s with
      | some st => refuseDeclaration p st none s
      | none => takeDeclaration p ctx ⟨p, ctx.kind, ctx.number, xs⟩ s

/-! ## Abandonment -/

/-- A balance abandoned by FORCE SIGN OFF, once its room is found (R35). -/
def abandonBalance (p : Pos) (ctx : BalCtx) (s : State) : State :=
  let s := placeMidnight .control s
  let s := append (.abandoned p ctx.kind ctx.number .forceSignOff) s
  leaveGroup p ctx.leader true (signOffPos p s)

/-- The BALANCE ABANDONED entries FORCE CLOSE asks for, one for each position with a balance (R36, R69). -/
def abandonEntries (s : State) : List EntryBody :=
  allPos.filterMap fun p => (rd s.drawers p).ctx.map fun c => .abandoned p c.kind c.number .forceClose

end Sys2Proof.Machine
end

