-- ==== Sys2Proof/Machine/Passbook.lean ====
section
/-! DEFINITION. The Passbook Store (Section 8) and the shared operations of the Printer Controllers (Section 9): the
line store, print jobs and their queues, book layouts and rendering, waiting for a book, ejects, faults, cancellation. -/

namespace Sys2Proof.Machine

/-! ## The line store -/

/-- The account record of an account, if the store has one (R124). -/
def findAccount (a : Account) (s : State) : Option AccountRec := s.store.find? fun r => r.account == a

/-- Whether the job mark of an account is set (R124). -/
def jobMarked (a : Account) (s : State) : Bool := (findAccount a s).any (·.jobMark)

/-- The line list of an account, oldest first (R124). -/
def accountLines (a : Account) (s : State) : List PLine := (findAccount a s).elim [] (·.lines)

/-- All lines of the store. -/
def storedLines (s : State) : Nat := (s.store.map fun r => r.lines.length).sum

/-- An account record changed. -/
def updAccount (a : Account) (f : AccountRec → AccountRec) (s : State) : State :=
  { s with store := s.store.map fun r => if r.account == a then f r else r }

/-- Account records with an empty list and a clear job mark removed (R124). -/
def dropEmpty (s : State) : State := { s with store := s.store.filter fun r => r.jobMark || !r.lines.isEmpty }

/-- Whether the store keeps a line offered for an account (R125). -/
def storeKeeps (a : Account) (s : State) : Bool :=
  match findAccount a s with
  | some r => r.lines.length < Config.accountLines && storedLines s < Config.storeLines
  | none => storedLines s < Config.storeLines && s.store.length < Config.storeAccounts

/-- A line appended to its account's list; the record takes the line's book type, if it carries one (R124, R125). -/
def addLine (a : Account) (bookType : Option Nat) (l : PLine) (s : State) : State :=
  match findAccount a s with
  | some _ => updAccount a (fun r => { r with lines := r.lines ++ [l], bookType := bookType.orElse fun _ => r.bookType }) s
  | none => { s with store := s.store ++ [⟨a, bookType, [l], false⟩] }

/-- A line offered to the store by a posting or BOOK LINES: kept and its entry STORED, or not kept and its entry
OVERFLOW (R125). DESIGN CHOICE (assumption 50): a line that is not kept leaves the account's book type as it was. -/
def offerLine (a : Account) (bookType : Option Nat) (l : PLine) (s : State) : State :=
  if storeKeeps a s then changePrint l.source .stored (addLine a bookType l s) else changePrint l.source .overflow s

/-! ## Prompts and waiting for a book -/

/-- A printer's record while it is EMPTY: timer stopped, no eject owner and no reason. DESIGN CHOICE (assumption 51): the
reason is absent outside WRITING_STRIPE and an eject for a job, and the owner none outside EJECTING. -/
def Printer.toEmpty (r : Printer) : Printer := { r with state := .empty, timer := none, ejectJob := false, reason := none }

/-- A printer enters WAIT_BOOK for its head job with a prompt on the owner's screen (R139). DESIGN CHOICE (assumption 51):
no eject owner and no reason are left of the eject before it. -/
def enterWait (n : Prn) (pr : Prompt) (s : State) : State :=
  match rd s.queues n with
  | [] => s
  | j :: _ =>
    let s := s.updPrinter n fun r =>
      { r with state := .waitBook, timer := Timer.start s.tables.params.bookWait, ejectJob := false, reason := none }
    setPrompt j.owner n pr s

/-- A printer that is EMPTY with a head job starts to wait for its book (R139). -/
def startWaiting (n : Prn) (s : State) : State :=
  if (rd s.printers n).state = .empty then enterWait n .insertBook s else s

/-! ## Jobs -/

/-- Whether a printer takes another job: not OFFLINE and fewer than 8 in its queue (R129, R131). -/
def takesJob (s : State) (n : Prn) : Bool := (rd s.printers n).state != .offline && (rd s.queues n).length < Config.queueMax

/-- A number as a printer, when it is 0 to 3. -/
def prnOf (n : Nat) : Option Prn := if h : n < 4 then some ⟨n, h⟩ else none

/-- A job placed at the tail of a printer's queue (R128): the job mark set, the owner's NO PRINTER mark cleared; a job
that becomes the head starts with a fresh job record, and an EMPTY printer starts to wait (R137, R139). -/
def placeJob (n : Prn) (j : Job) (s : State) : State :=
  let wasEmpty := (rd s.queues n).isEmpty
  let s := s.updQueue n fun q => q ++ [j]
  let s := updAccount j.account (fun r => { r with jobMark := true }) s
  let s := setNoPrinter j.owner false s
  if wasEmpty then startWaiting n (s.updPrinter n fun r => { r with job := JobRec.initial }) else s

/-- An attempt to create a job for an account with an owner, while the day is OPEN or CUTOFF: on the home printer, else
the alternate, else the owner's NO PRINTER mark is set (R129). -/
def attemptJob (owner : Pos) (a : Account) (s : State) : State :=
  if s.day.state = .opened ∨ s.day.state = .cutoff then
    let e := positionEntry s owner
    let home := (e.bind fun e => prnOf e.home).filter (takesJob s)
    let alt := (e.bind fun e => e.alternate.bind prnOf).filter (takesJob s)
    match home.orElse fun _ => alt with
    | some n => placeJob n ⟨a, owner⟩ s
    | none => setNoPrinter owner true s
  else s

/-- What follows a line kept for an account: an attempt to create a job when it has none (R125, R129). -/
def jobForKept (owner : Pos) (a : Account) (s : State) : State := if jobMarked a s then s else attemptJob owner a s

/-- The job mark of an account cleared; its record goes when its list is empty (R124, R128). -/
def clearJobMark (a : Account) (s : State) : State := dropEmpty (updAccount a (fun r => { r with jobMark := false }) s)

/-- The head job of a printer removed, with its job record reset (R128, R137). -/
def removeHead (n : Prn) (s : State) : State :=
  match rd s.queues n with
  | [] => s
  | j :: rest =>
    let s := s.updQueue n fun _ => rest
    let s := s.updPrinter n fun r => { r with job := JobRec.initial }
    clearJobMark j.account s

/-- What a PRINT_RESULT tells of a job record (R145). -/
def JobRec.life (j : JobRec) : JobLife := ⟨j.printed, j.lastStripe, j.attempts, j.mismatch, j.stripeFailed, j.faultDuringLine⟩

/-- What a printer status query tells of a job record (R149). -/
def JobRec.view (j : JobRec) : JobView := ⟨j.attempts, j.printed, j.mismatch, j.stripeFailed, j.faultDuringLine⟩

/-- A PRINT_RESULT raised for the head job (R145). -/
def printResult (n : Prn) (why : PrintReason) (s : State) : State :=
  match rd s.queues n with
  | [] => s
  | j :: _ => report j.owner (.printResult n j.account j.owner why (rd s.printers n).job.life) s

/-- The head job removed by its controller: PRINT_RESULT and the removal, in one event (R145). -/
def endJob (n : Prn) (why : PrintReason) (s : State) : State := removeHead n (printResult n why s)

/-! ## The printer machine -/

/-- Whether a printer holds a book for a job (R137). -/
def Printer.holds (r : Printer) : Bool :=
  match r.state with
  | .reading => true
  | .held => true
  | .printing => true
  | .writingStripe => true
  | .ejecting => r.ejectJob
  | _ => false

/-- EJECT sent and the state EJECTING with its timer, for the head job with a reason or for none (R140, R143, R148). -/
def eject (n : Prn) (forJob : Bool) (why : Option Reason) (s : State) : State :=
  let s := command n .eject s
  s.updPrinter n fun r =>
    { r with state := .ejecting, timer := Timer.start Config.ejectTime, ejectJob := forJob, reason := why }

/-- WRITE STRIPE sent with the next position and the state WRITING_STRIPE with a reason (R141, R142). -/
def writeStripe (n : Prn) (why : Reason) (s : State) : State :=
  let r := rd s.printers n
  let s := command n (.writeStripe r.nextPage r.nextLine) s
  s.updPrinter n fun r => { r with state := .writingStripe, timer := Timer.start Config.stripeWriteTime, reason := some why }

/-- HOME sent and the state HOMING with the home timer (R138). -/
def homePrinter (n : Prn) (s : State) : State :=
  let s := command n .home s
  s.updPrinter n fun r => { r with state := .homing, timer := Timer.start Config.homeTime, ejectJob := false, reason := none }

/-- The end of an insertion or of a wait: the printer EMPTY, then waiting for the next head job (R139, R144). -/
def becomeEmpty (n : Prn) (s : State) : State := startWaiting n (s.updPrinter n Printer.toEmpty)

/-- What a Printer Controller does when the Passbook Store removes its head job (R148). -/
def headTaken (n : Prn) (s : State) : State :=
  match (rd s.printers n).state with
  | .offline => s
  | .homing => s
  | .empty => s
  | .waitBook => (withdrawPrompt n s).updPrinter n Printer.toEmpty
  | .reading => eject n false none s
  | .held => eject n false none s
  | .printing => eject n false none s
  | .writingStripe => eject n false none s
  | .ejecting => s.updPrinter n fun r => { r with ejectJob := false, reason := none }

/-- Every job in every queue removed: job marks cleared, each controller told of its head job's removal, no report
(R132, R148). -/
def removeAllJobs (s : State) : State :=
  let s := eachPrn (fun n s =>
    if (rd s.queues n).isEmpty then s
    else (headTaken n s).updPrinter n fun r => { r with job := JobRec.initial }) s
  let s := { s with queues := Vector.replicate 4 [], store := s.store.map fun r => { r with jobMark := false } }
  dropEmpty s

/-- One job of a faulted queue moved to its owner's alternate printer, or dropped with NO PRINTER set (R131). -/
def moveJob (faulted : Prn) (s : State) (j : Job) : State :=
  match ((positionEntry s j.owner).bind fun e => e.alternate.bind prnOf).filter fun n => n != faulted && takesJob s n with
  | some n => placeJob n j s
  | none => setNoPrinter j.owner true (clearJobMark j.account s)

/-- The rest of a faulted printer's queue moved or dropped, in queue order (R131). -/
def moveQueue (n : Prn) (s : State) : State := (rd s.queues n).foldl (moveJob n) (s.updQueue n fun _ => [])

/-- A printer going OFFLINE by a fault (R147). -/
def faultPrinter (n : Prn) (cause : OfflineCause) (s : State) : State :=
  let r := rd s.printers n
  let s := withdrawPrompt n s
  let s :=
    if r.holds then
      let s := if r.state = .printing then s.updPrinter n fun r => { r with job := { r.job with faultDuringLine := true } } else s
      endJob n .fault s
    else s
  let s := s.updPrinter n fun r =>
    { r with state := .offline, timer := none, ejectJob := false, reason := none, job := JobRec.initial }
  let s := moveQueue n s
  report Config.wholePart (.printerState n .offline (some cause) (rd s.queues n).length) s

/-! ## Cancellation -/

/-- CANCEL BOOK of a head job that its printer has begun, by the printer's state (R146). -/
def cancelHead (n : Prn) (s : State) : State :=
  match (rd s.printers n).state with
  | .waitBook => becomeEmpty n (endJob n (.ended .cancelled) (withdrawPrompt n s))
  | .reading => eject n true (some .cancelled) s
  | .held => s.updPrinter n fun r => { r with job := { r.job with cancelPending := true } }
  | .printing => s.updPrinter n fun r => { r with job := { r.job with cancelPending := true } }
  | _ => s.updPrinter n fun r =>
    { r with reason := r.reason.map fun w =>
        if w = .turnPage ∨ w = .wrongBook ∨ w = .unreadable then .cancelled else w }

/-- Whether a printer has begun its head job, so that CANCEL BOOK of it is passed to the controller (R130, R146). -/
def Printer.begun (r : Printer) : Bool := r.state == .waitBook || r.holds

/-- CANCEL BOOK of a job a printer has not begun: removed at once, without a report (R130). -/
def cancelQueued (n : Prn) (a : Account) (s : State) : State :=
  let wasHead := (rd s.queues n).head?.any fun j => j.account == a
  let s := s.updQueue n fun q => q.filter fun j => j.account != a
  let s := clearJobMark a s
  if wasHead then startWaiting n (s.updPrinter n fun r => { r with job := JobRec.initial }) else s

/-- The printer whose queue holds a position's job for an account. -/
def jobPrinter (a : Account) (owner : Pos) (s : State) : Option Prn :=
  allPrn.find? fun n => (rd s.queues n).any fun j => j.account == a && j.owner == owner

/-! ## Layouts and rendering -/

/-- The layout of a book type; an empty entry is read as 0 pages and 1 line per page (R133). -/
def layoutOf (s : State) (t : Fin 4) : Layout := (rd s.tables.layouts t).getD ⟨1, 0, 0, 0, 0, 0, 0, 0, 0, 0⟩

/-- A figure: the magnitude with its decimal point, then "-" or a blank (R134). -/
def figure (v : Int) (e : Nat) : List Byte :=
  let ds := decimal (e + 1) v.natAbs
  (if e = 0 then ds else ds.take (ds.length - e) ++ [0x2E] ++ ds.drop (ds.length - e)) ++ [if v < 0 then 0x2D else 0x20]

/-- A figure right-aligned in a width; one longer than the width fills it with asterisks (R134). -/
def figureIn (width : Nat) (v : Int) (e : Nat) : List Byte :=
  let f := figure v e
  if width < f.length then List.replicate width 0x2A else padLeft width f

/-- A text written into a print line from a column. -/
def writeAt (col : Nat) (bs : List Byte) (line : List Byte) : List Byte :=
  (bs.zipIdx).foldl (fun l ci => l.set (col + ci.2) ci.1) line

/-- The print line of 80 columns a passbook line is rendered into (R134). -/
def renderLine (y : Layout) (l : PLine) : List Byte :=
  let r := List.replicate 80 0x20
  let r := writeAt y.dateCol (decimal 8 l.date) r
  let r := writeAt y.nameCol l.name r
  let r := writeAt y.amountCol (figureIn y.amountWidth l.amount l.exponent) r
  let r := match l.balance with
    | some b => writeAt y.balanceCol (figureIn y.balanceWidth b l.exponent) r
    | none => r
  writeAt y.markCol [if l.standIn then 0x53 else 0x20] r

/-- PRINT LINE sent for the head line of the head job's account, and the state PRINTING (R141, R142). -/
def startLine (n : Prn) (l : PLine) (s : State) : State :=
  let r := rd s.printers n
  let y := layoutOf s r.layoutType
  let s := command n (.printLine r.nextLine y.fold (renderLine y l)) s
  s.updPrinter n fun r => { r with state := .printing, timer := Timer.start Config.linePrintTime }

/-- The head line of an account removed as printed: its entry becomes PRINTED (R127). -/
def linePrinted (a : Account) (s : State) : State :=
  match accountLines a s with
  | [] => s
  | l :: _ => dropEmpty (updAccount a (fun r => { r with lines := r.lines.tail }) (changePrint l.source .printed s))

/-- The next position advanced by a line (R142). -/
def Printer.advance (perPage : Nat) (r : Printer) : Printer :=
  if perPage < r.nextLine + 1 then { r with nextPage := r.nextPage + 1, nextLine := 1 } else { r with nextLine := r.nextLine + 1 }

end Sys2Proof.Machine
end

