-- ==== Sys2Proof/Machine/Transfer.lean ====
section
/-! DEFINITION. The Transfer Engine (Section 11): batches, packing of blocks, the window, the ack timer, completion,
resumption and abandonment. -/

namespace Sys2Proof.Machine

/-- Whether a batch of a kind carries an entry (R161). -/
def carries (k : BatchKind) (e : Entry) : Bool :=
  match k, e.body with
  | .day, _ => true
  | .forward, .posting r => r.origin == .standIn && e.fwd == .pending
  | .forward, _ => false

/-- The entries read from a slot on: nothing at a slot that begins no entry (R52). -/
def readFrom (slot : Nat) (xs : List (Nat × Entry)) : List (Nat × Entry) :=
  match xs.dropWhile fun x => x.1 < slot with
  | [] => []
  | x :: rest => if x.1 = slot then x :: rest else []

/-- The entries a batch still has to carry, from a slot up to its extent end (R161). -/
def carriedFrom (k : BatchKind) (slot extentEnd : Nat) (s : State) : List (Nat × Entry) :=
  (readFrom slot (readable s)).filter fun x => x.1 < extentEnd && carries k x.2

/-- Entries taken in order while their slots do not pass the room left (R162). -/
def takeSlots : Nat → List (Nat × Entry) → List (Nat × Entry)
  | _, [] => []
  | room, x :: xs => if x.2.size ≤ room then x :: takeSlots (room - x.2.size) xs else []

/-- The slots of a list of entries. -/
def slotsOf (xs : List (Nat × Entry)) : Nat := (xs.map fun x => x.2.size).sum

/-- Blocks packed and not acknowledged (R160). -/
def Batch.outstanding (b : Batch) : Nat := b.highest - b.acked

/-- The batch record changed. -/
def updBatch (f : Batch → Batch) (s : State) : State := s.updEngine fun e => { e with batch := e.batch.map f }

/-- The ack timer started afresh (R165). -/
def startAckTimer (s : State) : State := s.updEngine fun e => { e with timer := Timer.start s.tables.params.ackTimer }

/-- The ack timer stopped (R165). -/
def stopAckTimer (s : State) : State := s.updEngine fun e => { e with timer := none }

/-- The entries of an in-flight block: those of its slot range that the batch carries (R162). -/
def flightEntries (k : BatchKind) (f : Flight) (s : State) : List (Nat × Entry) :=
  (readable s).filter fun x => f.first ≤ x.1 && x.1 ≤ f.last && carries k x.2

/-- A BLOCK message built from an in-flight entry: the same header, and the entries of its range selected as at packing
(R162, R181). -/
def blockMessage (b : Batch) (f : Flight) (s : State) : OutMsg :=
  ⟨Config.wholePart, 0, .block ⟨b.kind, b.number, f.number, businessDate s, f.firstSeq, f.entries, f.slots, f.final⟩
    ((flightEntries b.kind f s).map (·.2))⟩

/-- The in-flight entry of the next new block of a batch, when an entry is left to carry (R162). -/
def packBlock (b : Batch) (s : State) : Option Flight :=
  let xs := carriedFrom b.kind b.nextSlot b.extentEnd s
  let ys := takeSlots Config.blockSlots xs
  match ys.head?, ys.getLast? with
  | some x, some y =>
    some { number := b.highest + 1, first := x.1, last := y.1 + y.2.size - 1, firstSeq := x.2.seq, entries := ys.length,
           slots := slotsOf ys, final := ys.length == xs.length }
  | _, _ => none

/-- One BLOCK offered to the outbound queue, if the window and the queue allow one: a resend of the next block to queue,
or a new block (R163). -/
def offerBlock (s : State) : Option State :=
  match s.engine.batch with
  | none => none
  | some b =>
    if s.engine.state ≠ .active ∨ outboundRoom s = false then none
    else if b.nextQueue ≤ b.highest then
      match s.engine.flights.find? fun f => f.number == b.nextQueue with
      | none => none
      | some f => some (updBatch (fun b => { b with nextQueue := b.nextQueue + 1 }) (enqueue (blockMessage b f s) s))
    else if b.nextQueue = b.highest + 1 ∧ b.outstanding < Config.window ∧ b.final = none then
      match packBlock b s with
      | none => none
      | some f =>
        let s := enqueue (blockMessage b f s) s
        let s := s.updEngine fun e => { e with flights := e.flights ++ [f] }
        let s := if b.outstanding = 0 then startAckTimer s else s
        some (updBatch (fun b =>
          { b with nextSlot := f.last + 1, highest := f.number, nextQueue := b.nextQueue + 1,
                   final := if f.final then some f.number else none, carried := b.carried + f.entries }) s)
    else none

/-- BLOCKs offered until none is (R163); each takes a place of the outbound queue, so 28 offers are the most. -/
def offerBlocks : Nat → State → State
  | 0, s => s
  | fuel + 1, s =>
    match offerBlock s with
    | some t => offerBlocks fuel t
    | none => s

/-- BLOCKs offered as R163 gives. -/
def offer (s : State) : State := offerBlocks Config.outboundFull s

/-- The engine IDLE with no batch: timer stopped, in-flight table emptied (R168, R171). -/
def engineIdle (s : State) : State :=
  s.updEngine fun e => { e with state := .idle, batch := none, flights := [], timer := none }

/-- The batch record a new batch starts with (R161). -/
def newBatch (k : BatchKind) (s : State) : Batch :=
  { kind := k, number := if s.engine.lastBatch = 255 then 1 else s.engine.lastBatch + 1, extentEnd := slotsUsed s,
    nextSlot := match k with
      | .forward => 0
      | .day => s.nv.control.fields.delivered
    highest := 0, acked := 0, nextQueue := 1, final := none, retries := 0, carried := 0 }

/-- TRANSFER_COMPLETE for a batch (R168). -/
def reportComplete (b : Batch) (s : State) : State :=
  report Config.wholePart (.transferComplete b.kind b.number b.highest b.carried
    (match b.kind with
    | .forward => none
    | .day => some s.nv.control.fields.delivered)) s

/-- A day batch completes: TRANSFER_COMPLETE, IDLE, and the Day Controller told with the business date (R168). -/
def completeDay (b : Batch) (s : State) : State :=
  let s := engineIdle (reportComplete b s)
  s.updDay fun d => { d with completions := d.completions ++ [businessDate s] }

/-- A batch started (R161). One whose extent holds no entry completes at once; the start of a further batch is not part
of that (R168). -/
def startBatch (k : BatchKind) (s : State) : State :=
  let b := newBatch k s
  let s := s.updEngine fun e =>
    { e with state := if s.line.state = .online then .active else .paused, batch := some b, lastBatch := b.number,
             flights := [], timer := none, dayAwaited := match k with
               | .day => false
               | .forward => e.dayAwaited }
  if (carriedFrom k b.nextSlot b.extentEnd s).isEmpty then
    match k with
    | .day => completeDay b s
    | .forward => engineIdle (reportComplete b s)
  else offer s

/-- Whether a FORWARD batch is to be started: the day OPEN or CUTOFF and the pending count above 0 (R167, R168, R170). -/
def forwardWanted (s : State) : Bool :=
  (s.day.state == .opened || s.day.state == .cutoff) && 0 < s.jc.pendingCount

/-- A forward batch completes, and the next batch starts: the awaited day batch, or a further forward batch (R168). -/
def completeForward (b : Batch) (s : State) : State :=
  let s := engineIdle (reportComplete b s)
  if s.engine.dayAwaited then startBatch .day s
  else if s.line.state = .online ∧ forwardWanted s then startBatch .forward s
  else s

/-- A batch completes at its final acknowledgement (R168). -/
def completeBatch (b : Batch) (s : State) : State :=
  match b.kind with
  | .day => completeDay b s
  | .forward => completeForward b s

/-- What a line return does with an IDLE engine, and the finish of a recovery with the line ONLINE (R167). -/
def startFromIdle (s : State) : State :=
  if s.engine.state = .idle then
    if s.day.state = .closing then startBatch .day s
    else if forwardWanted s then startBatch .forward s
    else s
  else s

/-- Every outstanding block to be sent again from the oldest, with the ack timer started when one is outstanding (R165,
R167, R170). -/
def resendAll (s : State) : State :=
  match s.engine.batch with
  | none => s
  | some b =>
    let s := updBatch (fun b => { b with nextQueue := b.acked + 1 }) s
    let s := if b.outstanding = 0 then s else startAckTimer s
    offer s

/-- A PAUSED batch becomes ACTIVE with its outstanding blocks resent (R167). -/
def resumePaused (s : State) : State :=
  resendAll (updBatch (fun b => { b with retries := 0 }) (s.updEngine fun e => { e with state := .active }))

/-- A FAILED batch resumes under its own number (R170). -/
def resumeFailed (s : State) : State := resumePaused s

/-- One block of a batch acknowledged: its entries FORWARDED or the delivered-through slot advanced, and its in-flight
entry freed (R164). -/
def ackBlock (k : BatchKind) (n : Nat) (s : State) : State :=
  match s.engine.flights.find? fun f => f.number == n with
  | none => s
  | some f =>
    let s : State := match k with
      | .day => setDelivered (f.last + 1) s
      | .forward =>
        (flightEntries .forward f s).foldl (fun s x => changeForward x.2.seq s) s
    s.updEngine fun e => { e with flights := e.flights.filter fun g => g.number != n }

/-- Blocks acknowledged through n, in block order; retries return to 0 and a waiting resend of one is dropped (R164). -/
def ackThrough (b : Batch) (n : Nat) (s : State) : State :=
  let s := (List.range' (b.acked + 1) (n - b.acked)).foldl (fun s i => ackBlock b.kind i s) s
  updBatch (fun b => { b with acked := n, retries := 0, nextQueue := if b.nextQueue ≤ n then n + 1 else b.nextQueue }) s

/-- The batch FAILED with a report; a forward batch that a day batch awaits is then discarded for it (R164, R165, R169). -/
def failBatch (cause : FailCause) (s : State) : State :=
  match s.engine.batch with
  | none => s
  | some b =>
    let s := s.updEngine fun e => { e with state := .failed, timer := none }
    let s := report Config.wholePart (.transferFailed b.kind b.number cause b.acked) s
    if b.kind = .forward ∧ s.engine.dayAwaited then startBatch .day (engineIdle s) else s

/-- An ACCEPT that passed the tests of R164. -/
def acceptAck (b : Batch) (n : Nat) (s : State) : State :=
  let s := ackThrough b n s
  if b.final = some n then completeBatch { b with acked := n } s
  else if s.engine.state = .active then
    offer (if b.highest - n = 0 then stopAckTimer s else startAckTimer s)
  else s

/-- A REFUSE that passed the tests of R164. DESIGN CHOICE (assumption 46): the blocks through n − 1 are acknowledged with
steps 1 and 2 of an ACCEPT, and no block is offered before the batch fails. -/
def refuseAck (b : Batch) (n : Nat) (s : State) : State :=
  let s := if b.acked < n - 1 then ackThrough b (n - 1) s else s
  failBatch (.refused n) s

/-! ## Notices of the line -/

/-- The engine paused by a line loss (R166). -/
def Engine.pause (e : Engine) : Engine := { e with state := .paused, timer := none }

/-- What a line loss does to the engine (R166). -/
def engineLoss (s : State) : State := if s.engine.state = .active then s.updEngine Engine.pause else s

/-- What a line return does to the engine (R167). -/
def engineReturn (s : State) : State :=
  match s.engine.state with
  | .paused => resumePaused s
  | .idle => startFromIdle s
  | .active => s
  | .failed => s

/-- A notice of the line taken by the engine (R166, R167). -/
def takeNotice (n : LineNotice) (s : State) : State :=
  match n with
  | .loss => engineLoss s
  | .back => engineReturn s

/-- Every notice that waits taken by the engine, in the order the Line Interface gave them (R166). -/
def takeNotices (s : State) : State :=
  s.engine.notices.foldl (fun s n => takeNotice n s) (s.updEngine fun e => { e with notices := [] })

/-- A message to the engine taken after the notices that wait, or before them (R153, R167, R170): the manual lets either
be taken first, and the command's operand says which (assumption 47). -/
def withNotices (first : Bool) (f : State → State) (s : State) : State := f (if first then takeNotices s else s)

/-! ## Batches ended from outside -/

/-- Any batch abandoned, the day-batch-awaited mark cleared, the engine IDLE (R171). -/
def abandonBatch (s : State) : State := (engineIdle s).updEngine fun e => { e with dayAwaited := false }

/-- The Day Controller tells the engine to start the day batch at entry to CLOSING (R169). -/
def dayBatchAtClosing (s : State) : State :=
  match s.engine.batch with
  | none => startBatch .day s
  | some b =>
    if b.kind = .forward then
      if s.engine.state = .failed then startBatch .day (engineIdle s)
      else s.updEngine fun e => { e with dayAwaited := true }
    else s

end Sys2Proof.Machine
end

