-- ==== Sys2Proof/Machine/Day.lean ====
section
/-! DEFINITION. The Day Controller (Section 4): the opening, the entry to CUTOFF and to CLOSING, the forced close, the
retained store. -/

namespace Sys2Proof.Machine

/-! ## The retained store -/

/-- The cash lines of every drawer as they stand (R73). -/
def closingCash (s : State) : Vector (Vector Int 8) 16 :=
  tabV fun p => tabV fun c => (rd (rd s.drawers p).lines (cashLine c)).amount

/-- What a close writes into the retained store: the business date, the cash lines and their CRC (R72, R73). -/
def closingRecord (s : State) : RetainedRec :=
  ⟨businessDate s, closingCash s, crc16 (retainedBytes (businessDate s) (closingCash s))⟩

/-- The retained store written and read back (R73). The device returns what was written, or the record given; a record
that differs sets the bad mark, leaves a CRC that does not match, and is reported. -/
def writeRetained (cause : RetainedCause) (readBack : Option RetainedRec) (s : State) : State :=
  let written := closingRecord s
  let good (s : State) := s.updDay fun d => { d with retainedBad := false }
  match readBack with
  | none => good (nvWrite (.retained written) s)
  | some found =>
    let s := nvWrite (.retained found) s
    if found = written then good s
    else
      let s := nvWrite (.retainedCrc (~~~written.crc)) (s.updDay fun d => { d with retainedBad := true })
      report Config.wholePart (.retainedWriteFailed written.date cause) s

/-! ## Day state -/

/-- The day state changed and passed to every status row (R64, R65, R67, R68, R69, R71). -/
def setDay (d : DayState) (s : State) : State := markRow0All (s.updDay fun c => { c with state := d })

/-- The entry to CUTOFF up to its step 3, or why the journal refuses it (R65). -/
def enterCutoff (cause : CutoffCause) (s : State) : Except Status State :=
  match refusal .control 1 s with
  | some st => .error st
  | none =>
    let s := append (.cutoff cause) (placeMidnight .control s)
    let s := writeControl (fun c => { c with day := some .cutoff }) s
    .ok (setDay .cutoff (s.updDay fun d => { d with alarm := none }))

/-- CUTOFF_REACHED (R65). -/
def reportCutoff (cause : CutoffCause) (s : State) : State :=
  report Config.wholePart (.cutoffReached (businessDate s) cause s.clock.time) s

/-! ## Entry to CLOSING and the backlog -/

/-- A list cut into runs of up to eight, from the head (R67). -/
def runsOfEight : Nat → List Nat → List (List Nat)
  | 0, _ => []
  | fuel + 1, xs => if xs.isEmpty then [] else xs.take 8 :: runsOfEight fuel (xs.drop 8)

/-- An account record placed by the sequence number of its head line (R67). -/
def insertByHead (r : AccountRec) : List AccountRec → List AccountRec
  | [] => [r]
  | x :: xs =>
    if (r.lines.head?.elim 0 (·.source)) < (x.lines.head?.elim 0 (·.source)) then r :: x :: xs else x :: insertByHead r xs

/-- The store's accounts with lines, in ascending order of the sequence number of their head line (R67). -/
def backlogOrder (s : State) : List AccountRec :=
  (s.store.filter fun r => !r.lines.isEmpty).foldl (fun acc r => insertByHead r acc) []

/-- The BACKLOG entries of the store: one for each run of up to eight lines of each account (R67). -/
def backlogs (s : State) : List (Account × List Nat) :=
  (backlogOrder s).flatMap fun r => (runsOfEight r.lines.length (r.lines.map (·.source))).map fun q => (r.account, q)

/-- The CLOSE entry appended, its record write carrying the new day state (R67, R69). -/
def appendClose (forced : Bool) (day : RecDay) (s : State) : State :=
  appendWith (fun c => { c with day := some day, undelivered := c.undelivered || forced })
    (.close forced (slotsUsed s + 1) (nextSeq s)) s

/-- The closing condition (R66). -/
def closingCondition (s : State) : Bool :=
  (allPos.all fun p => (rd s.posns p).state == .signedOff) && allPrn.all fun n => !(rd s.printers n).holds

/-- Entry to CLOSING (R67). The closing-class request always fits on a state the part reaches; were it refused, the
test would change nothing. -/
def enterClosing (readBack : Option RetainedRec) (s : State) : State :=
  let t := removeAllJobs s
  let bs := backlogs t
  if fits .closing (bs.length + 1) t = false then s
  else
    let t := placeMidnight .closing t
    let t := bs.foldl appendBacklog t
    let t := appendClose false .closing t
    let t := { t with store := [] }
    let t := writeRetained .closing readBack t
    let t := setDay .closing t
    let f := t.nv.control.fields
    let t := report Config.wholePart (.dayClosing f.date f.slotsUsed f.entryCount bs.length (!t.day.retainedBad)) t
    dayBatchAtClosing t

/-! ## Forced close -/

/-- Every position that is not SIGNED_OFF signed off, and the group balance records removed (R36, R69). -/
def signOffAll (s : State) : State :=
  let s := eachPos (fun p s => if (rd s.posns p).state = .signedOff then s else signOffPos p s) s
  { s with groups := Vector.replicate 16 none }

/-- The entries a FORCE CLOSE in OPEN or CUTOFF appends: abandonments, backlog when it fits, the forced CLOSE; with the
count of store lines left without a BACKLOG entry (R69, R70). -/
def forceCloseEntries (abandoned : List EntryBody) (s : State) : State × Nat :=
  let bs := backlogs s
  let whole := fits .closing (abandoned.length + bs.length + 1) s
  let left := if whole then 0 else storedLines s
  let s := placeMidnight .closing s
  let s := appendAll abandoned s
  let s := if whole then bs.foldl appendBacklog s else s
  (appendClose true .closed s, left)

/-- A FORCE CLOSE that is taken, up to its step 8 (R69); with the count DAY_CLOSED carries. -/
def forceCloseEvent (readBack : Option RetainedRec) (s : State) : State × Nat :=
  let s := s.updDay fun d => { d with alarm := none }
  let abandoned := abandonEntries s
  let s := removeAllJobs (signOffAll s)
  let r :=
    if s.day.state = .closing then (writeControl (fun c => { c with day := some .closed, undelivered := true }) s, 0)
    else forceCloseEntries abandoned s
  let s := { r.1 with store := [] }
  let s := writeRetained .forceClose readBack (abandonBatch s)
  (setDay (.closed true) s, r.2)

/-! ## Opening -/

/-- The amounts of a SUPPLIED request as a table, when it carries its sixteen rows of eight (R63). DESIGN CHOICE
(assumption 41): one that carries more rows or more amounts in a row is none either, and so MALFORMED. -/
def suppliedTable (rows : List (List Int)) : Option (Vector (Vector Int 8) 16) :=
  if rows.length = 16 ∧ rows.all (fun r => r.length == 8) then
    some (tabV fun p => tabV fun c => (rows.getD p.val []).getD c.val 0)
  else none

/-- Whether an OPEN request is MALFORMED (R63). -/
def openMalformed (b : OpenBody) : Bool :=
  !dateOk b.date ||
    match b.source with
    | none => false
    | some .retained => !b.amounts.isEmpty
    | some .supplied =>
      (suppliedTable b.amounts).isNone || b.amounts.any fun r => r.any fun a => a < 0 || (Config.maxTotal : Int) < a

/-- The amounts that will open the day (R63, R64). -/
def openingAmounts (b : OpenBody) (s : State) : Vector (Vector Int 8) 16 :=
  match b.source with
  | some .supplied => (suppliedTable b.amounts).getD (Vector.replicate 16 (Vector.replicate 8 0))
  | _ => s.nv.retained.amounts

/-- Step 7 of R63: each amount a multiple of its slot's cash unit, and 0 for an undefined slot. -/
def amountsCashable (s : State) (a : Vector (Vector Int 8) 16) : Bool :=
  allPos.all fun p => (List.finRange 8).all fun c =>
    match rd s.tables.currencies c with
    | some cur => rd (rd a p) c % (cur.unit : Int) == 0
    | none => rd (rd a p) c == 0

/-- The checks of R63 on a well-formed OPEN request, in order. -/
def openRefusal (b : OpenBody) (s : State) : Option Status :=
  match s.day.state with
  | .closed undelivered =>
    if undelivered ∧ b.discard = false then some .undeliveredDay
    else if s.clock.isSet = false then some .clockUnset
    else if (rd s.tables.currencies 0).isNone then some .noLocalCurrency
    else if (retainedGood s ∧ b.date ≤ s.nv.retained.date) ∨ (s.nv.control.good ∧ b.date ≤ businessDate s) then
      some .dateNotLater
    else if b.source = some .retained ∧ retainedGood s = false then some .retainedBad
    else if amountsCashable s (openingAmounts b s) = false then some .cashUnitMismatch
    else none
  | _ => some .dayState

/-- A drawer loaded from an OPENING entry's amounts (R38, R64). -/
def openDrawer (a : Vector Int 8) : Drawer :=
  { lines := tabV fun i => ⟨if h : i.val < 8 then rd a ⟨i.val, h⟩ else 0, 0, false⟩, captureNo := 0, ctx := none }

/-- A live position record at day open: entry number and stand-in usage 0, no in-doubt entry (R64, R90). -/
def openPosition (r : PosRec) : PosRec := { r with entryNo := 0, usage := 0, inDoubt := none }

/-- A screen at day open: the NO PRINTER mark cleared (R93, R108). -/
def openScreen (sc : Screen) : Screen := { sc with noPrinter := false }

/-- A day opened from a source (R64), up to its step 8. -/
def openEvent (src : OpenSource) (b : OpenBody) (s : State) : State :=
  let amounts := openingAmounts b s
  let mark := b.discard && s.day.state == .closed true
  let s := writeControl (fun _ => ⟨b.date, some .opened, 0, 0, 0, true⟩) s
  let s := { s with jc := { s.jc with unreadable := false, lowSpace := false, pendingCount := 0 } }
  let s := { s with clock := { s.clock with midnights := 0 } }
  let s := appendAll (allPos.map fun p => .opening p b.date src mark (rd amounts p)) s
  let s := { s with drawers := tabV fun p => openDrawer (rd amounts p), groups := Vector.replicate 16 none }
  let s := { s with posns := mapV s.posns openPosition }
  let s := { s with screens := mapV s.screens openScreen, store := [] }
  let s := (abandonBatch s).updEngine fun e => { e with lastBatch := 0 }
  let s := s.updDay fun d => { d with date := some b.date, alarm := none }
  setDay .opened s

end Sys2Proof.Machine
end

