-- ==== Sys2Proof/Machine/Line.lean ====
section
/-! DEFINITION. The Line Interface's inbound path (Sections 10.1 and 12.1): the receive framer, and what every valid
inbound message does to the line before it is handed on. -/

namespace Sys2Proof.Machine

/-! ## The receive framer -/

/-- What the framer finds in the bytes it takes (R172): a frame discarded, or a valid message's header and body. -/
inductive FrameEvent where
  | discarded
  | message (bytes : List Byte)
deriving DecidableEq, Repr

/-- The body length a frame's header gives, once the six header bytes are taken (R172). -/
def bodyLength (taken : List Byte) : Nat := (taken.getD 4 0).toNat * 256 + (taken.getD 5 0).toNat

/-- Whether the CRC of a whole frame matches: header and body against the last two bytes (R172). -/
def frameCrcOk (taken : List Byte) : Bool :=
  let n := taken.length - 2
  crc16 (taken.take n) == BitVec.ofNat 16 ((taken.getD n 0).toNat * 256 + (taken.getD (n + 1) 0).toNat)

/-- What the bytes taken since a sync pair amount to: nothing yet, a discard, or a valid message (R172). -/
def judgeFrame (taken : List Byte) : Option FrameEvent :=
  if taken.length < 6 then none
  else if 1024 < bodyLength taken then some .discarded
  else if taken.length < 6 + bodyLength taken + 2 then none
  else if frameCrcOk taken then some (.message (taken.take (6 + bodyLength taken)))
  else some .discarded

/-- The framer over inbound bytes, one at a time (R172). After a discard it hunts again from the byte that followed the
discarded frame's sync pair. The fuel bounds the bytes taken, those taken again included. -/
def scanFrames : Nat → Framer → List Byte → Framer × List FrameEvent
  | 0, f, _ => (f, [])
  | _ + 1, f, [] => (f, [])
  | fuel + 1, .hunting half, b :: bs =>
    if half ∧ b = 0x3C then scanFrames fuel (.framing []) bs
    else scanFrames fuel (.hunting (b == 0xC3)) bs
  | fuel + 1, .framing taken, b :: bs =>
    match judgeFrame (taken ++ [b]) with
    | none => scanFrames fuel (.framing (taken ++ [b])) bs
    | some (.message m) => let r := scanFrames fuel (.hunting false) bs; (r.1, .message m :: r.2)
    | some .discarded => let r := scanFrames fuel (.hunting false) (taken ++ [b] ++ bs); (r.1, .discarded :: r.2)

/-- The bytes a framer still holds. -/
def Framer.held : Framer → List Byte
  | .hunting _ => []
  | .framing taken => taken

/-- The framer over inbound bytes with fuel for every byte taken again: each discard gives up its sync pair for good. -/
def runFramer (f : Framer) (bs : List Byte) : Framer × List FrameEvent :=
  let n := f.held.length + bs.length + 1
  scanFrames (n * n) f bs

/-! ## Valid inbound messages -/

/-- The line timer started afresh with the parameter as it stands (R151). -/
def startLineTimer (s : State) : State := s.updLine fun l => { l with timer := Timer.start s.tables.params.lineTimer }

/-- The line returns (R153): ONLINE, the timer started, LINE RESTORED on every position, row 0 of every screen, and the
Transfer Engine told. -/
def lineReturn (s : State) : State :=
  let s := startLineTimer (s.updLine fun l => { l with state := .online })
  let s := markRow0All (noticeAll textLineRestored s)
  s.updEngine fun e => { e with notices := e.notices ++ [.back] }

/-- What every valid inbound message does before it is handed on: the framer hunts for the next, and the line timer is
restarted or the line returns (R151, R172). -/
def arrive (s : State) : State :=
  let s := s.updLine fun l => { l with framer := .hunting false }
  if s.line.state = .online then startLineTimer s else lineReturn s

/-- A message that takes a REPLY, answered RECOVERING while the day is RECOVERING (R56, R173). -/
def message (h : Hdr) (f : State → State) : State → Host.Outcome State Fault Refusal :=
  event fun s =>
    let s := arrive s
    if s.day.state = .recovering then reply h .recovering s else f s

/-- A TABLE LOAD or TABLE QUERY, or a LINE CHECK: taken in every day state (R56, R175). -/
def tableMessage (f : State → State) : State → Host.Outcome State Fault Refusal := event fun s => f (arrive s)

/-- A TRANSFER ACK or RESTART: discarded without reply while the day is RECOVERING (R56). -/
def silentMessage (f : State → State) : State → Host.Outcome State Fault Refusal :=
  event fun s =>
    let s := arrive s
    if s.day.state = .recovering then s else f s

/-- A message whose position must be 0 to 15, answered BAD_POSITION otherwise (R81, R97). DESIGN CHOICE (assumption 59): for
a FORM, PAINT or NOTICE the position is checked before the body; R97 lists the two statuses in no order. -/
def atPosition (h : Hdr) (f : Pos → State → State) (s : State) : State :=
  if hp : h.pos < 16 then f ⟨h.pos, hp⟩ s else reply h .badPosition s

end Sys2Proof.Machine
end

