-- ==== Sys2Proof/Machine/DayCommands.lean ====
section
/-! DEFINITION. The Day Controller and the Branch Clock (Section 4): the commands OPEN, CLOSE, SET_TIME, SET_CUTOFF,
CLEAR_CUTOFF, FORCE_CLOSE, SEND_DAY, SEND_FORWARD, CLOCK_ADVANCE, CUTOFF_ALARM_FIRE, CLOSING_CONDITION_TEST and
DAY_BATCH_COMPLETION. -/

namespace Sys2Proof.Machine

/-! ## DAY CONTROL requests -/

/-- OPEN (R63, R64). One without a source the part knows is answered with a status the manual leaves open (assumption 42).
DESIGN CHOICE (assumption 58): the engine takes a line notice that this message gives only after it. -/
def execOpen (h : Hdr) (b : OpenBody) : State → Host.Outcome State Fault Refusal :=
  message h fun s =>
    if openMalformed b then reply h .malformed s
    else
      match b.source, openRefusal b s with
      | none, _ => reply h Config.openSourceStatus s
      | some _, some st => reply h st s
      | some src, none => reply h .accepted (openEvent src b s)

/-- CLOSE (R65). -/
def execClose (h : Hdr) : State → Host.Outcome State Fault Refusal :=
  message h fun s =>
    if s.day.state ≠ .opened then reply h .dayState s
    else
      match enterCutoff .request s with
      | .error st => reply h st s
      | .ok t => reportCutoff .request (reply h .accepted t)

/-- The clock set to a time of day (R60). -/
def setClock (time : Nat) (s : State) : State :=
  markRow0All { s with clock := { s.clock with time := time, isSet := true } }

/-- SET_TIME (R60). -/
def execSetTime (h : Hdr) (time : Nat) : State → Host.Outcome State Fault Refusal :=
  message h fun s => if 86399 < time then reply h .malformed s else reply h .accepted (setClock time s)

/-- The checks of a SET CUTOFF request, in order (R61). -/
def cutoffRefusal (second : Nat) (s : State) : Option Status :=
  if 86399 < second then some .malformed
  else if s.day.state ≠ .opened then some .dayState
  else if s.clock.isSet = false then some .clockUnset
  else if s.day.alarm.isSome then some .cutoffArmed
  else none

/-- SET_CUTOFF (R61). -/
def execSetCutoff (h : Hdr) (second : Nat) : State → Host.Outcome State Fault Refusal :=
  message h fun s =>
    match cutoffRefusal second s with
    | some st => reply h st s
    | none => reply h .accepted (s.updDay fun d => { d with alarm := some ⟨second, false⟩ })

/-- CLEAR_CUTOFF (R61). -/
def execClearCutoff (h : Hdr) : State → Host.Outcome State Fault Refusal :=
  message h fun s => reply h .accepted (s.updDay fun d => { d with alarm := none })

/-- Whether the day is CLOSED, delivered or not. -/
def isClosed (s : State) : Bool :=
  match s.day.state with
  | .closed _ => true
  | _ => false

/-- FORCE_CLOSE (R69, R70). DESIGN CHOICE (assumption 58): the engine takes a line notice that this message gives only
after it. -/
def execForceClose (h : Hdr) (readBack : Option RetainedRec) : State → Host.Outcome State Fault Refusal :=
  message h fun s =>
    if isClosed s then reply h .dayState s
    else
      let r := forceCloseEvent readBack s
      report Config.wholePart (.dayClosed (businessDate r.1) false true (some r.2)) (reply h .accepted r.1)

/-- What SEND of kind DAY does with the engine it finds (R170): started from IDLE, resumed from a FAILED day batch, else
left as it is. -/
def sendDayEffect (s : State) : State :=
  match s.engine.batch with
  | none => startBatch .day s
  | some b => if b.kind = .day ∧ s.engine.state = .failed then resumeFailed s else s

/-- SEND_DAY (R71, R170). -/
def execSendDay (h : EngineHdr) : State → Host.Outcome State Fault Refusal :=
  message h.hdr fun s =>
    if (s.day.state = .closed true ∧ s.jc.unreadable = false) ∨ s.day.state = .closing then
      withNotices h.noticesFirst (fun s => reply h.hdr .accepted (sendDayEffect s)) s
    else reply h.hdr .dayState s

/-- What SEND of kind FORWARD does with the engine it finds (R170). -/
def sendForwardEffect (s : State) : State :=
  match s.engine.batch with
  | none => if 0 < s.jc.pendingCount then startBatch .forward s else s
  | some b => if b.kind = .forward ∧ s.engine.state = .failed then resumeFailed s else s

/-- A SEND of kind FORWARD taken by the engine (R170): its row of the table by day state. -/
def takeSendForward (h : Hdr) (s : State) : State :=
  if s.day.state = .opened ∨ s.day.state = .cutoff then reply h .accepted (sendForwardEffect s) else reply h .dayState s

/-- SEND_FORWARD (R170): the engine takes the SEND after the line notices that wait, or before them, in every day state and
also when its body has no kind the part knows. A DAY CONTROL that has no request the part knows is no SEND; it is answered
with a status the manual leaves open (R173, assumption 23). -/
def execSendForward (h : EngineHdr) (k : SendKind) : State → Host.Outcome State Fault Refusal :=
  message h.hdr
    (match k with
    | .noKnownRequest => reply h.hdr Config.dayRequestStatus
    | .noKnownKind => withNotices h.noticesFirst (reply h.hdr .malformed)
    | .forward => withNotices h.noticesFirst (takeSendForward h.hdr))

/-! ## The clock -/

/-- A key unit whose timer has advanced by a second. -/
def KeyUnit.tick (k : KeyUnit) : KeyUnit := { k with timer := Timer.tick k.timer }

/-- A printer whose timer has advanced by a second. -/
def Printer.tick (r : Printer) : Printer := { r with timer := Timer.tick r.timer }

/-- Every running device timer advanced by a second (R58). -/
def tickTimers (s : State) : State :=
  let s := s.updLine fun l => { l with timer := Timer.tick l.timer }
  let s := s.updEngine fun e => { e with timer := Timer.tick e.timer }
  { s with keys := mapV s.keys KeyUnit.tick, printers := mapV s.printers Printer.tick }

/-- The Branch Clock after one advance (R59). -/
def Clock.advance (c : Clock) : Clock :=
  if c.time = 86399 then { c with time := 0, midnights := if c.midnights < 255 then c.midnights + 1 else 255 }
  else { c with time := c.time + 1 }

/-- The armed alarm tested against an advance that brought a time of day (R62). -/
def testAlarm (time : Nat) (s : State) : State :=
  s.updDay fun d => { d with alarm := d.alarm.map fun a => if a.second = time then ⟨a.second, true⟩ else a }

/-- An advance of the set clock (R59): the alarm tested, and the status rows told of a new minute. -/
def advanceClock (s : State) : State :=
  let c := s.clock.advance
  let t := testAlarm c.time { s with clock := c }
  if c.time / 60 = s.clock.time / 60 then t else markRow0All t

/-- CLOCK_ADVANCE (R58, R59). -/
def execClockAdvance : State → Host.Outcome State Fault Refusal :=
  event fun s => if s.clock.isSet then advanceClock (tickTimers s) else tickTimers s

/-! ## Events of the Day Controller -/

/-- The firing of the alarm (R62, R65). -/
def fireAlarm (second : Nat) (s : State) : State :=
  match enterCutoff (.alarm second) s with
  | .error _ => s.updDay fun d => { d with alarm := none }
  | .ok t => reportCutoff (.alarm second) t

/-- CUTOFF_ALARM_FIRE (R62): an advance has reached the armed alarm's second. -/
def execCutoffAlarmFire : State → Host.Outcome State Fault Refusal :=
  event fun s =>
    match s.day.alarm with
    | some a => if a.due ∧ s.day.state = .opened then fireAlarm a.second s else s
    | none => s

/-- CLOSING_CONDITION_TEST (R66, R67). -/
def execClosingConditionTest (readBack : Option RetainedRec) : State → Host.Outcome State Fault Refusal :=
  event fun s => if s.day.state = .cutoff ∧ closingCondition s then enterClosing readBack s else s

/-- The day delivered (R68, R71). -/
def deliverDay (forced : Bool) (s : State) : State :=
  let s := writeControl (fun c => { c with day := some .closed, undelivered := false }) s
  report Config.wholePart (.dayClosed (businessDate s) true forced none) (setDay (.closed false) s)

/-- A day batch completion taken with the business date the engine gave (R68, R71). -/
def takeCompletion (date : Nat) (s : State) : State :=
  if date ≠ businessDate s then s
  else
    match s.day.state with
    | .closing => deliverDay false s
    | .closed true => deliverDay (closeForced s) s
    | _ => s

/-- DAY_BATCH_COMPLETION (R68, R71): the Day Controller takes the oldest completion the engine has given. -/
def execDayBatchCompletion : State → Host.Outcome State Fault Refusal :=
  event fun s =>
    match s.day.completions with
    | [] => s
    | date :: rest => takeCompletion date (s.updDay fun d => { d with completions := rest })

end Sys2Proof.Machine
end

