-- ==== Sys2Proof/Machine/PositionCommands.lean ====
section
/-! DEFINITION. Requests from head office to a position (Sections 2.2, 2.3, 5.3, 5.5): the commands SIGN_ON,
FORCE_SIGN_OFF, UNLOCK, POSITION_CONTROL_BALANCE and POSITION_CONTROL_GROUP_BALANCE. -/

namespace Sys2Proof.Machine

/-- A position signed on with a teller id (R82). -/
def signOnPos (p : Pos) (teller : List (Fin 10)) (s : State) : State :=
  markRow0 p (s.updPos p fun r => { r with state := .ready, teller := some teller })

/-- A SIGN ON request at its position (R82). -/
def signOnRequest (h : Hdr) (teller : Option (List (Fin 10))) (p : Pos) (s : State) : State :=
  match teller.filter fun t => t.length == 6 with
  | none => reply h .malformed s
  | some t =>
    if s.day.state ≠ .opened then reply h .dayState s
    else if (rd s.posns p).state ≠ .signedOff then reply h .positionState s
    else reply h .accepted (signOnPos p t s)

/-- SIGN_ON (R81, R82), and a POSITION CONTROL whose body has no request the part knows. -/
def execSignOn (h : Hdr) (b : SignOnBody) : State → Host.Outcome State Fault Refusal :=
  message h fun s =>
    match b with
    | .noKnownRequest => reply h .malformed s
    | .request t => atPosition h (signOnRequest h t) s

/-- A FORCE SIGN OFF of a BALANCING position: its balance abandoned, or refused for space (R35). -/
def forceOffBalancing (h : Hdr) (p : Pos) (s : State) : State :=
  match (rd s.drawers p).ctx with
  | none => reply h .accepted (signOffPos p s)
  | some c =>
    match refusal .control (1 + if emptiesGroup p c.leader s then 1 else 0) s with
    | some st => reply h st s
    | none => reply h .accepted (abandonBalance p c s)

/-- FORCE_SIGN_OFF (R81, R87, R35). -/
def execForceSignOff (h : Hdr) : State → Host.Outcome State Fault Refusal :=
  message h (atPosition h fun p s =>
    match (rd s.posns p).state with
    | .signedOff => reply h .positionState s
    | .ready => reply h .accepted (signOffPos p s)
    | .awaiting => reply h .accepted (signOffPos p s)
    | .balancing => forceOffBalancing h p s)

/-- UNLOCK (R81, R85). -/
def execUnlock (h : Hdr) : State → Host.Outcome State Fault Refusal :=
  message h (atPosition h fun p s =>
    if (rd s.posns p).state = .awaiting then reply h .accepted (release p s) else reply h .positionState s)

/-- The first two checks of a BALANCE request (R26, R28). -/
def balanceTimeRefusal (s : State) : Option Status :=
  if ¬(s.day.state = .opened ∨ s.day.state = .cutoff) then some .dayState
  else if s.clock.isSet = false then some .clockUnset
  else none

/-- Whether a position is READY or AWAITING (R26). -/
def signedOnFree (s : State) (p : Pos) : Bool := (rd s.posns p).state == .ready || (rd s.posns p).state == .awaiting

/-- A BALANCE request whose body names its kind; another is answered with a status the manual leaves open, and changes
nothing (assumption 43). -/
def withKind (h : Hdr) (k : Option BalKind) (f : BalKind → State → State) (s : State) : State :=
  match k with
  | none => reply h Config.balanceBodyStatus s
  | some k => f k s

/-- POSITION_CONTROL_BALANCE (R26). -/
def execPositionControlBalance (h : Hdr) (k : Option BalKind) : State → Host.Outcome State Fault Refusal :=
  message h (withKind h k fun k s =>
    match balanceTimeRefusal s with
    | some st => reply h st s
    | none => atPosition h (fun p s =>
        if signedOnFree s p = false then reply h .positionState s
        else
          match refusal .control 4 s with
          | some st => reply h st s
          | none => reply h .accepted (singleBalance k p s)) s)

/-- POSITION_CONTROL_GROUP_BALANCE (R28). -/
def execPositionControlGroupBalance (h : Hdr) (k : Option BalKind) : State → Host.Outcome State Fault Refusal :=
  message h (withKind h k fun k s =>
    match balanceTimeRefusal s with
    | some st => reply h st s
    | none => atPosition h (fun p s =>
        match groupRefusal s p with
        | some st => reply h st s
        | none => reply h .accepted (groupBalanceEvent k p s)) s)

end Sys2Proof.Machine
end

