-- ==== Sys2Proof/Machine/Posting.lean ====
section
/-! DEFINITION. The Posting Unit's hand-off (Section 1.6), the matching of entries (Section 10.4), the stand-in attempt
(Sections 7.4 and 10.3), and the commands POST and BOOK_LINES. -/

namespace Sys2Proof.Machine

/-! ## The hand-off -/

/-- Whether a posting yields a passbook line (R19). -/
def yieldsLine (req : PostReq) (e : CodeEntry) : Bool :=
  e.passbook && match req.origin with
    | .online => req.passbook.isSome
    | .standIn => req.account.isSome

/-- The line a posting hands on (R19): name, signed amount and exponent by class. -/
def lineText (s : State) (req : PostReq) (pl : Plan) : LineText :=
  let a : Int := req.amount
  let v : Int := pl.value
  match pl.code.cls with
  | .nonCash => ⟨pl.code.name, if pl.code.direction = some .decrease then -v else v, localExponent s⟩
  | .cashOut => ⟨pl.code.name, -a, pl.exponent⟩
  | _ => ⟨pl.code.name, a, pl.exponent⟩

/-- The POSTING entry's fields (R17, R44). -/
def postingRec (late : Bool) (req : PostReq) (pl : Plan) (s : State) : PostingRec :=
  { origin := req.origin, late := late, pos := pl.pos, code := req.code, slot := pl.slot, cls := pl.code.cls,
    direction := pl.code.direction, serial := pl.serial, amount := req.amount, value := pl.value,
    account := req.account, entryRef := req.entryRef, balance := req.passbook.bind (·.balance),
    book := req.passbook.map fun b => ⟨b.bookType, b.page, b.line⟩,
    yielded := if yieldsLine req pl.code then some (lineText s req pl) else none, legs := pl.legs }

/-- The passbook line of a POSTING entry, with its account and book type (R19, R44): what the hand-off offers to the
store and what replay re-adds. -/
def postingLine (date seq : Nat) (r : PostingRec) : Option (Account × Option Nat × PLine) :=
  match r.account, r.yielded with
  | some a, some t =>
    some (a, r.book.map (·.bookType),
      { date := date, name := t.name, amount := t.amount, exponent := t.exponent, balance := r.balance,
        standIn := r.origin == .standIn, expected := r.book.map fun b => (b.page, b.line), source := seq })
  | _, _ => none

/-- The passbook line of a posting offered to the store, and the account's job handled when the line is kept (R19, R125). -/
def handOnLine (owner : Pos) (line : Option (Account × Option Nat × PLine)) (s : State) : State :=
  match line with
  | none => s
  | some (a, t, l) => if storeKeeps a s then jobForKept owner a (offerLine a t l s) else offerLine a t l s

/-- A posting that has passed its checks recorded and applied: the entry, the legs in order, the passbook line; with the
entry's sequence number (R17, R18, R19). -/
def applyPosting (late : Bool) (req : PostReq) (pl : Plan) (s : State) : State × Nat :=
  let s := placeMidnight .business s
  let seq := nextSeq s
  let r := postingRec late req pl s
  let s := append (.posting r) s
  let s := applyLegs r.legs s
  (handOnLine pl.pos (postingLine (businessDate s) seq r) s, seq)

/-! ## Matching -/

/-- Whether an entry reference answers the outstanding entry of an AWAITING position (R157). -/
def answersOutstanding (r : PosRec) (ref : Nat) : Bool := r.state == .awaiting && r.outstanding == some ref

/-- The late flag of an ONLINE POST (R157): a reference that does not answer the outstanding entry. -/
def lateFlag (r : PosRec) (ref : Option Nat) : Bool := ref.any fun n => !answersOutstanding r n

/-- What the matching of an ONLINE POST's reference does to the position's record (R157). -/
def matchEntry (p : Pos) (ref : Option Nat) (s : State) : State :=
  match ref with
  | none => s
  | some n =>
    let r := rd s.posns p
    if answersOutstanding r n then
      let s := s.updPos p fun r => { r with state := .ready, outstanding := none }
      markRow0 p (s.updKeys p fun k => { k with timer := none })
    else if r.inDoubt = some n then markRow0 p (s.updPos p fun r => { r with inDoubt := none })
    else s

/-! ## POST -/

/-- Whether a POST's passbook part has a field outside the ranges of R6. -/
def passbookBad (b : PassbookPart) : Bool :=
  3 < b.bookType || b.page == 0 || 32 < b.page || b.line == 0 || 40 < b.line ||
    b.balance.any fun v => Config.maxTotal < v.natAbs

/-- Whether a POST is MALFORMED (R6). -/
def postMalformed (b : PostBody) : Bool :=
  b.code.isNone || b.slot.isNone || b.amount.isNone || (b.account.any fun a => !accountOk a) ||
    (b.passbook.isSome && b.account.isNone) || (b.passbook.any passbookBad) || b.entryRef.any fun n => 4095 < n

/-- The request of a POST (R6). -/
def postRequest (h : Hdr) (b : PostBody) : PostReq :=
  { origin := .online, pos := h.pos, code := b.code.getD 0, slot := b.slot.getD 0, amount := b.amount.getD 0,
    account := b.account, passbook := b.passbook, counterparty := b.counterparty, entryRef := b.entryRef }

/-- LATE_POSTING for a POST whose late flag is set (R158), from the position's record before the posting. -/
def reportLate (p : Pos) (r : PosRec) (ref : Option Nat) (seq : Nat) (s : State) : State :=
  match ref with
  | some n =>
    if answersOutstanding r n then s
    else report p (.latePosting p n seq r.outstanding (r.inDoubt == some n)) s
  | none => s

/-- An ONLINE POST that passed every check (R17 to R20, R157, R158). -/
def takePost (h : Hdr) (req : PostReq) (pl : Plan) (s : State) : State :=
  let r := rd s.posns pl.pos
  let t := applyPosting (lateFlag r req.entryRef) req pl s
  let u := matchEntry pl.pos req.entryRef (reply h .accepted t.1)
  reportLate pl.pos r req.entryRef t.2 u

/-- POST (R6, R7, R17 to R20, R157, R158). -/
def execPost (h : Hdr) (b : PostBody) : State → Host.Outcome State Fault Refusal :=
  message h fun s =>
    if postMalformed b then reply h .malformed s
    else
      match checkPosting (postRequest h b) s with
      | .error st => reply h st s
      | .ok pl => takePost h (postRequest h b) pl s

/-! ## Stand-in -/

/-- The field of a form with a role. -/
def roleField (d : FormDesc) (r : FieldRole) : Option Nat := d.fields.findIdx? fun f => f.role == r

/-- The value of the field of a form with a role. -/
def roleValue (s : State) (p : Pos) (d : FormDesc) (r : FieldRole) : Option (List Byte) := (roleField d r).map (fieldValue s p)

/-- The digits of a role's field as an integer, 0 when there is no such field or it is empty (R119). -/
def roleNumber (s : State) (p : Pos) (d : FormDesc) (r : FieldRole) : Nat := ((roleValue s p d r).map digitsValue).getD 0

/-- The ACCOUNT field of a form when it is filled, without leading and trailing blanks (R119). -/
def accountText (s : State) (p : Pos) (d : FormDesc) : Option (List Byte) :=
  ((roleValue s p d .account).map trimBlanks).filter fun bs => !bs.isEmpty

/-- The request a stand-in attempt reads from the posting map; MALFORMED for an account that is not 1 to 19 digits (R119). -/
def standInRequest (s : State) (p : Pos) (d : FormDesc) : Except Status PostReq :=
  let account := (accountText s p d).map accountOf
  if account = some none then .error .malformed
  else .ok
    { origin := .standIn, pos := p.val, code := d.fixedCode.getD (roleNumber s p d .code), slot := roleNumber s p d .currency,
      amount := roleNumber s p d .amount, account := account.join, passbook := none,
      counterparty := ((roleValue s p d .counterparty).filter fun v => !v.isEmpty).map digitsValue, entryRef := none }

/-- The stand-in acceptance checks of Table 10-1 (R155); none when all pass. -/
def standInRefusal (req : PostReq) (pl : Plan) (s : State) : Option Status :=
  let limit := (rdN s.tables.limits pl.code.limitClass).join.getD 0
  let budget := (positionEntry s pl.pos).elim 0 (·.budget)
  if (rd s.posns pl.pos).state ≠ .ready then some .tellerState
  else if (currentForm s pl.pos).any (·.standIn) = false then some .formNotStandin
  else if pl.code.standIn = false then some .codeNotStandin
  else if limit = 0 ∨ limit < pl.value then some .overLimit
  else if budget < (rd s.posns pl.pos).usage + pl.value then some .budgetExhausted
  else if pl.code.cls = .internal ∧ (counterpartyOf req pl.pos).any fun q => (rd s.posns q).state == .balancing then
    some .counterpartyBalancing
  else none

/-- The whole of a stand-in attempt's checks: the form, the posting map, Table 1-1 and Table 10-1 (R119, R7, R155). -/
def standInCheck (s : State) (p : Pos) (d : FormDesc) : Except Status (PostReq × Plan) :=
  if d.standIn = false then .error .formNotStandin
  else
    match standInRequest s p d with
    | .error st => .error st
    | .ok req =>
      match checkPosting req s with
      | .error st => .error st
      | .ok pl =>
        match standInRefusal req pl s with
        | some st => .error st
        | none => .ok (req, pl)

/-- The role of the field the cursor moves to when a stand-in attempt is refused with a status (R119). -/
def refusalRole : Status → Option FieldRole
  | .amountRange => some .amount
  | .notCashable => some .amount
  | .overLimit => some .amount
  | .budgetExhausted => some .amount
  | .codeUndefined => some .code
  | .codeNotStandin => some .code
  | .currencyUndefined => some .currency
  | .rateUnset => some .currency
  | .malformed => some .account
  | .badCounterparty => some .counterparty
  | .counterpartyBalancing => some .counterparty
  | _ => none

/-- A refused stand-in attempt: the notice, a TONE and the cursor (R119). DESIGN CHOICE (assumption 49): the cursor goes to
the field's text position 0, also when it already stands in that field. -/
def refuseStandIn (p : Pos) (d : FormDesc) (st : Status) (s : State) : State :=
  let s := tone p (notice p st.name s)
  match (refusalRole st).bind (roleField d) with
  | some i => setCursor p i 0 s
  | none => s

/-- The next entry number (R83). -/
def nextEntryNo (r : PosRec) : PosRec := { r with entryNo := (r.entryNo + 1) % 4096 }

/-- An accepted stand-in posting (R156). -/
def takeStandIn (p : Pos) (req : PostReq) (pl : Plan) (s : State) : State :=
  let t := applyPosting false req pl s
  let s := t.1.updPos p fun r => { r with usage := r.usage + pl.value }
  clearForm p (notice p (textAccepted t.2) s)

/-- A stand-in attempt (R119, R155, R156): it consumes the entry number whatever its outcome. -/
def standInAttempt (p : Pos) (d : FormDesc) (s : State) : State :=
  let s := s.updPos p nextEntryNo
  match standInCheck s p d with
  | .error st => refuseStandIn p d st s
  | .ok (req, pl) => takeStandIn p req pl s

/-! ## BOOK LINES -/

/-- Whether a line of a BOOK LINES message is outside the ranges of R124 and R126. -/
def bookLineBad (l : BookLineItem) : Bool :=
  !dateOk l.date || l.name.length != 8 || !(l.name.all isPrintable) || Config.maxAmount < l.amount.natAbs || 3 < l.exponent ||
    l.balance.any fun v => Config.maxTotal < v.natAbs

/-- Whether a full BOOK LINES body is MALFORMED (R126). -/
def bookLinesBad (a : Account) (t : Nat) (ls : List BookLineItem) : Bool :=
  !accountOk a || 3 < t || ls.isEmpty || 16 < ls.length || ls.any bookLineBad

/-- The BOOK LINE entries of a message (R43, R126). -/
def bookLineEntries (a : Account) (t : Nat) (ls : List BookLineItem) : List EntryBody :=
  ls.map fun l => .bookLine ⟨a, t, l.date, l.name, l.amount, l.exponent, l.balance⟩

/-- The passbook line of a BOOK LINE entry (R124, R126). -/
def bookLineOf (seq : Nat) (l : BookLineRec) : PLine :=
  { date := l.date, name := l.name, amount := l.amount, exponent := l.exponent, balance := l.balance, standIn := false,
    expected := none, source := seq }

/-- Lines of a message offered in list order, the first with a sequence number; with how many were kept (R126). -/
def offerLines (a : Account) (t : Nat) : Nat → List BookLineItem → State → State × Nat
  | _, [], s => (s, 0)
  | seq, l :: ls, s =>
    let line := bookLineOf seq ⟨a, t, l.date, l.name, l.amount, l.exponent, l.balance⟩
    let kept := if storeKeeps a s then 1 else 0
    let r := offerLines a t (seq + 1) ls (offerLine a (some t) line s)
    (r.1, r.2 + kept)

/-- Why a well-formed BOOK LINES message is refused, in the order of R126. -/
def bookLinesRefusal (h : Hdr) (n : Nat) (s : State) : Except Status Pos :=
  if ¬(s.day.state = .opened ∨ s.day.state = .cutoff) then .error .dayState
  else if s.clock.isSet = false then .error .clockUnset
  else
    match posOf h.pos with
    | none => .error .badPosition
    | some p => if fits .business n s then .ok p else .error .journalFull

/-- A BOOK LINES message that is taken (R126). -/
def takeBookLines (h : Hdr) (p : Pos) (a : Account) (t : Nat) (ls : List BookLineItem) (s : State) : State :=
  let s := placeMidnight .business s
  let seq := nextSeq s
  let r := offerLines a t seq ls (appendAll (bookLineEntries a t ls) s)
  replyWith h .accepted (.kept r.2) (if r.2 = 0 then r.1 else jobForKept p a r.1)

/-- BOOK_LINES (R126). -/
def execBookLines (h : Hdr) (b : BookLinesBody) : State → Host.Outcome State Fault Refusal :=
  message h fun s =>
    match b with
    | .incomplete => reply h .malformed s
    | .full a t ls =>
      if bookLinesBad a t ls then reply h .malformed s
      else
        match bookLinesRefusal h ls.length s with
        | .error st => reply h st s
        | .ok p => takeBookLines h p a t ls s

end Sys2Proof.Machine
end

