-- ==== Sys2Proof/Machine/Station.lean ====
section
/-! DEFINITION. Screen messages from head office and the Station Ports (Sections 6.4 to 6.6): the commands PAINT, FORM,
NOTICE, REVIEW_UP, REVIEW_DOWN, PRESENT, ROW_TAKEN and ROW_SEND. -/

namespace Sys2Proof.Machine

/-! ## Screen messages -/

/-- The end of a screen message that is taken: the unlock flag, then the REPLY (R97). -/
def finishScreen (h : Hdr) (p : Pos) (unlock : Bool) (s : State) : State :=
  reply h .accepted (if unlock then release p s else s)

/-- Whether a PAINT is MALFORMED (R100). -/
def paintBad (b : PaintBody) : Bool :=
  b.row == 0 || 15 < b.row || 79 < b.col || b.dir.isNone || b.attr.isNone || 256 < b.run.length

/-- The writes of a PAINT (R100). -/
def paintWrites (p : Pos) (b : PaintBody) (s : State) : State :=
  let s := if b.erase then clearArea p s else s
  s.updScreen p (Screen.paintRun (b.dir.getD .across) (b.attr.getD .normal) b.run (b.row, b.col))

/-- PAINT (R97, R100), its position checked before its body (assumption 59). -/
def execPaint (h : Hdr) (b : PaintBody) : State → Host.Outcome State Fault Refusal :=
  message h (atPosition h fun p s =>
    if paintBad b then reply h .malformed s else finishScreen h p b.unlock (paintWrites p b s))

/-- FORM (R97, R98), its position checked before its number (assumption 59). -/
def execForm (h : Hdr) (number : Nat) (unlock : Bool) : State → Host.Outcome State Fault Refusal :=
  message h (atPosition h fun p s =>
    if hn : number < 32 then
      match formDesc s ⟨number, hn⟩ with
      | some d => finishScreen h p unlock (showForm p ⟨number, hn⟩ d s)
      | none => reply h .badIndex s
    else reply h .badIndex s)

/-- The writes of a NOTICE (R102). -/
def noticeWrites (p : Pos) (a : Attr) (text : List Byte) (s : State) : State :=
  text.foldl (noticeByte p a) (s.updScreen p (Screen.setReview 0))

/-- NOTICE (R97, R102), its position checked before its body (assumption 59). -/
def execNotice (h : Hdr) (b : NoticeBody) : State → Host.Outcome State Fault Refusal :=
  message h (atPosition h fun p s =>
    match b.attr with
    | none => reply h .malformed s
    | some a => finishScreen h p b.unlock (noticeWrites p a b.text s))

/-! ## Station events -/

/-- REVIEW_UP (R104). -/
def execReviewUp (p : Pos) : State → Host.Outcome State Fault Refusal :=
  event fun s =>
    if (rd s.screens p).review < 12 then s.updScreen p fun sc => sc.setReview (sc.review + 1) else tone p s

/-- REVIEW_DOWN (R104). -/
def execReviewDown (p : Pos) : State → Host.Outcome State Fault Refusal :=
  event fun s =>
    if 0 < (rd s.screens p).review then s.updScreen p fun sc => sc.setReview (sc.review - 1) else tone p s

/-- A screen whose station reports PRESENT (R106). -/
def Screen.arrived (sc : Screen) : Screen := { sc with present := true, inFlight := false, dirty := List.range 20 }

/-- PRESENT (R106). -/
def execPresent (p : Pos) : State → Host.Outcome State Fault Refusal := event fun s => s.updScreen p Screen.arrived

/-- A screen whose row has been taken (R105). -/
def Screen.rowTaken (sc : Screen) : Screen := { sc with inFlight := false }

/-- ROW_TAKEN (R105). -/
def execRowTaken (p : Pos) : State → Host.Outcome State Fault Refusal := event fun s => s.updScreen p Screen.rowTaken

/-- A screen with its lowest dirty row on its way (R105). -/
def Screen.rowSent (rest : List Nat) (sc : Screen) : Screen := { sc with dirty := rest, inFlight := true }

/-- A ROW sent: the row's cells as they stand, HIDDEN ones blanked, and the cursor (R91, R105). -/
def sendRow (p : Pos) (r : Nat) (rest : List Nat) (s : State) : State :=
  emit (.row p r ((rowCells s p r).map sentCell) (rd s.screens p).cursor) (s.updScreen p (Screen.rowSent rest))

/-- ROW_SEND (R105): the station is present, no row is in flight and a row is dirty. -/
def execRowSend (p : Pos) : State → Host.Outcome State Fault Refusal :=
  event fun s =>
    match (rd s.screens p).dirty with
    | r :: rest => if (rd s.screens p).present ∧ (rd s.screens p).inFlight = false then sendRow p r rest s else s
    | [] => s

end Sys2Proof.Machine
end

