-- ==== Sys2Proof/Machine/Tables.lean ====
section
/-! DEFINITION. The Table Store (Sections 1.1, 5.1, 6.3, 8.3, 12.3, 12.4): the checks and effects of TABLE LOADs and the
answers of TABLE QUERYs. -/

namespace Sys2Proof.Machine

/-! ## Loads -/

/-- A load answered: its effect and ACCEPTED, or the status of its first failing check and nothing changed (R175). -/
def answerLoad (h : Hdr) (r : Except Status State) (s : State) : State :=
  match r with
  | .ok t => reply h .accepted t
  | .error st => reply h st s

/-- The entry a load leaves: empty after a clearing load, the content after a defining one (R176). -/
def Content.entry {α : Type} : Content α → Option α
  | .define a => some a
  | _ => none

/-- Whether a load is MALFORMED: a defining load with an item missing or failing its content checks (R176). -/
def Content.bad {α : Type} (ok : α → Bool) : Content α → Bool
  | .clear => false
  | .incomplete => true
  | .define a => !ok a

/-- Whether a string of bytes is printable text. -/
def allPrintable (bs : List Byte) : Bool := bs.all isPrintable

/-- A field's content checks that look at the field alone (R94, R95). DEDUCED (assumption 24): a TEXT field carries 0 for its
decimals. -/
def fieldOk (form : Nat) (f : FieldDesc) : Bool :=
  1 ≤ f.row && f.row ≤ 15 && f.col + fieldWidth f ≤ 80 && 1 ≤ f.length && f.preset.length ≤ f.length &&
  (match f.kind with
    | .text => f.length ≤ 40 && f.decimals == 0 && allPrintable f.preset
    | .numeric => f.length ≤ 15 && f.decimals ≤ 3 && f.decimals < f.length && f.preset.all isDigit) &&
  (!f.prot || (!f.mandatory && f.role == .none)) &&
  match f.role with
  | .none => true
  | .code => f.kind == .numeric && f.length ≤ 3 && f.decimals == 0
  | .currency => f.kind == .numeric && f.length == 1
  | .counterparty => f.kind == .numeric && f.length ≤ 2 && f.decimals == 0
  | .amount => f.kind == .numeric
  | .account => f.kind == .text && f.length ≤ 19
  | .count c => f.kind == .numeric && c ≤ 7 && form == 1

/-- Fields in ascending order of row and column, no two sharing a cell (R95). -/
def fieldsOrdered : List FieldDesc → Bool
  | f :: g :: rest => (f.row < g.row || (f.row == g.row && f.col + fieldWidth f ≤ g.col)) && fieldsOrdered (g :: rest)
  | _ => true

/-- No role but NONE on two fields, nor COUNT twice for one slot (R95). -/
def rolesOnce : List FieldDesc → Bool
  | [] => true
  | f :: rest => (f.role == .none || rest.all fun g => g.role != f.role) && rolesOnce rest

/-- Whether a form has a field of a role. -/
def hasRole (fs : List FieldDesc) (r : FieldRole) : Bool := fs.any fun f => f.role == r

/-- The content checks of a Form Fields load (R95). -/
def formOk (form : Nat) (d : FormDesc) : Bool :=
  d.fields.length ≤ 24 && d.fields.all (fieldOk form) && fieldsOrdered d.fields && rolesOnce d.fields &&
  (d.fixedCode.all fun c => 1 ≤ c && c ≤ 255) &&
  (if d.standIn then form != 0 && form != 1 && hasRole d.fields .amount &&
      (hasRole d.fields .code != d.fixedCode.isSome)
    else d.fixedCode.isNone)

/-- Whether a position's current form is a form (R95, step 3). -/
def formInUse (s : State) (n : Nat) : Bool := allPos.any fun p => (rd s.screens p).form.any fun m => m.val == n

/-- A Form Fields load (R95). -/
def loadFormFields (h : Hdr) (i : Nat) (c : Content FormDesc) (s : State) : State :=
  answerLoad h
    (if ¬ i < 32 then .error .badIndex
     else if Content.bad (formOk i) c then .error .malformed
     else if formInUse s i then .error .inUse
     else .ok (s.updTables fun t => { t with forms := updN t.forms i fun _ => Content.entry c })) s

/-- A Form Text load (R95). -/
def loadFormText (h : Hdr) (i : Nat) (c : Content FormText) (s : State) : State :=
  answerLoad h
    (if ¬(i < 512 ∧ i % 16 ≠ 0) then .error .badIndex
     else if Content.bad (fun t : FormText => t.text.length ≤ 80) c then .error .malformed
     else if formInUse s (i / 16) then .error .inUse
     else .ok (s.updTables fun t => { t with texts := updN t.texts i fun _ => Content.entry c })) s

/-- The content checks of a Posting Codes load (R3). -/
def codeOk (e : CodeEntry) : Bool :=
  e.name.length == 8 && allPrintable e.name && e.limitClass ≤ 3 &&
  (if e.cls == .nonCash then (e.generalLine.any fun l => 8 ≤ l && l ≤ 12) && e.direction.isSome
    else e.generalLine.isNone && e.direction.isNone) &&
  (!e.passbook || e.cls == .cashIn || e.cls == .cashOut || e.cls == .nonCash)

/-- A Posting Codes load (R3). -/
def loadCode (h : Hdr) (i : Nat) (c : Content CodeEntry) (s : State) : State :=
  answerLoad h
    (if ¬(1 ≤ i ∧ i < 256) then .error .badIndex
     else if Content.bad codeOk c then .error .malformed
     else .ok (s.updTables fun t => { t with codes := updN t.codes i fun _ => Content.entry c })) s

/-- The content checks of a Currencies load: the ranges of R1, and a code no other defined slot has. -/
def currencyOk (s : State) (i : Nat) (e : CurrencyEntry) : Bool :=
  e.code.length == 3 && (e.code.all fun b => 0x41 ≤ b.toNat && b.toNat ≤ 0x5A) && e.exponent ≤ 3 &&
  1 ≤ e.unit && e.unit ≤ 1000 &&
  (List.finRange 8).all fun c => c.val == i || (rd s.tables.currencies c).all fun f => f.code != e.code

/-- A Currencies load, taken only while the day is CLOSED (R1). -/
def loadCurrency (h : Hdr) (i : Nat) (c : Content CurrencyEntry) (s : State) : State :=
  answerLoad h
    (if ¬ i < 8 then .error .badIndex
     else if ¬(s.day.state = .closed true ∨ s.day.state = .closed false) then .error .dayState
     else if Content.bad (currencyOk s i) c then .error .malformed
     else .ok (s.updTables fun t => { t with currencies := updN t.currencies i fun _ => Content.entry c })) s

/-- The content checks of a Rates load (R2). -/
def rateOk (e : RateEntry) : Bool :=
  e.buy ≤ Config.maxAmount && e.sell ≤ Config.maxAmount && (e.buy == 0 || e.sell == 0 || e.buy ≤ e.sell)

/-- A Rates load: the entry replaced or cleared and the slot's serial moved on by one, wrapping from 65,535 to 0 (R2). -/
def loadRate (h : Hdr) (i : Nat) (c : Content RateEntry) (s : State) : State :=
  answerLoad h
    (if ¬(1 ≤ i ∧ i < 8) then .error .badIndex
     else if Content.bad rateOk c then .error .malformed
     else .ok (s.updTables fun t =>
       { t with rates := updN t.rates i fun _ => Content.entry c, serials := updN t.serials i fun n => (n + 1) % 65536 })) s

/-- A Limit Classes load (R4). -/
def loadLimit (h : Hdr) (i : Nat) (c : Content Nat) (s : State) : State :=
  answerLoad h
    (if ¬ i < 4 then .error .badIndex
     else if Content.bad (fun n : Nat => n ≤ Config.maxAmount) c then .error .malformed
     else .ok (s.updTables fun t => { t with limits := updN t.limits i fun _ => Content.entry c })) s

/-- The content checks of a Positions load (R76, R77 step 2). -/
def positionOk (i : Nat) (e : PositionEntry) : Bool :=
  e.home ≤ 3 && (e.alternate.all fun a => a ≤ 3) && e.budget ≤ Config.maxAmount && (i != 0 || e.role == .leader)

/-- Whether any position of the group of a position is BALANCING, with the groups of a Positions table. -/
def groupBalancing (s : State) (t : Vector (Option PositionEntry) 16) (p : Pos) : Bool :=
  (groupOf t p).any fun q => (rd s.posns q).state == .balancing

/-- A Positions load (R77). -/
def loadPosition (h : Hdr) (i : Nat) (c : Content PositionEntry) (s : State) : State :=
  answerLoad h
    (match posOf i with
     | none => .error .badIndex
     | some p =>
       let old := s.tables.positions
       let new := wr old p (Content.entry c)
       if Content.bad (positionOk i) c then .error .malformed
       else if (rd s.posns p).state ≠ .signedOff then .error .positionState
       else if isLeader old p ≠ isLeader new p ∧ (groupBalancing s old p ∨ groupBalancing s new p) then .error .memberBalancing
       else .ok (s.updTables fun t => { t with positions := new })) s

/-- Whether two column ranges share no column. -/
def apart (a b : Nat × Nat) : Bool := a.1 + a.2 ≤ b.1 || b.1 + b.2 ≤ a.1

/-- Whether the ranges of a list are apart in pairs. -/
def allApart : List (Nat × Nat) → Bool
  | [] => true
  | a :: rest => rest.all (apart a) && allApart rest

/-- The content checks of a Book Layouts load (R133). -/
def layoutOk (y : Layout) : Bool :=
  1 ≤ y.linesPerPage && y.linesPerPage ≤ 40 && 1 ≤ y.pages && y.pages ≤ 32 && y.fold < y.linesPerPage &&
  y.dateCol ≤ 72 && y.nameCol ≤ 72 && y.amountCol ≤ 78 && y.balanceCol ≤ 78 && y.markCol ≤ 79 &&
  2 ≤ y.amountWidth && y.amountWidth ≤ 20 && 2 ≤ y.balanceWidth && y.balanceWidth ≤ 20 &&
  y.amountCol + y.amountWidth ≤ 80 && y.balanceCol + y.balanceWidth ≤ 80 &&
  allApart [(y.dateCol, 8), (y.nameCol, 8), (y.amountCol, y.amountWidth), (y.balanceCol, y.balanceWidth), (y.markCol, 1)]

/-- Whether every printer is OFFLINE or EMPTY and every job queue empty (R133, step 3). -/
def printersIdle (s : State) : Bool :=
  allPrn.all fun n =>
    ((rd s.printers n).state == .offline || (rd s.printers n).state == .empty) && (rd s.queues n).isEmpty

/-- A Book Layouts load (R133). -/
def loadLayout (h : Hdr) (i : Nat) (c : Content Layout) (s : State) : State :=
  answerLoad h
    (if ¬ i < 4 then .error .badIndex
     else if Content.bad layoutOk c then .error .malformed
     else if printersIdle s = false then .error .printersBusy
     else .ok (s.updTables fun t => { t with layouts := updN t.layouts i fun _ => Content.entry c })) s

/-- The content checks of a Parameters load (R178). -/
def paramsOk (e : Params) : Bool :=
  10 ≤ e.lineTimer && e.lineTimer ≤ 600 && 5 ≤ e.entryTimer && e.entryTimer ≤ 300 && 5 ≤ e.ackTimer && e.ackTimer ≤ 120 &&
  1 ≤ e.retryLimit && e.retryLimit ≤ 15 && 15 ≤ e.bookWait && e.bookWait ≤ 600

/-- A Parameters load; a clearing load restores the defaults (R178). -/
def loadParams (h : Hdr) (i : Nat) (c : Content Params) (s : State) : State :=
  answerLoad h
    (if i ≠ 0 then .error .badIndex
     else if Content.bad paramsOk c then .error .malformed
     else .ok (s.updTables fun t => { t with params := (Content.entry c).getD Params.initial })) s

/-! ## The common checks -/

/-- The index range of a table (section 12.3). -/
def indexOk (t i : Nat) : Bool :=
  match t with
  | 1 => i < 32
  | 2 => i < 512 && i % 16 != 0
  | 3 => 1 ≤ i && i ≤ 255
  | 4 => i < 8
  | 5 => 1 ≤ i && i ≤ 7
  | 6 => i < 4
  | 7 => i < 16
  | 8 => i < 4
  | 9 => i == 0
  | 10 => i < 16
  | 11 => i < 4
  | 12 => i == 0
  | 13 => i == 0
  | _ => false

/-- A TABLE LOAD by its table id and index, with no content beyond them (R175, R176): tables 10 to 13 are READ_ONLY, an
unknown table BAD_INDEX, a body without id and index MALFORMED, and a table of 1 to 9 is cleared by its own rule. -/
def loadBare (h : Hdr) (body : Option (Nat × Nat)) (s : State) : State :=
  match body with
  | none => reply h .malformed s
  | some (t, i) =>
    match t with
    | 1 => loadFormFields h i .clear s
    | 2 => loadFormText h i .clear s
    | 3 => loadCode h i .clear s
    | 4 => loadCurrency h i .clear s
    | 5 => loadRate h i .clear s
    | 6 => loadLimit h i .clear s
    | 7 => loadPosition h i .clear s
    | 8 => loadLayout h i .clear s
    | 9 => loadParams h i .clear s
    | t => if 10 ≤ t ∧ t ≤ 13 then reply h .readOnly s else reply h .badIndex s

/-! ## Queries -/

/-- The live record of a position (R79). -/
def liveRecord (s : State) (p : Pos) : LiveRec :=
  let r := rd s.posns p
  { state := r.state, teller := r.teller, entryNo := r.entryNo, outstanding := r.outstanding, inDoubt := r.inDoubt,
    usage := r.usage, form := (rd s.screens p).form, captureNo := (rd s.drawers p).captureNo, balKind := balanceKind s p }

/-- The answer to a printer status query (R149). -/
def printerStatus (s : State) (n : Prn) : PrinterStatus :=
  let r := rd s.printers n
  { state := r.state, timerRuns := r.timer.isSome, head := (rd s.queues n).head?, queue := rd s.queues n,
    ejectJob := r.ejectJob, reason := r.reason, layoutType := r.layoutType, openPage := r.openPage,
    nextPage := r.nextPage, nextLine := r.nextLine, job := r.job.view }

/-- The undelivered mark of the day (R40, R52): the day state's in CLOSED, the control record's in any other day state. -/
def undeliveredMark (s : State) : Bool :=
  match s.day.state with
  | .closed u => u
  | _ => s.nv.control.fields.undelivered

/-- The answer to a journal status query (R52). DESIGN CHOICE (assumption 52): while the control record does not check good
the answer carries its fields as they stand, and no business date. -/
def journalStatus (s : State) : JournalStatus :=
  let f := s.nv.control.fields
  { date := s.day.date, day := s.day.state, undelivered := undeliveredMark s, slotsUsed := f.slotsUsed,
    entryCount := f.entryCount, nextSeq := nextSeq s, delivered := f.delivered, pendingCount := s.jc.pendingCount, unreadable := s.jc.unreadable, lowSpace := s.jc.lowSpace,
    recovering := s.day.state == .recovering }

/-- The answer to a day and line status query (R74). -/
def dayStatus (s : State) : DayStatus :=
  { date := s.day.date, day := s.day.state, recovering := s.day.state == .recovering, time := s.clock.time,
    isSet := s.clock.isSet, midnights := s.clock.midnights, alarm := s.day.alarm.map (·.second),
    closeDate := s.nv.retained.date, retainedGood := retainedGood s, line := s.line.state }

/-- The content of the answer to a query of a table and an index in its range (R177). -/
def queryContent (s : State) (t i : Nat) : Answer :=
  match t with
  | 1 => ((rdN s.tables.forms i).join).elim .empty .form
  | 2 => ((rdN s.tables.texts i).join).elim .empty .text
  | 3 => ((rdN s.tables.codes i).join).elim .empty .code
  | 4 => ((rdN s.tables.currencies i).join).elim .empty .currency
  | 5 => .rates (rdN s.tables.rates i).join ((rdN s.tables.serials i).getD 0)
  | 6 => ((rdN s.tables.limits i).join).elim .empty .limit
  | 7 => (posOf i).elim .empty fun p => .position (positionEntry s p) (liveRecord s p)
  | 8 => ((rdN s.tables.layouts i).join).elim .empty .layout
  | 9 => .params s.tables.params
  | 10 => (posOf i).elim .empty fun p =>
    let d := rd s.drawers p
    .drawer d.lines d.captureNo (balanceKind s p)
  | 11 => (prnOf i).elim .empty fun n => .printer (printerStatus s n)
  | 12 => .journal (journalStatus s)
  | 13 => .day (dayStatus s)
  | _ => .empty

/-- The empty flag of an answer (R177). -/
def Answer.isEmpty : Answer → Bool
  | .empty => true
  | .rates none _ => true
  | .position none _ => true
  | _ => false

/-- A TABLE QUERY answered: BAD_INDEX for an unknown table or an index outside it, else ACCEPTED with the content
(R175, R177). -/
def answerQuery (h : Hdr) (t i : Nat) (s : State) : State :=
  if indexOk t i then
    let c := queryContent s t i
    replyWith h .accepted (.query t i c.isEmpty c) s
  else reply h .badIndex s

end Sys2Proof.Machine
end

