-- ==== Sys2Proof/Machine/TableCommands.lean ====
section
/-! DEFINITION. The commands of the Table Store (Sections 1.1, 2.7, 3.4, 4.6, 5.1, 6.3, 8.3, 9.10, 12.3, 12.4): the nine
loads, the load of a read-only table, and the six queries. -/

namespace Sys2Proof.Machine

/-- FORM_FIELDS_LOAD (R95). -/
def execFormFieldsLoad (h : Hdr) (index : Nat) (c : Content FormDesc) : State → Host.Outcome State Fault Refusal :=
  tableMessage (loadFormFields h index c)

/-- FORM_TEXT_LOAD (R95). -/
def execFormTextLoad (h : Hdr) (index : Nat) (c : Content FormText) : State → Host.Outcome State Fault Refusal :=
  tableMessage (loadFormText h index c)

/-- POSTING_CODES_LOAD (R3). -/
def execPostingCodesLoad (h : Hdr) (index : Nat) (c : Content CodeEntry) : State → Host.Outcome State Fault Refusal :=
  tableMessage (loadCode h index c)

/-- CURRENCIES_LOAD (R1). -/
def execCurrenciesLoad (h : Hdr) (index : Nat) (c : Content CurrencyEntry) : State → Host.Outcome State Fault Refusal :=
  tableMessage (loadCurrency h index c)

/-- RATES_LOAD (R2). -/
def execRatesLoad (h : Hdr) (index : Nat) (c : Content RateEntry) : State → Host.Outcome State Fault Refusal :=
  tableMessage (loadRate h index c)

/-- LIMIT_CLASSES_LOAD (R4). -/
def execLimitClassesLoad (h : Hdr) (index : Nat) (c : Content Nat) : State → Host.Outcome State Fault Refusal :=
  tableMessage (loadLimit h index c)

/-- POSITIONS_LOAD (R77). -/
def execPositionsLoad (h : Hdr) (index : Nat) (c : Content PositionEntry) : State → Host.Outcome State Fault Refusal :=
  tableMessage (loadPosition h index c)

/-- BOOK_LAYOUTS_LOAD (R133). -/
def execBookLayoutsLoad (h : Hdr) (index : Nat) (c : Content Layout) : State → Host.Outcome State Fault Refusal :=
  tableMessage (loadLayout h index c)

/-- PARAMETERS_LOAD (R178). -/
def execParametersLoad (h : Hdr) (index : Nat) (c : Content Params) : State → Host.Outcome State Fault Refusal :=
  tableMessage (loadParams h index c)

/-- TABLE_LOAD_READ_ONLY (R175): a TABLE LOAD known by its id and index alone. -/
def execTableLoadReadOnly (h : Hdr) (body : Option (Nat × Nat)) : State → Host.Outcome State Fault Refusal :=
  tableMessage (loadBare h body)

/-- TABLE_QUERY (R175, R177). -/
def execTableQuery (h : Hdr) (body : Option (Nat × Nat)) : State → Host.Outcome State Fault Refusal :=
  tableMessage fun s =>
    match body with
    | none => reply h .malformed s
    | some (t, i) => answerQuery h t i s

/-- POSITIONS_QUERY (R79). -/
def execPositionsQuery (h : Hdr) (index : Nat) : State → Host.Outcome State Fault Refusal :=
  tableMessage (answerQuery h 7 index)

/-- DRAWER_QUERY (R37). -/
def execDrawerQuery (h : Hdr) (index : Nat) : State → Host.Outcome State Fault Refusal :=
  tableMessage (answerQuery h 10 index)

/-- PRINTER_STATUS_QUERY (R149). -/
def execPrinterStatusQuery (h : Hdr) (index : Nat) : State → Host.Outcome State Fault Refusal :=
  tableMessage (answerQuery h 11 index)

/-- JOURNAL_STATUS_QUERY (R52). -/
def execJournalStatusQuery (h : Hdr) (index : Nat) : State → Host.Outcome State Fault Refusal :=
  tableMessage (answerQuery h 12 index)

/-- DAY_AND_LINE_STATUS_QUERY (R74). -/
def execDayAndLineStatusQuery (h : Hdr) (index : Nat) : State → Host.Outcome State Fault Refusal :=
  tableMessage (answerQuery h 13 index)

end Sys2Proof.Machine
end

