-- ==== Sys2Proof/Machine/TransferCommands.lean ====
section
/-! DEFINITION. The Transfer Engine's events (Sections 11.3 to 11.5) and RESTART (Section 12.5): the commands
TRANSFER_ACK, RESTART, TRANSFER_LINE_LOSS, TRANSFER_LINE_RETURN, TRANSFER_RECOVERY_FINISH and ACK_TIMER_EXPIRY. -/

namespace Sys2Proof.Machine

/-! ## Acknowledgement -/

/-- Whether a TRANSFER ACK passes the four tests of R164 against the batch record. -/
def ackPasses (e : EngineState) (b : Batch) (a : AckBody) : Bool :=
  (e == .active || e == .paused) && a.batch == b.number && b.acked < a.through && a.through ≤ b.highest

/-- A TRANSFER ACK taken by the engine (R164). Its body is whole, and its status ACCEPT or REFUSE (assumption 57, the
model's choice). -/
def takeAck (a : AckBody) (s : State) : State :=
  match s.engine.batch with
  | none => s
  | some b =>
    if ackPasses s.engine.state b a then
      match a.status with
      | .accept => acceptAck b a.through s
      | .refuse => refuseAck b a.through s
    else s

/-- TRANSFER_ACK (R164). -/
def execTransferAck (h : EngineHdr) (b : AckBody) : State → Host.Outcome State Fault Refusal :=
  silentMessage (withNotices h.noticesFirst (takeAck b))

/-- Another expiry without progress counted (R165). -/
def Batch.retry (b : Batch) : Batch := { b with retries := b.retries + 1 }

/-- The ack timer's expiry in ACTIVE (R165). -/
def expireAck (b : Batch) (s : State) : State :=
  let s := updBatch Batch.retry s
  if s.tables.params.retryLimit < b.retries + 1 then failBatch .retries s else resendAll s

/-- ACK_TIMER_EXPIRY (R165): the ack timer has counted its length. -/
def execAckTimerExpiry : State → Host.Outcome State Fault Refusal :=
  event fun s =>
    match s.engine.batch with
    | some b => if s.engine.state = .active ∧ Timer.due s.engine.timer then expireAck b s else s
    | none => s

/-! ## Notices of the line -/

/-- TRANSFER_LINE_LOSS (R166): the oldest notice the engine has yet to take is a loss. -/
def execTransferLineLoss : State → Host.Outcome State Fault Refusal :=
  event fun s =>
    match s.engine.notices with
    | .loss :: rest => engineLoss (s.updEngine fun e => { e with notices := rest })
    | _ => s

/-- TRANSFER_LINE_RETURN (R167): the oldest notice the engine has yet to take is a return. -/
def execTransferLineReturn : State → Host.Outcome State Fault Refusal :=
  event fun s =>
    match s.engine.notices with
    | .back :: rest => engineReturn (s.updEngine fun e => { e with notices := rest })
    | _ => s

/-- TRANSFER_RECOVERY_FINISH (R167): the engine takes the finish of a recovery, with the line ONLINE as a return in IDLE. -/
def execTransferRecoveryFinish : State → Host.Outcome State Fault Refusal :=
  event fun s =>
    if s.engine.recoveryDone then
      let s := s.updEngine fun e => { e with recoveryDone := false }
      if s.line.state = .online then startFromIdle s else s
    else s

/-! ## RESTART -/

/-- A key unit at RESTART: queue emptied, entry timer stopped (R123, R179). -/
def KeyUnit.restart (k : KeyUnit) : KeyUnit := { k with queue := [], timer := none }

/-- The form a repaint shows: the form of the position's state (R107). -/
def repaintForm (s : State) (p : Pos) : Option (Fin 32) :=
  match (rd s.posns p).state with
  | .signedOff => some 0
  | .balancing => some 1
  | .ready => (rd s.screens p).form
  | .awaiting => (rd s.screens p).form

/-- The end of a repaint: review offset 0, no row in flight, all twenty rows dirty (R107). -/
def Screen.repainted (sc : Screen) : Screen := { sc with review := 0, inFlight := false, dirty := List.range 20 }

/-- A position repainted (R107). -/
def repaint (p : Pos) (s : State) : State := (showByPart p (repaintForm s p) s).updScreen p Screen.repainted

/-- The Transfer Engine's part in a RESTART (R167). -/
def restartEngine (s : State) : State :=
  match s.engine.state with
  | .active => resendAll s
  | .paused => resumePaused s
  | .idle => s
  | .failed => s

/-- A RESTART that is taken (R179): the engine takes its part before or after the line notices that wait (R167). -/
def restart (noticesFirst : Bool) (s : State) : State :=
  let s := { s with keys := mapV s.keys KeyUnit.restart }
  let s := eachPos repaint (eachPos release s)
  withNotices noticesFirst restartEngine (removeAllJobs s)

/-- RESTART (R179). -/
def execRestart (h : EngineHdr) : State → Host.Outcome State Fault Refusal := silentMessage (restart h.noticesFirst)

end Sys2Proof.Machine
end

