-- ==== Sys2Proof/Machine/Wire.lean ====
section
/-! DEFINITION. The byte layouts of Section 12.6 (R172, R180, R181): frames, REPLY, REPORT, BLOCK and ENTRY messages as
they leave on the Trunk Port, and journal entries as they lie in their slots. Parts the manual gives no layout for are
free (assumption 12). -/

namespace Sys2Proof.Machine

/-! ## Codes -/

/-- The kind code of each inbound kind (R180). -/
def kindPaint : Byte := 0x10
def kindForm : Byte := 0x11
def kindNotice : Byte := 0x12
def kindPost : Byte := 0x20
def kindBookLines : Byte := 0x21
def kindTableLoad : Byte := 0x30
def kindTableQuery : Byte := 0x31
def kindDayControl : Byte := 0x40
def kindPositionControl : Byte := 0x41
def kindTransferAck : Byte := 0x50
def kindRestart : Byte := 0x60
def kindLineCheck : Byte := 0x61

/-- The inbound kind codes (R180). -/
def inboundKinds : List Byte :=
  [kindPaint, kindForm, kindNotice, kindPost, kindBookLines, kindTableLoad, kindTableQuery, kindDayControl,
   kindPositionControl, kindTransferAck, kindRestart, kindLineCheck]

/-- The kind code of an outbound message (R180). -/
def outKind : OutBody → Byte
  | .entry .. => 0x80
  | .reply .. => 0x81
  | .report .. => 0x82
  | .block .. => 0x83

/-- The status code of a REPLY (R180); the seven statuses only a teller sees have none. -/
def statusCode : Status → Option Byte
  | .accepted => some 0x00
  | .malformed => some 0x01
  | .unknownKind => some 0x02
  | .badPosition => some 0x03
  | .badIndex => some 0x04
  | .readOnly => some 0x05
  | .inUse => some 0x06
  | .printersBusy => some 0x07
  | .dayState => some 0x08
  | .recovering => some 0x09
  | .clockUnset => some 0x0A
  | .noLocalCurrency => some 0x0B
  | .dateNotLater => some 0x0C
  | .undeliveredDay => some 0x0D
  | .retainedBad => some 0x0E
  | .cashUnitMismatch => some 0x0F
  | .cutoffArmed => some 0x10
  | .journalFull => some 0x11
  | .codeUndefined => some 0x12
  | .currencyUndefined => some 0x13
  | .rateUnset => some 0x14
  | .amountRange => some 0x15
  | .notCashable => some 0x16
  | .badCounterparty => some 0x17
  | .notLeader => some 0x18
  | .memberBalancing => some 0x19
  | .positionState => some 0x1A
  | .afterCutoff => none
  | .tellerState => none
  | .formNotStandin => none
  | .codeNotStandin => none
  | .overLimit => none
  | .budgetExhausted => none
  | .counterpartyBalancing => none

/-- The event code of a REPORT (R180). -/
def eventCode : Report → Byte
  | .attention .. => 0x01
  | .captureTaken .. => 0x02
  | .declaration .. => 0x03
  | .groupComplete .. => 0x04
  | .cutoffReached .. => 0x05
  | .dayClosing .. => 0x06
  | .dayClosed .. => 0x07
  | .retainedWriteFailed .. => 0x08
  | .journalLow .. => 0x09
  | .recoveryDone .. => 0x0A
  | .latePosting .. => 0x0B
  | .printResult .. => 0x0C
  | .printerState .. => 0x0D
  | .transferComplete .. => 0x0E
  | .transferFailed .. => 0x0F

/-! ## Frames -/

/-- The six header bytes of a frame (R180). -/
def headerBytes (kind : Byte) (pos tag length : Nat) : List Byte :=
  [kind] ++ natBytes 1 pos ++ natBytes 2 tag ++ natBytes 2 length

/-- A frame (R172): the sync pair, the header, the body and the CRC over header and body. -/
def frame (kind : Byte) (pos tag : Nat) (body : List Byte) : List Byte :=
  let covered := headerBytes kind pos tag body.length ++ body
  [0xC3, 0x3C] ++ covered ++ natBytes 2 (crc16 covered).toNat

/-! ## Journal entries -/

/-- A value as a byte that is 1 or 0. -/
def flagByte (b : Bool) : Byte := if b then 1 else 0

/-- The print state of the states byte (R181). -/
def printCode : PrintState → Nat
  | .none => 0
  | .stored => 1
  | .printed => 2
  | .overflow => 3
  | .backlogged => 4

/-- The forward state of the states byte (R181). -/
def forwardCode : ForwardState → Nat
  | .notNeeded => 0
  | .pending => 1
  | .forwarded => 2

/-- The common header of an entry, with its states byte (R181). -/
def entryHeader (e : Entry) : List Byte :=
  natBytes 2 e.seq ++ natBytes 1 e.kind ++ natBytes 1 e.size ++ natBytes 3 e.time ++ [flagByte e.clockMark] ++
    natBytes 1 (printCode e.print + 16 * forwardCode e.fwd)

/-- Bytes padded with zeros, or cut, to a length. -/
def zeroTo (n : Nat) (bs : List Byte) : List Byte := (bs ++ List.replicate (n - bs.length) 0).take n

/-- The class byte of a POSTING entry (R181). -/
def classByte (c : PClass) (d : Option Direction) : Nat :=
  match c with
  | .cashIn => 1
  | .cashOut => 2
  | .exchangeBuy => 3
  | .exchangeSell => 4
  | .nonCash => if d = some .decrease then 6 else 5
  | .internal => 7

/-- The marks byte of a POSTING entry (R181). -/
def postingMarks (r : PostingRec) : Nat :=
  (if r.origin = .standIn then 0x01 else 0) + (if r.late then 0x02 else 0) + (if r.book.isSome then 0x04 else 0) +
  (if r.yielded.isSome then 0x08 else 0) + (if r.account.isSome then 0x10 else 0) +
  (if r.entryRef.isSome then 0x20 else 0) + (if r.balance.isSome then 0x40 else 0)

/-- A leg place of a POSTING entry (R181). -/
def legBytes (g : Leg) : List Byte := natBytes 1 g.pos ++ natBytes 1 g.line ++ intBytes 6 g.amount

/-- Account digits packed two to a byte from the first, the unused half byte zero (R181). -/
def packDigits : List (Fin 10) → List Byte
  | [] => []
  | [a] => [BitVec.ofNat 8 (a.val * 16)]
  | a :: b :: rest => BitVec.ofNat 8 (a.val * 16 + b.val) :: packDigits rest

/-- A POSTING entry from byte 9 to byte 127 (R181). -/
def postingBytes (r : PostingRec) : List Byte :=
  natBytes 1 r.pos ++ natBytes 1 (postingMarks r) ++ natBytes 1 r.code ++ natBytes 1 r.slot ++
  natBytes 1 (classByte r.cls r.direction) ++ natBytes 2 r.serial ++ natBytes 6 r.amount ++ natBytes 6 r.value ++
  natBytes 1 r.legs.length ++ zeroTo 32 (r.legs.flatMap legBytes) ++ natBytes 2 (r.entryRef.getD 0) ++ [0] ++
  natBytes 1 (r.account.elim 0 (·.length)) ++ zeroTo 10 (r.account.elim [] packDigits) ++ intBytes 8 (r.balance.getD 0) ++
  zeroTo 8 (r.yielded.elim [] (·.name)) ++ intBytes 6 (r.yielded.elim 0 (·.amount)) ++
  natBytes 1 (r.yielded.elim 0 (·.exponent)) ++ natBytes 1 (r.book.elim 0 (·.bookType)) ++
  natBytes 1 (r.book.elim 0 (·.page)) ++ natBytes 1 (r.book.elim 0 (·.line)) ++ List.replicate 27 0

/-- The part of a declaration about a slot, if the slot took part. -/
def slotOf (r : DeclRec) (c : Fin 8) : Option DeclSlot := r.slots.find? fun x => x.slot == c

/-- A set of slots as a byte: bit n for slot n (R181). -/
def slotBits (f : Fin 8 → Bool) : Nat := ((List.finRange 8).map fun c => if f c then 2 ^ c.val else 0).sum

/-- A DECLARATION entry from byte 9 to byte 255 (R181). -/
def declarationBytes (r : DeclRec) : List Byte :=
  natBytes 1 r.pos ++ natBytes 1 (if r.kind = .interim then 1 else 2) ++ natBytes 1 r.number ++
  natBytes 1 (slotBits fun c => (slotOf r c).isSome) ++
  natBytes 1 (slotBits fun c => ((slotOf r c).bind (·.overShort)).isSome) ++
  ((List.finRange 8).flatMap fun c => (slotOf r c).elim (List.replicate 18 0) fun x =>
    natBytes 6 x.count ++ intBytes 6 x.live ++ intBytes 6 x.diff) ++
  ((List.finRange 8).flatMap fun c => intBytes 6 (((slotOf r c).bind (·.overShort)).getD 0)) ++
  ((List.finRange 8).drop 1).flatMap (fun c => natBytes 2 ((slotOf r c).elim 0 (·.serial))) ++
  List.replicate 36 0

/-- A journal entry as it lies in its slots, 64 bytes each (R39, R181). -/
def entryBytes (e : Entry) : List Byte :=
  let rest := match e.body with
    | .posting r => postingBytes r
    | .declaration r => declarationBytes r
    | b => Config.entryRestBytes b
  zeroTo (64 * e.size) (entryHeader e ++ rest)

/-! ## Outbound messages -/

/-- The thirteen header bytes of a BLOCK body (R181). -/
def blockHeader (b : BlockHdr) : List Byte :=
  natBytes 1 (if b.kind = .forward then 1 else 2) ++ natBytes 1 b.batch ++ natBytes 2 b.block ++ dateBytes b.date ++
    natBytes 2 b.firstSeq ++ natBytes 1 b.entries ++ natBytes 1 b.slots ++ [flagByte b.final]

/-- The bytes of a TABLE QUERY's content (R177, R180): none for an empty entry. -/
def contentBytes : Answer → List Byte
  | .empty => []
  | c => Config.answerBytes c

/-- The body of a REPLY (R180). -/
def replyBytes (st : Status) (x : Extra) : List Byte :=
  (statusCode st).elim [] (fun c => [c]) ++
    match x with
    | .none => []
    | .kept n => natBytes 1 n
    | .query t i empty c => natBytes 1 t ++ natBytes 2 i ++ [flagByte empty] ++ contentBytes c

/-- The body of an outbound message (R117, R180, R181). -/
def bodyBytes : OutBody → List Byte
  | .entry p n f fields => Config.entryMessageBytes p n f fields
  | .reply st x => replyBytes st x
  | .report r => eventCode r :: Config.reportBytes r
  | .block b es => blockHeader b ++ es.flatMap entryBytes

/-- An outbound message as the Trunk Port sends it (R172, R174, R180). -/
def messageBytes (m : OutMsg) : List Byte := frame (outKind m.body) m.pos m.tag (bodyBytes m.body)

end Sys2Proof.Machine
end

