-- ==== Sys2Proof/Machine/Trunk.lean ====
section
/-! DEFINITION. The Trunk Port (Sections 10.1 and 12.1, 12.2): the commands UNKNOWN_KIND, LINE_CHECK, LINE_LOSS,
 OUTBOUND_SEND_START and OUTBOUND_SEND_DONE. -/

namespace Sys2Proof.Machine

/-- UNKNOWN_KIND (R173): a message of a kind code that names no inbound kind. A code that names one makes no such message,
and the command then changes nothing (assumption 2). -/
def execUnknownKind (h : Hdr) (kind : Byte) : State → Host.Outcome State Fault Refusal :=
  if inboundKinds.contains kind then event id else message h (reply h .unknownKind)

/-- LINE_CHECK (R151, R153, R173): what every valid message does, in every day state, and nothing else. -/
def execLineCheck (_h : Hdr) : State → Host.Outcome State Fault Refusal := event arrive

/-- The line loss (R152). -/
def loseLine (s : State) : State :=
  let s := s.updLine fun l => { l with state := .standIn, timer := none }
  let s := eachPos release s
  let s := markRow0All (noticeAll textLineDown s)
  s.updEngine fun e => { e with notices := e.notices ++ [.loss] }

/-- LINE_LOSS (R152): the line timer has counted its length while the line is ONLINE. -/
def execLineLoss : State → Host.Outcome State Fault Refusal :=
  event fun s => if s.line.state = .online ∧ Timer.due s.line.timer then loseLine s else s

/-- OUTBOUND_SEND_START (R174): the port is free and the queue not empty. -/
def execOutboundSendStart : State → Host.Outcome State Fault Refusal :=
  event fun s =>
    match s.line.outbound with
    | m :: _ => if s.line.sending then s else emit (.sendStart m) (s.updLine fun l => { l with sending := true })
    | [] => s

/-- OUTBOUND_SEND_DONE (R174, R163): the message leaves the queue, and a block that waits is offered. -/
def execOutboundSendDone : State → Host.Outcome State Fault Refusal :=
  event fun s =>
    match s.line.outbound with
    | m :: rest =>
      if s.line.sending then
        offer (emit (.sendDone m) (s.updLine fun l => { l with outbound := rest, sending := false }))
      else s
    | [] => s

end Sys2Proof.Machine
end

