-- ==== Sys2Proof/Machine/Inbound.lean ====
section
/-! DEFINITION. Inbound bytes (R172, R173, R180): the command a framed message stands for, its taking, and FRAME_DISCARD,
which carries the framer over bytes and hands on the valid messages among them. -/

namespace Sys2Proof.Machine

/-! ## From a frame to its command -/

/-- The content of a TABLE LOAD whose body goes on after table id and index (R176). -/
def contentOf {α : Type} (x : Option α) : Content α := x.elim .incomplete .define

/-- A two-byte integer, high byte first (R180). -/
def pairValue (hi lo : Byte) : Nat := hi.toNat * 256 + lo.toNat

/-- The TABLE LOAD a body spells (R175, R176): a body of exactly three bytes is a clearing load. -/
def loadCommand (h : Hdr) : List Byte → Instr
  | [t, i, j] => .tableLoadReadOnly h (some (t.toNat, pairValue i j))
  | t :: i :: j :: rest =>
    let n := pairValue i j
    match t.toNat with
    | 1 => .formFieldsLoad h n (contentOf (Config.formContent rest))
    | 2 => .formTextLoad h n (contentOf (Config.textContent rest))
    | 3 => .postingCodesLoad h n (contentOf (Config.codeContent rest))
    | 4 => .currenciesLoad h n (contentOf (Config.currencyContent rest))
    | 5 => .ratesLoad h n (contentOf (Config.rateContent rest))
    | 6 => .limitClassesLoad h n (contentOf (Config.limitContent rest))
    | 7 => .positionsLoad h n (contentOf (Config.positionContent rest))
    | 8 => .bookLayoutsLoad h n (contentOf (Config.layoutContent rest))
    | 9 => .parametersLoad h n (contentOf (Config.paramsContent rest))
    | k => .tableLoadReadOnly h (some (k, n))
  | _ => .tableLoadReadOnly h none

/-- The TABLE QUERY a body spells (R175, R177). -/
def queryCommand (h : Hdr) : List Byte → Instr
  | t :: i :: j :: _ =>
    let n := pairValue i j
    match t.toNat with
    | 7 => .positionsQuery h n
    | 10 => .drawerQuery h n
    | 11 => .printerStatusQuery h n
    | 12 => .journalStatusQuery h n
    | 13 => .dayAndLineStatusQuery h n
    | k => .tableQuery h (some (k, n))
  | _ => .tableQuery h none

/-- The DAY CONTROL a request stands for, with what the notices and the journal memory device do (R63 to R71, R170). -/
def dayCommand (h : Hdr) (noticesFirst : Bool) (readBack : Option RetainedRec) : DayRequest → Instr
  | .openDay b => .openDay h b
  | .closeDay => .closeDay h
  | .setTime n => .setTime h n
  | .setCutoff n => .setCutoff h n
  | .clearCutoff => .clearCutoff h
  | .forceClose => .forceClose h readBack
  | .sendDay => .sendDay ⟨h, noticesFirst⟩
  | .sendForward k => .sendForward ⟨h, noticesFirst⟩ k

/-- The POSITION CONTROL a request stands for (R81). -/
def positionCommand (h : Hdr) : PosRequest → Instr
  | .signOn b => .signOn h b
  | .forceSignOff => .forceSignOff h
  | .unlock => .unlock h
  | .balance k => .positionControlBalance h k
  | .groupBalance k => .positionControlGroupBalance h k

/-- The command a valid message stands for, by its kind code (R173, R180). The fields a body spells are free where the
manual lays out no bytes (assumption 12). -/
def messageCommand (noticesFirst : Bool) (readBack : Option RetainedRec) (kind : Byte) (h : Hdr) (body : List Byte) : Instr :=
  if kind = kindPaint then .paint h (Config.paintBody body)
  else if kind = kindForm then .form h (Config.formBody body).1 (Config.formBody body).2
  else if kind = kindNotice then .notice h (Config.noticeBody body)
  else if kind = kindPost then .post h (Config.postBody body)
  else if kind = kindBookLines then .bookLines h (Config.bookLinesBody body)
  else if kind = kindTableLoad then loadCommand h body
  else if kind = kindTableQuery then queryCommand h body
  else if kind = kindDayControl then dayCommand h noticesFirst readBack (Config.dayRequest body)
  else if kind = kindPositionControl then positionCommand h (Config.posRequest body)
  else if kind = kindTransferAck then .transferAck ⟨h, noticesFirst⟩ (Config.ackBody body)
  else if kind = kindRestart then .restart ⟨h, noticesFirst⟩
  else if kind = kindLineCheck then .lineCheck h
  else .unknownKind h kind

/-! ## Taking a message -/

/-- A message command taken as its own event; a command that is no message makes none. -/
def takeMessage : Instr → State → Host.Outcome State Fault Refusal
  | .unknownKind h k => execUnknownKind h k
  | .lineCheck h => execLineCheck h
  | .paint h b => execPaint h b
  | .form h n u => execForm h n u
  | .notice h b => execNotice h b
  | .post h b => execPost h b
  | .bookLines h b => execBookLines h b
  | .formFieldsLoad h i c => execFormFieldsLoad h i c
  | .formTextLoad h i c => execFormTextLoad h i c
  | .postingCodesLoad h i c => execPostingCodesLoad h i c
  | .currenciesLoad h i c => execCurrenciesLoad h i c
  | .ratesLoad h i c => execRatesLoad h i c
  | .limitClassesLoad h i c => execLimitClassesLoad h i c
  | .positionsLoad h i c => execPositionsLoad h i c
  | .bookLayoutsLoad h i c => execBookLayoutsLoad h i c
  | .parametersLoad h i c => execParametersLoad h i c
  | .tableLoadReadOnly h b => execTableLoadReadOnly h b
  | .tableQuery h b => execTableQuery h b
  | .positionsQuery h i => execPositionsQuery h i
  | .drawerQuery h i => execDrawerQuery h i
  | .printerStatusQuery h i => execPrinterStatusQuery h i
  | .journalStatusQuery h i => execJournalStatusQuery h i
  | .dayAndLineStatusQuery h i => execDayAndLineStatusQuery h i
  | .openDay h b => execOpen h b
  | .closeDay h => execClose h
  | .setTime h n => execSetTime h n
  | .setCutoff h n => execSetCutoff h n
  | .clearCutoff h => execClearCutoff h
  | .forceClose h r => execForceClose h r
  | .sendDay h => execSendDay h
  | .sendForward h k => execSendForward h k
  | .signOn h b => execSignOn h b
  | .forceSignOff h => execForceSignOff h
  | .unlock h => execUnlock h
  | .positionControlBalance h k => execPositionControlBalance h k
  | .positionControlGroupBalance h k => execPositionControlGroupBalance h k
  | .transferAck h b => execTransferAck h b
  | .restart h => execRestart h
  | _ => event id

/-- The state an outcome leaves; no message stops the part. -/
def stateOf (o : Host.Outcome State Fault Refusal) (s : State) : State :=
  match o with
  | .next t => t
  | _ => s

/-! ## Inbound bytes -/

/-- The command of a valid message by its bytes after the sync pair: header and body (R172, R180). -/
def frameCommand (noticesFirst : Bool) (readBack : Option RetainedRec) (m : List Byte) : Instr :=
  messageCommand noticesFirst readBack (m.getD 0 0) ⟨(m.getD 1 0).toNat, pairValue (m.getD 2 0) (m.getD 3 0)⟩ (m.drop 6)

/-- One thing the framer found: a discarded frame does nothing, and a valid message is handed on as an event of its own
(R151, R172). What earlier messages put out stays put out. -/
def handOn (noticesFirst : Bool) (readBack : Option RetainedRec) (s : State) : FrameEvent → State
  | .discarded => s
  | .message m =>
    let t := stateOf (takeMessage (frameCommand noticesFirst readBack m) s) s
    { t with out := s.out ++ t.out }

/-- Inbound bytes taken by the framer, each valid message among them handed on in the order found (R172). -/
def takeBytes (i : Inbound) (s : State) : State :=
  let r := runFramer s.line.framer i.bytes
  (r.2.foldl (handOn i.noticesFirst i.readBack) s).updLine fun l => { l with framer := r.1 }

/-- FRAME_DISCARD (R172): inbound bytes carried over by the framer. A discarded frame changes nothing beyond the framer; a
valid message among the bytes, one inside a damaged frame too, is handed on (assumption 30). -/
def execFrameDiscard (i : Inbound) : State → Host.Outcome State Fault Refusal := event (takeBytes i)

end Sys2Proof.Machine
end

