-- ==== Sys2Proof/Machine/Keys.lean ====
section
/-! DEFINITION. The Key and Field Unit (Section 7): the arrival of a token, and the take of each token by the editor: the
commands KEY_TOKEN, CHARACTER to CLEAR, TRANSMIT, BALANCE to GROUP_CLOSE, PRINT_BOOK, CANCEL_BOOK, ATTENTION and
ENTRY_TIMER_EXPIRY. -/

namespace Sys2Proof.Machine

/-! ## Arrival -/

/-- KEY_TOKEN (R109). -/
def execKeyToken (p : Pos) (t : Token) : State → Host.Outcome State Fault Refusal :=
  event fun s =>
    if (rd s.keys p).queue.length < Config.keyMax then s.updKeys p fun k => { k with queue := k.queue ++ [t] } else tone p s

/-- A token of one kind taken by the editor, acting by a function of the state alone. -/
def keyCommand (p : Pos) (want : Token) (act : State → State) : State → Host.Outcome State Fault Refusal :=
  event (takeToken p (· == want) fun _ => act)

/-! ## The field editor -/

/-- An edit of the cursor field; with no cursor field a TONE (R112 to R115). -/
def atCursor (p : Pos) (f : Nat → FieldDesc → State → State) (s : State) : State :=
  match (rd s.keys p).cursorField with
  | none => tone p s
  | some i =>
    match (currentFields s p)[i]? with
    | none => tone p s
    | some d => f i d s

/-- A character in a TEXT field: written at the text position, and the cursor on to the next place or field (R113). -/
def typeText (p : Pos) (b : Byte) (i : Nat) (d : FieldDesc) (s : State) : State :=
  let pos := (rd s.keys p).textPos
  let s := setValue p i ((fieldValue s p i).set pos b) s
  if pos + 1 < d.length then setCursor p i (pos + 1) s else setCursor p (nextField (currentFields s p) i) 0 s

/-- A character token (R113, R114). -/
def typeChar (p : Pos) (b : Byte) : State → State :=
  atCursor p fun i d s =>
    match d.kind with
    | .text => if isPrintable b then typeText p b i d s else tone p s
    | .numeric =>
      if isDigit b ∧ (fieldValue s p i).length < d.length then setValue p i (fieldValue s p i ++ [b]) s else tone p s

/-- Whether a token is a character. -/
def isCharacter : Token → Bool
  | .character _ => true
  | _ => false

/-- CHARACTER (R113, R114). -/
def execCharacter (p : Pos) : State → Host.Outcome State Fault Refusal :=
  event (takeToken p isCharacter fun t =>
    match t with
    | .character b => typeChar p b
    | _ => id)

/-- FIELD_NEXT (R112). -/
def execFieldNext (p : Pos) : State → Host.Outcome State Fault Refusal :=
  keyCommand p .fieldNext (atCursor p fun i _ s => setCursor p (nextField (currentFields s p) i) 0 s)

/-- FIELD_BACK (R112). -/
def execFieldBack (p : Pos) : State → Host.Outcome State Fault Refusal :=
  keyCommand p .fieldBack (atCursor p fun i _ s => setCursor p (prevField (currentFields s p) i) 0 s)

/-- BACKSPACE in the cursor field (R113, R114). -/
def backspaceField (p : Pos) : State → State :=
  atCursor p fun i d s =>
    let v := fieldValue s p i
    match d.kind with
    | .text =>
      let pos := (rd s.keys p).textPos
      if pos = 0 then tone p s else setCursor p i (pos - 1) (setValue p i (v.set (pos - 1) 0x20) s)
    | .numeric => if v.isEmpty then tone p s else setValue p i v.dropLast s

/-- BACKSPACE (R113, R114). -/
def execBackspace (p : Pos) : State → Host.Outcome State Fault Refusal := keyCommand p .backspace (backspaceField p)

/-- ERASE FIELD (R115). -/
def eraseCursorField (p : Pos) : State → State :=
  atCursor p fun i d s =>
    match d.kind with
    | .text => setCursor p i 0 (setValue p i (List.replicate d.length 0x20) s)
    | .numeric => setValue p i [] s

/-- ERASE_FIELD (R115). -/
def execEraseField (p : Pos) : State → Host.Outcome State Fault Refusal := keyCommand p .eraseField (eraseCursorField p)

/-- CLEAR (R115). -/
def execClear (p : Pos) : State → Host.Outcome State Fault Refusal :=
  keyCommand p .clear fun s => if (rd s.screens p).form.isNone then tone p s else clearForm p s

/-! ## TRANSMIT -/

/-- The first mandatory field of a position's form that is not filled (R116). -/
def firstUnfilled (s : State) (p : Pos) : Option Nat :=
  let fs := currentFields s p
  (List.range fs.length).find? fun i => fs[i]?.any fun f => f.mandatory && !isFilled f (fieldValue s p i)

/-- A field's value as an ENTRY carries it: TEXT without its trailing blanks (R117). -/
def sentValue (f : FieldDesc) (v : List Byte) : List Byte := if f.kind = .text then trimRight v else v

/-- The fields an ENTRY carries: those marked sent, in field order, with their numbers (R117). -/
def sentFields (s : State) (p : Pos) (d : FormDesc) : List (Nat × List Byte) :=
  (d.fields.zipIdx.filter fun x => x.1.sent).map fun x => (x.2, sentValue x.1 (fieldValue s p x.2))

/-- The ENTRY of a position's form (R117). -/
def entryMessage (s : State) (p : Pos) (n : Fin 32) (d : FormDesc) : OutMsg :=
  ⟨p.val, 0, .entry p (rd s.posns p).entryNo n (sentFields s p d)⟩

/-- A position whose ENTRY has been queued: AWAITING with that ENTRY outstanding, the number moved on (R83). -/
def moveToAwaiting (r : PosRec) : PosRec := nextEntryNo { r with state := .awaiting, outstanding := some r.entryNo }

/-- An ENTRY of a READY position (R117, R83, R118). -/
def sendEntry (p : Pos) (n : Fin 32) (d : FormDesc) (s : State) : State :=
  if outboundRoom s then
    let s := enqueue (entryMessage s p n d) s
    let s := s.updPos p moveToAwaiting
    let s := s.updKeys p fun k => { k with timer := Timer.start s.tables.params.entryTimer }
    cursorToFirst p (markRow0 p s)
  else notice p textLineBusy s

/-- A sign-on ENTRY: it takes a number, and the position stays SIGNED_OFF (R117, R83). -/
def sendSignOn (p : Pos) (n : Fin 32) (d : FormDesc) (s : State) : State :=
  if outboundRoom s then (enqueue (entryMessage s p n d) s).updPos p nextEntryNo else notice p textLineBusy s

/-- A TRANSMIT that passed the mandatory test, routed by Table 7-1 (R116). -/
def routeTransmit (p : Pos) (n : Fin 32) (d : FormDesc) (s : State) : State :=
  match (rd s.posns p).state with
  | .signedOff =>
    if s.line.state = .online then sendSignOn p n d s else tone p (notice p Status.tellerState.name s)
  | .ready =>
    if n = 1 then tone p s
    else if s.line.state = .online then sendEntry p n d s
    else standInAttempt p d s
  | .balancing => declare p d s
  | .awaiting => s

/-- TRANSMIT as the editor takes it (R116). -/
def transmitForm (p : Pos) (s : State) : State :=
  match (rd s.screens p).form with
  | none => tone p s
  | some n =>
    match formDesc s n with
    | none => tone p s
    | some d =>
      match firstUnfilled s p with
      | some i => tone p (setCursor p i 0 s)
      | none => routeTransmit p n d s

/-- TRANSMIT (R116, R117, R119, R30). -/
def execTransmit (p : Pos) : State → Host.Outcome State Fault Refusal := keyCommand p .transmit (transmitForm p)

/-! ## Balance, passbook and attention keys -/

/-- BALANCE (R25, R120). -/
def execBalance (p : Pos) : State → Host.Outcome State Fault Refusal := keyCommand p .balance (balanceKey .interim p)

/-- SIGN_OFF (R25, R120). -/
def execSignOff (p : Pos) : State → Host.Outcome State Fault Refusal := keyCommand p .signOff (balanceKey .final p)

/-- GROUP_BALANCE (R28, R120). -/
def execGroupBalance (p : Pos) : State → Host.Outcome State Fault Refusal := keyCommand p .groupBalance (groupKey .interim p)

/-- GROUP_CLOSE (R28, R120). -/
def execGroupClose (p : Pos) : State → Host.Outcome State Fault Refusal := keyCommand p .groupClose (groupKey .final p)

/-- The account the ACCOUNT field of a position's form names, if it names one: its value with every blank removed is 1 to
19 decimal digits (R121). -/
def keyAccount (s : State) (p : Pos) : Option Account :=
  ((currentForm s p).bind fun d => roleValue s p d .account).bind fun v => accountOf (v.filter fun b => b != 0x20)

/-- PRINT BOOK of an account (R121, R130). -/
def printBookOf (p : Pos) (a : Account) (s : State) : State :=
  if jobMarked a s then s
  else if (accountLines a s).isEmpty then notice p textNothingToPrint s
  else attemptJob p a s

/-- PRINT_BOOK (R121, R130). -/
def execPrintBook (p : Pos) : State → Host.Outcome State Fault Refusal :=
  keyCommand p .printBook fun s =>
    match keyAccount s p with
    | some a => printBookOf p a s
    | none => tone p s

/-- CANCEL BOOK of an account (R121, R130, R146). -/
def cancelBookOf (p : Pos) (a : Account) (s : State) : State :=
  match jobPrinter a p s with
  | none => tone p (notice p textNoJob s)
  | some n =>
    if ((rd s.queues n).head?.any fun j => j.account == a) ∧ (rd s.printers n).begun then cancelHead n s
    else cancelQueued n a s

/-- CANCEL_BOOK (R121, R130, R146). -/
def execCancelBook (p : Pos) : State → Host.Outcome State Fault Refusal :=
  keyCommand p .cancelBook fun s =>
    match keyAccount s p with
    | some a => cancelBookOf p a s
    | none => tone p s

/-- ATTENTION (R122). -/
def execAttention (p : Pos) : State → Host.Outcome State Fault Refusal :=
  keyCommand p .attention fun s =>
    let r := rd s.posns p
    report p (.attention p r.teller (rd s.screens p).form r.inDoubt s.clock.time) s

/-! ## The entry timer -/

/-- ENTRY_TIMER_EXPIRY (R118): the entry timer has counted its length. -/
def execEntryTimerExpiry (p : Pos) : State → Host.Outcome State Fault Refusal :=
  event fun s =>
    if Timer.due (rd s.keys p).timer then
      if (rd s.posns p).state = .awaiting then notice p textNoReply (release p s)
      else s.updKeys p fun k => { k with timer := none }
    else s

end Sys2Proof.Machine
end

