-- ==== Sys2Proof/Machine/PrinterCommands.lean ====
section
/-! DEFINITION. The Printer Controllers (Section 9): the commands READY to BOOK_WAIT_EXPIRY, each taken in the states that
name it and ignored in the others (R144). -/

namespace Sys2Proof.Machine

/-! ## Bringing a printer up -/

/-- READY (R138). -/
def execReady (n : Prn) : State → Host.Outcome State Fault Refusal :=
  event fun s =>
    match (rd s.printers n).state with
    | .offline => homePrinter n s
    | .homing => homePrinter n s
    | _ => homePrinter n (faultPrinter n .restarted s)

/-- A homed printer (R138): EMPTY, PRINTER_STATE, and on to its head job if there is one. -/
def homed (n : Prn) (s : State) : State :=
  let s := s.updPrinter n Printer.toEmpty
  startWaiting n (report Config.wholePart (.printerState n .empty none (rd s.queues n).length) s)

/-- HOME_DONE (R138). -/
def execHomeDone (n : Prn) : State → Host.Outcome State Fault Refusal :=
  event fun s => if (rd s.printers n).state = .homing then homed n s else s

/-! ## Books in -/

/-- A printer that starts to read a stripe (R139). -/
def Printer.reading (r : Printer) : Printer := { r with state := .reading, timer := Timer.start Config.stripeReadTime }

/-- BOOK_IN (R139). -/
def execBookIn (n : Prn) : State → Host.Outcome State Fault Refusal :=
  event fun s =>
    match (rd s.printers n).state with
    | .waitBook => (withdrawPrompt n (command n .readStripe s)).updPrinter n Printer.reading
    | .empty => eject n false none s
    | _ => s

/-! ## The stripe -/

/-- The job record with an attempt more (R140). -/
def Printer.attempt (r : Printer) : Printer := { r with job := { r.job with attempts := r.job.attempts + 1 } }

/-- A book put out for an attempt that failed (R140). -/
def failAttempt (n : Prn) (why : Reason) (s : State) : State := eject n true (some why) (s.updPrinter n Printer.attempt)

/-- A book type as a layout type. -/
def typeOf (t : Nat) : Option (Fin 4) := if h : t < 4 then some ⟨t, h⟩ else none

/-- Whether a book is full at its stripe reading (R140). -/
def bookFull (y : Layout) (page line : Nat) : Bool := y.pages < page || (y.linesPerPage < line && y.pages < page + 1)

/-- The position a stripe gives: past the last line it is line 1 of the next page (R140). -/
def stripePlace (y : Layout) (page line : Nat) : Nat × Nat := if y.linesPerPage < line then (page + 1, 1) else (page, line)

/-- Whether the head line carries an expected position other than the next position (R140). -/
def placeDiffers (ls : List PLine) (at_ : Nat × Nat) : Bool :=
  (ls.head?.bind (·.expected)).any fun e => e != at_

/-- A printer that has accepted a book (R140). -/
def Printer.accepted (t : Fin 4) (at_ : Nat × Nat) (mismatch : Bool) (r : Printer) : Printer :=
  { r with state := .held, timer := none, layoutType := t, openPage := at_.1, nextPage := at_.1, nextLine := at_.2,
           job := { r.job with attempts := 0, mismatch := r.job.mismatch || mismatch } }

/-- A book accepted at its stripe reading (R140, R124). -/
def acceptBook (n : Prn) (a : Account) (t : Fin 4) (page line : Nat) (s : State) : State :=
  let at_ := stripePlace (layoutOf s t) page line
  let s := updAccount a (fun r => { r with bookType := r.bookType.orElse fun _ => some t.val }) s
  s.updPrinter n (Printer.accepted t at_ (placeDiffers (accountLines a s) at_))

/-- A stripe judged against the head job (R140). DESIGN CHOICE (assumption 56): an unknown book type is recorded only when
the book is accepted. -/
def judgeStripe (n : Prn) (j : Job) (t : Fin 4) (d : StripeData) (s : State) : State :=
  let known := (findAccount j.account s).bind (·.bookType)
  if d.account ≠ j.account ∨ (known.any fun k => k != t.val) then failAttempt n .wrongBook s
  else if bookFull (layoutOf s t) d.page d.line then eject n true (some .bookFull) s
  else acceptBook n j.account t d.page d.line s

/-- A stripe taken in READING (R136, R140): one outside its ranges is a STRIPE FAIL. -/
def takeStripe (n : Prn) (d : StripeData) (s : State) : State :=
  match rd s.queues n, typeOf d.bookType with
  | j :: _, some t =>
    if d.page = 0 ∨ d.line = 0 ∨ accountOk d.account = false then failAttempt n .unreadable s else judgeStripe n j t d s
  | _, _ => failAttempt n .unreadable s

/-- STRIPE_DATA (R136, R140). -/
def execStripeData (n : Prn) (d : StripeData) : State → Host.Outcome State Fault Refusal :=
  event fun s => if (rd s.printers n).state = .reading then takeStripe n d s else s

/-- STRIPE_FAIL (R140). -/
def execStripeFail (n : Prn) : State → Host.Outcome State Fault Refusal :=
  event fun s => if (rd s.printers n).state = .reading then failAttempt n .unreadable s else s

/-! ## Printing -/

/-- The lines of the head job's account. -/
def headLines (n : Prn) (s : State) : List PLine := (rd s.queues n).head?.elim [] fun j => accountLines j.account s

/-- The decision of a printer that holds an open book (R141). -/
def decide_ (n : Prn) (s : State) : State :=
  let r := rd s.printers n
  if r.job.cancelPending then writeStripe n .cancelled s
  else
    match headLines n s with
    | [] => writeStripe n .complete s
    | l :: _ =>
      if r.nextPage = r.openPage then startLine n l s
      else if r.nextPage ≤ (layoutOf s r.layoutType).pages then writeStripe n .turnPage s
      else writeStripe n .bookFull s

/-- PRINTER_DECISION (R141, R142). -/
def execPrinterDecision (n : Prn) : State → Host.Outcome State Fault Refusal :=
  event fun s => if (rd s.printers n).state = .held then decide_ n s else s

/-- One more line printed, held at 65,535 (R137, R142). -/
def Printer.countLine (r : Printer) : Printer :=
  { r with job := { r.job with printed := if r.job.printed < 65535 then r.job.printed + 1 else 65535 } }

/-- A printer that holds an open book between lines (R142). -/
def Printer.hold (r : Printer) : Printer := { r with state := .held, timer := none }

/-- LINE DONE in PRINTING (R142). -/
def lineDoneEvent (n : Prn) (s : State) : State :=
  let s := match rd s.queues n with
    | j :: _ => linePrinted j.account s
    | [] => s
  let y := layoutOf s (rd s.printers n).layoutType
  let s := s.updPrinter n fun r => Printer.advance y.linesPerPage (Printer.countLine r)
  if (rd s.printers n).job.cancelPending then writeStripe n .cancelled s else s.updPrinter n Printer.hold

/-- LINE_DONE (R142). -/
def execLineDone (n : Prn) : State → Host.Outcome State Fault Refusal :=
  event fun s => if (rd s.printers n).state = .printing then lineDoneEvent n s else s

/-! ## The stripe written, and the eject -/

/-- The job record after a stripe write that succeeded: the position written (R145). -/
def Printer.stripeGood (r : Printer) : Printer := { r with job := { r.job with lastStripe := some (r.nextPage, r.nextLine) } }

/-- The job record after a stripe write that failed (R143). -/
def Printer.stripeBad (r : Printer) : Printer := { r with job := { r.job with stripeFailed := true } }

/-- STRIPE_WRITTEN (R143). -/
def execStripeWritten (n : Prn) : State → Host.Outcome State Fault Refusal :=
  event fun s =>
    if (rd s.printers n).state = .writingStripe then
      eject n true (rd s.printers n).reason (s.updPrinter n Printer.stripeGood)
    else s

/-- STRIPE_WRITE_FAIL (R143). -/
def execStripeWriteFail (n : Prn) : State → Host.Outcome State Fault Refusal :=
  event fun s =>
    if (rd s.printers n).state = .writingStripe then
      eject n true (rd s.printers n).reason (s.updPrinter n Printer.stripeBad)
    else s

/-- What follows the end of an eject that belongs to the head job, by its reason (R144). -/
def ejectEnded (n : Prn) (why : Reason) (s : State) : State :=
  let r := rd s.printers n
  match why with
  | .turnPage => enterWait n (.turnToPage r.nextPage) s
  | .wrongBook => if r.job.attempts < 3 then enterWait n .wrongBook s else becomeEmpty n (endJob n (.ended .wrongBook) s)
  | .unreadable => if r.job.attempts < 3 then enterWait n .wrongBook s else becomeEmpty n (endJob n (.ended .unreadable) s)
  | .complete => becomeEmpty n (endJob n (.ended .complete) s)
  | .bookFull => becomeEmpty n (endJob n (.ended .bookFull) s)
  | .cancelled => becomeEmpty n (endJob n (.ended .cancelled) s)

/-- EJECT_DONE (R144). -/
def execEjectDone (n : Prn) : State → Host.Outcome State Fault Refusal :=
  event fun s =>
    let r := rd s.printers n
    if r.state = .ejecting then
      match r.ejectJob, r.reason with
      | true, some why => ejectEnded n why s
      | _, _ => becomeEmpty n s
    else s

/-! ## Faults and expiries -/

/-- FAULT (R147). -/
def execFault (n : Prn) : State → Host.Outcome State Fault Refusal :=
  event fun s => if (rd s.printers n).state = .offline then s else faultPrinter n .fault s

/-- The timer whose expiry puts a printer OFFLINE, by the printer's state (Table 9-1). -/
def faultTimer : PrnState → Option OfflineCause
  | .homing => some .homeTimer
  | .reading => some .stripeReadTimer
  | .printing => some .linePrintTimer
  | .writingStripe => some .stripeWriteTimer
  | .ejecting => some .ejectTimer
  | _ => none

/-- PRINTER_TIMER_EXPIRY (R147): a timer of Table 9-1 other than book wait has counted its length. -/
def execPrinterTimerExpiry (n : Prn) : State → Host.Outcome State Fault Refusal :=
  event fun s =>
    match faultTimer (rd s.printers n).state with
    | some c => if Timer.due (rd s.printers n).timer then faultPrinter n c s else s
    | none => s

/-- The expiry of the book-wait timer (R139). -/
def bookWaitEnds (n : Prn) (s : State) : State := becomeEmpty n (withdrawPrompt n (endJob n .noBook s))

/-- BOOK_WAIT_EXPIRY (R139): the book-wait timer has counted its length. -/
def execBookWaitExpiry (n : Prn) : State → Host.Outcome State Fault Refusal :=
  event fun s =>
    if (rd s.printers n).state = .waitBook ∧ Timer.due (rd s.printers n).timer then bookWaitEnds n s else s

end Sys2Proof.Machine
end

