-- ==== Sys2Proof/Machine/Recovery.lean ====
section
/-! DEFINITION. Power (Sections 3.3 and 3.5): the commands POWER_ON, REPLAY_ENTRY, RECOVERY_FINISH and POWER_FAILURE. -/

namespace Sys2Proof.Machine

/-! ## Power failure -/

/-- A control record written in part does not check good, and what its fields hold is free (R45, R55 Caution). -/
def tornControl (free : Nat) (m : JournalMem) : JournalMem :=
  let f := Config.tornControl free
  m.write (.control ⟨f, ~~~(crc16 (controlBytes f))⟩)

/-- What a write that power cut short leaves (R45, R55 Caution): a control record written in part does not check good;
a retained record written in part holds free content; slots written in part lie above slots used, and the states byte
is one byte. -/
def tornWrite (free : Nat) (w : NvWrite) (m : JournalMem) : JournalMem :=
  match w with
  | .control _ => tornControl free m
  | .backlogged _ _ => tornControl free m
  | .retained _ => m.write (.retained (Config.tornRetained free))
  | .retainedCrc _ => m.write (.retainedCrc (Config.tornRetained free).crc)
  | .slots _ => m
  | .states _ _ _ => m

/-- Journal memory when power fails after some of the last event's writes, the next of them perhaps in part (R45). -/
def cutMemory (writesDone : Nat) (torn : Bool) (s : State) : JournalMem :=
  let m := (s.nvLog.take writesDone).foldl (fun m w => m.write w) s.nvBefore
  match s.nvLog[writesDone]? with
  | some w => if torn then tornWrite s.freeUsed w m else m
  | none => m

/-- The part without power: all live state gone, the journal memory as given (R45, R53). -/
def powerDown (m : JournalMem) (s : State) : State :=
  { State.reset with nv := m, nvBefore := m, powered := false, freeUsed := s.freeUsed + 1, pending := s.pending }

/-- POWER_FAILURE (R45). Without power it changes nothing. -/
def execPowerFailure (writesDone : Nat) (torn : Bool) (s : State) : Host.Outcome State Fault Refusal :=
  .next (if s.powered then powerDown (cutMemory writesDone torn s) s else s)

/-! ## Power-on -/

/-- All live state at its power-on values, the journal memory kept (R38, R57, R75, R90, R108, R123, R135, R150, R159, R171). -/
def powerUp (s : State) : State :=
  { State.reset with nv := s.nv, nvBefore := s.nv, freeUsed := s.freeUsed, pending := s.pending }

/-- The state a replay starts from (R54). -/
def Replay.initial : Replay := ⟨0, 0, 0, Vector.replicate 16 none, none, 0⟩

/-- What the Journal Controller makes of the control record at power-on (R53). -/
def readControl (s : State) : State :=
  let f := s.nv.control.fields
  if s.nv.control.good then
    let s := { s with jc := ⟨false, false, 0, if f.day = some RecDay.closed then none else some Replay.initial⟩ }
    s.updDay fun d =>
      { d with date := some f.date, state := if f.day = some RecDay.closed then .closed f.undelivered else .recovering }
  else
    let s := { s with jc := ⟨true, false, 0, none⟩ }
    s.updDay fun d => { d with date := none, state := .closed true }

/-- POWER_ON (R53). -/
def execPowerOn (s : State) : Host.Outcome State Fault Refusal := .next (readControl (powerUp s))

/-! ## Replay -/

/-- Whether an OPENING entry stands at its place: position by position from 0 at the head of the journal (R54). -/
def openingInPlace (r : Replay) : EntryBody → Bool
  | .opening p _ _ _ _ => p.val == r.opened && r.opened == r.index
  | _ => true

/-- The header checks of R54 on an entry. -/
def headerGood (r : Replay) (used : Nat) (e : Entry) : Bool :=
  e.kind == kindCode e.body && e.size == kindSlots e.body && e.seq == r.index + 1 && r.slot + e.size ≤ used &&
    openingInPlace r e.body

/-- A passbook line re-added by replay when its entry shows STORED (R54, R125); counted when it is kept. -/
def readdLine (e : Entry) (line : Option (Account × Option Nat × PLine)) (s : State) : State × Nat :=
  match line with
  | some (a, t, l) => if e.print = .stored ∧ storeKeeps a s then (addLine a t l s, 1) else (s, 0)
  | none => (s, 0)

/-- The open balance of a position recorded as ended, or as begun (R54). -/
def Replay.setBal (p : Pos) (b : Option (BalKind × Nat)) (r : Replay) : Replay := { r with openBal := wr r.openBal p b }

/-- Whether the BEGIN mark in force says that a CAPTURE began no balance (R54, R36). -/
def heldOff (r : Replay) (c : CaptureRec) : Bool := r.mark.any fun m => c.leader == some m.1 && m.2.contains c.pos

/-- The BEGIN mark in force after a CAPTURE: it goes on while the CAPTUREs carry its leader (R54). -/
def markAfter (r : Replay) (c : CaptureRec) : Option (Pos × List Pos) := r.mark.filter fun m => c.leader == some m.1

/-- What replay does with an entry that passes its check, by kind (R54). -/
def replayAct (e : Entry) (r : Replay) (s : State) : Replay × State :=
  match e.body with
  | .opening p _ _ _ amounts => ({ r with opened := r.opened + 1, mark := none }, s.updDrawer p fun _ => openDrawer amounts)
  | .posting q =>
    let x := readdLine e (postingLine (businessDate s) e.seq q) (applyLegs q.legs s)
    let s := if q.origin = .standIn then x.1.updPos q.pos fun r => { r with usage := r.usage + q.value } else x.1
    let s := if e.fwd = .pending then { s with jc := { s.jc with pendingCount := s.jc.pendingCount + 1 } } else s
    ({ r with mark := none, readded := r.readded + x.2 }, s)
  | .bookLine b =>
    let x := readdLine e (some (b.account, some b.bookType, bookLineOf e.seq b)) s
    ({ r with mark := none, readded := r.readded + x.2 }, x.1)
  | .capture c =>
    let s := s.updDrawer c.pos fun d =>
      { d with captureNo := c.number, lines := mapV d.lines DLine.clearMark }
    let t := if heldOff r c then r else r.setBal c.pos (some (c.kind, c.number))
    ({ t with mark := markAfter r c }, s)
  | .declaration d => ({ r.setBal d.pos none with mark := none }, applyLegs (declLegs d) s)
  | .groupBegin l _ _ off => ({ r with mark := some (l, off) }, s)
  | .groupEnd _ _ _ => ({ r with mark := none }, s)
  | .abandoned p _ _ _ => ({ r.setBal p none with mark := none }, s)
  | .midnight _ => ({ r with mark := none }, s)
  | .cutoff _ => ({ r with mark := none }, s)
  | .recovery _ => ({ r with mark := none }, s)
  | .backlog _ _ => ({ r with mark := none }, s)
  | .close _ _ _ => ({ r with mark := none }, s)

/-- A live position record when replay fails: its stand-in usage back at 0 (R54). -/
def clearUsage (r : PosRec) : PosRec := { r with usage := 0 }

/-- Replay stopped by a failed check at a slot: the journal is treated as unreadable (R54). -/
def failReplay (slot : Nat) (s : State) : State :=
  let s := { s with drawers := Vector.replicate 16 Drawer.initial, store := [], posns := mapV s.posns clearUsage }
  let s := { s with jc := { s.jc with unreadable := true, pendingCount := 0, replay := none } }
  report Config.wholePart (.recoveryDone (.unreadable slot)) (setDay (.closed true) s)

/-- The replay of the entry that comes next (R54), the end check with the last. -/
def replayNext (r : Replay) (s : State) : State :=
  match s.nv.entries[r.index]? with
  | none => failReplay r.slot s
  | some e =>
    if headerGood r (slotsUsed s) e = false then failReplay r.slot s
    else if r.slot + e.size = slotsUsed s ∧ e.seq ≠ s.nv.control.fields.entryCount then failReplay r.slot s
    else
      let x := replayAct e r s
      let t := x.2
      { t with jc := { t.jc with replay := some { x.1 with slot := r.slot + e.size, index := r.index + 1 } } }

/-- REPLAY_ENTRY (R54): while a replay has entries left to read. -/
def execReplayEntry : State → Host.Outcome State Fault Refusal :=
  event fun s =>
    match s.jc.replay with
    | none => s
    | some r => if r.slot < slotsUsed s then replayNext r s else s

/-! ## The finish of recovery -/

/-- The BALANCE ABANDONED entries of a recovery, in ascending position order (R55). -/
def recoveryAbandons (r : Replay) : List EntryBody :=
  allPos.filterMap fun p => (rd r.openBal p).map fun b => .abandoned p b.1 b.2 .powerOn

/-- The RECOVERY entry (R43). -/
def recoveryEntry (d : RecDay) (r : Replay) (abandoned : Nat) (s : State) : EntryBody :=
  .recovery ⟨d, slotsUsed s, s.nv.control.fields.entryCount, abandoned, r.readded⟩

/-- Steps 1 and 2 of R55: the entries appended when the recorded day is OPEN or CUTOFF and the request fits, with no
MIDNIGHT ahead; with the number of balances abandoned. -/
def recoveryAppend (d : RecDay) (r : Replay) (s : State) : State × Nat :=
  let bs := recoveryAbandons r
  if (d = .opened ∨ d = .cutoff) ∧ slotsUsed s + (bs.length + 1) ≤ Config.controlLimit then
    (appendAll (bs ++ [recoveryEntry d r bs.length s]) s, bs.length)
  else (s, 0)

/-- The day state a recovery returns to (R55). -/
def recoveredDay : RecDay → Bool → DayState
  | .opened, _ => .opened
  | .cutoff, _ => .cutoff
  | .closing, _ => .closing
  | .closed, u => .closed u

/-- The finish of a recovery whose every check passed (R55, R73), with the Transfer Engine told of it (R167). -/
def finishRecovery (d : RecDay) (r : Replay) (readBack : Option RetainedRec) (s : State) : State :=
  let x := recoveryAppend d r { s with jc := { s.jc with replay := none } }
  let t := setDay (recoveredDay d x.1.nv.control.fields.undelivered) x.1
  let t := report Config.wholePart (.recoveryDone (.good d (slotsUsed t) x.2 r.readded)) t
  let t := if d = .closing then writeRetained .recovery readBack t else t
  t.updEngine fun e => { e with recoveryDone := true }

/-- RECOVERY_FINISH (R55): once the replay has read the last entry. -/
def execRecoveryFinish (readBack : Option RetainedRec) : State → Host.Outcome State Fault Refusal :=
  event fun s =>
    match s.jc.replay, s.nv.control.fields.day with
    | some r, some d => if r.slot = slotsUsed s then finishRecovery d r readBack s else s
    | _, _ => s

end Sys2Proof.Machine
end

