-- ==== Sys2Proof/Machine/Dispatch.lean ====
section
/-! DEFINITION. The effect of a command on the part. -/

namespace Sys2Proof.Machine

/-- The effect of a command on everything but the queue of waiting commands. -/
def exec (i : Instr) (s : State) : Host.Outcome State Fault Refusal :=
  match i with
  | .powerOn => Sys2Proof.Machine.execPowerOn s
  | .replayEntry => Sys2Proof.Machine.execReplayEntry s
  | .recoveryFinish readBack => Sys2Proof.Machine.execRecoveryFinish readBack s
  | .frameDiscard b => Sys2Proof.Machine.execFrameDiscard b s
  | .unknownKind h kind => Sys2Proof.Machine.execUnknownKind h kind s
  | .lineCheck h => Sys2Proof.Machine.execLineCheck h s
  | .paint h b => Sys2Proof.Machine.execPaint h b s
  | .form h number unlock => Sys2Proof.Machine.execForm h number unlock s
  | .notice h b => Sys2Proof.Machine.execNotice h b s
  | .post h b => Sys2Proof.Machine.execPost h b s
  | .bookLines h b => Sys2Proof.Machine.execBookLines h b s
  | .formFieldsLoad h index c => Sys2Proof.Machine.execFormFieldsLoad h index c s
  | .formTextLoad h index c => Sys2Proof.Machine.execFormTextLoad h index c s
  | .postingCodesLoad h index c => Sys2Proof.Machine.execPostingCodesLoad h index c s
  | .currenciesLoad h index c => Sys2Proof.Machine.execCurrenciesLoad h index c s
  | .ratesLoad h index c => Sys2Proof.Machine.execRatesLoad h index c s
  | .limitClassesLoad h index c => Sys2Proof.Machine.execLimitClassesLoad h index c s
  | .positionsLoad h index c => Sys2Proof.Machine.execPositionsLoad h index c s
  | .bookLayoutsLoad h index c => Sys2Proof.Machine.execBookLayoutsLoad h index c s
  | .parametersLoad h index c => Sys2Proof.Machine.execParametersLoad h index c s
  | .tableLoadReadOnly h body => Sys2Proof.Machine.execTableLoadReadOnly h body s
  | .tableQuery h body => Sys2Proof.Machine.execTableQuery h body s
  | .positionsQuery h index => Sys2Proof.Machine.execPositionsQuery h index s
  | .drawerQuery h index => Sys2Proof.Machine.execDrawerQuery h index s
  | .printerStatusQuery h index => Sys2Proof.Machine.execPrinterStatusQuery h index s
  | .journalStatusQuery h index => Sys2Proof.Machine.execJournalStatusQuery h index s
  | .dayAndLineStatusQuery h index => Sys2Proof.Machine.execDayAndLineStatusQuery h index s
  | .openDay h b => Sys2Proof.Machine.execOpen h b s
  | .closeDay h => Sys2Proof.Machine.execClose h s
  | .setTime h time => Sys2Proof.Machine.execSetTime h time s
  | .setCutoff h second => Sys2Proof.Machine.execSetCutoff h second s
  | .clearCutoff h => Sys2Proof.Machine.execClearCutoff h s
  | .forceClose h readBack => Sys2Proof.Machine.execForceClose h readBack s
  | .sendDay h => Sys2Proof.Machine.execSendDay h s
  | .sendForward h k => Sys2Proof.Machine.execSendForward h k s
  | .signOn h b => Sys2Proof.Machine.execSignOn h b s
  | .forceSignOff h => Sys2Proof.Machine.execForceSignOff h s
  | .unlock h => Sys2Proof.Machine.execUnlock h s
  | .positionControlBalance h k => Sys2Proof.Machine.execPositionControlBalance h k s
  | .positionControlGroupBalance h k => Sys2Proof.Machine.execPositionControlGroupBalance h k s
  | .transferAck h b => Sys2Proof.Machine.execTransferAck h b s
  | .restart h => Sys2Proof.Machine.execRestart h s
  | .keyToken p t => Sys2Proof.Machine.execKeyToken p t s
  | .reviewUp p => Sys2Proof.Machine.execReviewUp p s
  | .reviewDown p => Sys2Proof.Machine.execReviewDown p s
  | .present p => Sys2Proof.Machine.execPresent p s
  | .rowTaken p => Sys2Proof.Machine.execRowTaken p s
  | .rowSend p => Sys2Proof.Machine.execRowSend p s
  | .character p => Sys2Proof.Machine.execCharacter p s
  | .fieldNext p => Sys2Proof.Machine.execFieldNext p s
  | .fieldBack p => Sys2Proof.Machine.execFieldBack p s
  | .backspace p => Sys2Proof.Machine.execBackspace p s
  | .eraseField p => Sys2Proof.Machine.execEraseField p s
  | .clear p => Sys2Proof.Machine.execClear p s
  | .transmit p => Sys2Proof.Machine.execTransmit p s
  | .balance p => Sys2Proof.Machine.execBalance p s
  | .signOff p => Sys2Proof.Machine.execSignOff p s
  | .groupBalance p => Sys2Proof.Machine.execGroupBalance p s
  | .groupClose p => Sys2Proof.Machine.execGroupClose p s
  | .printBook p => Sys2Proof.Machine.execPrintBook p s
  | .cancelBook p => Sys2Proof.Machine.execCancelBook p s
  | .attention p => Sys2Proof.Machine.execAttention p s
  | .entryTimerExpiry p => Sys2Proof.Machine.execEntryTimerExpiry p s
  | .lineLoss => Sys2Proof.Machine.execLineLoss s
  | .clockAdvance => Sys2Proof.Machine.execClockAdvance s
  | .cutoffAlarmFire => Sys2Proof.Machine.execCutoffAlarmFire s
  | .closingConditionTest readBack => Sys2Proof.Machine.execClosingConditionTest readBack s
  | .dayBatchCompletion => Sys2Proof.Machine.execDayBatchCompletion s
  | .transferLineLoss => Sys2Proof.Machine.execTransferLineLoss s
  | .transferLineReturn => Sys2Proof.Machine.execTransferLineReturn s
  | .transferRecoveryFinish => Sys2Proof.Machine.execTransferRecoveryFinish s
  | .ackTimerExpiry => Sys2Proof.Machine.execAckTimerExpiry s
  | .outboundSendStart => Sys2Proof.Machine.execOutboundSendStart s
  | .outboundSendDone => Sys2Proof.Machine.execOutboundSendDone s
  | .ready n => Sys2Proof.Machine.execReady n s
  | .homeDone n => Sys2Proof.Machine.execHomeDone n s
  | .bookIn n => Sys2Proof.Machine.execBookIn n s
  | .stripeData n d => Sys2Proof.Machine.execStripeData n d s
  | .stripeFail n => Sys2Proof.Machine.execStripeFail n s
  | .printerDecision n => Sys2Proof.Machine.execPrinterDecision n s
  | .lineDone n => Sys2Proof.Machine.execLineDone n s
  | .stripeWritten n => Sys2Proof.Machine.execStripeWritten n s
  | .stripeWriteFail n => Sys2Proof.Machine.execStripeWriteFail n s
  | .ejectDone n => Sys2Proof.Machine.execEjectDone n s
  | .fault n => Sys2Proof.Machine.execFault n s
  | .printerTimerExpiry n => Sys2Proof.Machine.execPrinterTimerExpiry n s
  | .bookWaitExpiry n => Sys2Proof.Machine.execBookWaitExpiry n s
  | .powerFailure writesDone torn => Sys2Proof.Machine.execPowerFailure writesDone torn s

end Sys2Proof.Machine
end

