-- ==== Sys2Proof/Safety.lean ====
section
/-! DEFINITION. What a safe run is, in the terms the statements use: the part never stops; and the invariants a step
keeps. Beside them, the few views the statements compare states by. -/

namespace Sys2Proof.Machine

/-! ## Runs -/

/-- A run that never stops: after any number of steps there is a next state. -/
def RunsOn (s : State) : Prop := ∀ n, ∃ t, Host.Core.run Sys2Proof.core n s = .next t

/-! ## Views -/

/-- The part takes requests from head office: it has power and the day is not RECOVERING (R56). -/
def Takes (s : State) : Prop := s.powered = true ∧ s.day.state ≠ .recovering

/-- The state in which a valid inbound message is handed on: the line timer restarted, or the line returned (R151, R153). -/
def arrived (s : State) : State := arrive s.begin

/-- A state with a REPLY in the outbound queue, when the queue holds fewer than 32 messages (R173, R174). -/
def answered (h : Hdr) (st : Status) (x : Extra) (u : State) : State :=
  { u with line := { u.line with outbound :=
      if u.line.outbound.length < 32 then u.line.outbound ++ [⟨h.pos, h.tag, .reply st x⟩] else u.line.outbound } }

/-- Two screens that differ in their dirty rows at most. -/
def SameButDirty (a b : Screen) : Prop := { a with dirty := [] } = { b with dirty := [] }

/-- Two states whose screens differ in their dirty rows at most. -/
def ScreensSameButDirty (s t : State) : Prop := ∀ p, SameButDirty (rd s.screens p) (rd t.screens p)

/-- Row 0 of every screen is marked dirty, and the screens differ in nothing else than dirty rows. -/
def StatusRowsMarked (s t : State) : Prop := ∀ p, 0 ∈ (rd t.screens p).dirty ∧ SameButDirty (rd s.screens p) (rd t.screens p)

/-- The state s with what any journaling and reporting event may change taken from t: the journal memory with its
writes, the journal controller's marks, the outbound queue and the outputs. -/
def since (s t : State) : State :=
  { s with nv := t.nv, nvBefore := t.nvBefore, nvLog := t.nvLog, jc := t.jc, out := t.out,
           line := { s.line with outbound := t.line.outbound } }

/-- The MIDNIGHT entry a business or control request places ahead of its own entries (R47). -/
def midnightBodies (s : State) : List EntryBody := if 0 < s.clock.midnights then [.midnight s.clock.midnights] else []

/-- A REPORT in what the outbound queue has gained from s to t. -/
def Reported (p : Nat) (r : Report) (s t : State) : Prop :=
  (⟨p, 0, .report r⟩ : OutMsg) ∈ t.line.outbound.drop s.line.outbound.length

/-- A REPLY in what the outbound queue has gained from s to t. -/
def Replied (h : Hdr) (st : Status) (x : Extra) (s t : State) : Prop :=
  (⟨h.pos, h.tag, .reply st x⟩ : OutMsg) ∈ t.line.outbound.drop s.line.outbound.length

/-- The low-space flag and JOURNAL_LOW (R48) over an event that appends entries with these bodies: a clear flag is set when
the event leaves slots used above 15,872, and otherwise the flag is as it was; JOURNAL_LOW is raised with that and never else,
and is in the queue when the line is ONLINE and the event has not filled it. It carries slots used and entry count, those after
the append when there is one entry, and the business date. -/
def LowSpaceTold (bs : List EntryBody) (s t : State) : Prop :=
  let used := slotsUsed s + (bs.map kindSlots).sum
  let passes := s.jc.lowSpace = false ∧ bs ≠ [] ∧ 15872 < used
  (t.jc.lowSpace = true ↔ s.jc.lowSpace = true ∨ passes) ∧
  (passes → t.line.state = .online → t.line.outbound.length < 28 → ∃ n c,
    Reported 255 (.journalLow n c (businessDate s)) s t ∧ 15872 < n ∧ n ≤ used ∧
    s.nv.control.fields.entryCount < c ∧ c ≤ s.nv.control.fields.entryCount + bs.length ∧
    (bs.length = 1 → n = used ∧ c = s.nv.control.fields.entryCount + 1)) ∧
  ∀ n c d, Reported 255 (.journalLow n c d) s t → passes

/-- Entries with these bodies, in this order, stand after the journal of s; what stood there is unchanged, slots used and
entry count have moved on by them, the low-space flag and JOURNAL_LOW are as R48 says, and the rest of the control record and
the retained store are as they were. -/
def Appended (bs : List EntryBody) (s t : State) : Prop :=
  t.nv.entries.take (journal s).length = journal s ∧ (t.nv.entries.drop (journal s).length).map (·.body) = bs ∧
  t.nv.control.fields = { s.nv.control.fields with
    slotsUsed := s.nv.control.fields.slotsUsed + (bs.map kindSlots).sum,
    entryCount := s.nv.control.fields.entryCount + bs.length } ∧
  t.nv.retained = s.nv.retained ∧ t.jc = { s.jc with lowSpace := t.jc.lowSpace } ∧ LowSpaceTold bs s t

/-- Every row that was dirty is, and so is each window row whose shown cells differ (R101, R105). -/
def WindowMarked (old new : Screen) : Prop :=
  (∀ k : Fin 4, old.windowLine k.val ≠ new.windowLine k.val → 16 + k.val ∈ new.dirty) ∧ ∀ r ∈ old.dirty, r ∈ new.dirty

/-- A position's record in a new state; one that was AWAITING has its outstanding entry in doubt (R84). -/
def leftFor (st : PState) (r : PosRec) : PosRec :=
  if r.state = .awaiting then
    { r with state := st, outstanding := none, inDoubt := r.outstanding.orElse fun _ => r.inDoubt }
  else { r with state := st }

/-- The form a showing by the part leaves: the form wanted when it is defined, else none (R99). -/
def shownForm (s : State) (n : Fin 32) : Option (Fin 32) := if (rd s.tables.forms n).isSome then some n else none

/-- Whether a token at the head of a position's key queue acts when the editor takes it (R110). -/
def Acts (s : State) (p : Pos) (t : Token) : Prop :=
  (rd s.posns p).state = .ready ∨ ((rd s.posns p).state = .balancing ∧ (rd s.screens p).form = some 1) ∨
    ((rd s.posns p).state = .signedOff ∧ (rd s.screens p).form = some 0 ∧ actsAtSignOn t = true)

/-- The capture number a capture takes (R23). -/
def captureAfter (s : State) (p : Pos) : Nat :=
  if (rd s.drawers p).captureNo < 255 then (rd s.drawers p).captureNo + 1 else 255

/-- A drawer after its capture (R23): the new capture number, every exceeded marker clear, amounts and counts kept. -/
def Captured (p : Pos) (s t : State) : Prop :=
  (rd t.drawers p).captureNo = captureAfter s p ∧
    ∀ i, rd (rd t.drawers p).lines i =
      ⟨(rd (rd s.drawers p).lines i).amount, (rd (rd s.drawers p).lines i).count, false⟩

/-- A balance begun on a position by a capture (R24): its context, the state BALANCING with an outstanding entry in
doubt and its timer stopped, form 1 shown; the tokens that wait are kept. -/
def BalanceBegun (k : BalKind) (leader : Option Pos) (p : Pos) (s t : State) : Prop :=
  (rd t.drawers p).ctx = some ⟨k, captureAfter s p, leader, (rd s.screens p).form⟩ ∧
  rd t.posns p = leftFor .balancing (rd s.posns p) ∧ (rd t.screens p).form = shownForm s 1 ∧
  ((rd s.posns p).state = .awaiting → (rd t.keys p).timer = none)

/-- A position signed off (R86): teller id and balance context gone, an outstanding entry in doubt, the key queue
emptied, form 0 shown; its drawer lines, capture number, entry number and usage kept. -/
def SignedOff (p : Pos) (s t : State) : Prop :=
  rd t.posns p = { leftFor .signedOff (rd s.posns p) with teller := none } ∧
  rd t.drawers p = { rd s.drawers p with ctx := none } ∧ (rd t.keys p).queue = [] ∧ (rd t.keys p).timer = none ∧
  (rd t.screens p).form = shownForm s 0 ∧ 0 ∈ (rd t.screens p).dirty

/-- Every position but one is as it was: its record, its key unit, its screen and its drawer. -/
def OthersKept (p : Pos) (s t : State) : Prop :=
  ∀ q, q ≠ p → rd t.posns q = rd s.posns q ∧ rd t.keys q = rd s.keys q ∧ rd t.screens q = rd s.screens q ∧
    rd t.drawers q = rd s.drawers q

/-- What a group balance of a leader's kind journals (R28): the BEGIN mark, one CAPTURE for every position of the group in
ascending order, and the END mark when no position of the group is signed on. -/
def groupBodies (k : BalKind) (l : Pos) (s : State) : List EntryBody :=
  let g := groupOf s.tables.positions l
  let off := g.filter fun q => (rd s.posns q).state == .signedOff
  midnightBodies s ++ [.groupBegin l k g off] ++
    (g.map fun q => .capture ⟨q, k, captureAfter s q, some l, (rd s.drawers q).lines⟩) ++
    if g.all fun q => (rd s.posns q).state == .signedOff then [.groupEnd l k []] else []

/-- What a group balance leaves (R28): its entries, every drawer of the group captured, every position of the group that
was signed on BALANCING under its leader, the pending set, and everything outside the group as it was. With room in the queue
of an ONLINE line, CAPTURE_TAKEN for each position of the group, and GROUP_COMPLETE when none is signed on (R23, R29). -/
def GroupBegun (k : BalKind) (l : Pos) (s t : State) : Prop :=
  let g := groupOf s.tables.positions l
  let on := g.filter fun q => (rd s.posns q).state != .signedOff
  Appended (groupBodies k l s) s t ∧ (∀ q ∈ g, Captured q s t) ∧ (∀ q ∈ on, BalanceBegun k (some l) q s t) ∧
    (∀ q, q ∉ on → rd t.posns q = rd s.posns q ∧ rd t.keys q = rd s.keys q ∧ rd t.screens q = rd s.screens q ∧
      (rd t.drawers q).ctx = (rd s.drawers q).ctx) ∧
    (∀ q, q ∉ g → rd t.drawers q = rd s.drawers q) ∧ (∀ m, m ≠ l → rd t.groups m = rd s.groups m) ∧
    rd t.groups l = (if on = [] then none else some ⟨k, on, []⟩) ∧
    (s.line.state = .online → s.line.outbound.length + g.length + 2 ≤ 28 →
      (∀ q ∈ g, Reported q (.captureTaken q k (captureAfter s q) s.clock.time (rd s.drawers q).lines) s t) ∧
      (on = [] → Reported l (.groupComplete l k g []) s t)) ∧
    t = { since s t with posns := t.posns, drawers := t.drawers, screens := t.screens, keys := t.keys, groups := t.groups,
                         clock := { s.clock with midnights := 0 } }

/-- The pending set of a position's group holds that position alone, so that the end of its balance empties it (R29). -/
def EmptiesGroup (p : Pos) (g : GroupRec) : Prop := p ∈ g.pending ∧ ∀ q ∈ g.pending, q = p

/-- The END mark the end of a position's balance adds when it empties its group's pending set (R29). -/
def groupEndBodies (p : Pos) (leader : Option Pos) (ab : Bool) (s : State) : List EntryBody :=
  match leader with
  | none => []
  | some l =>
    match rd s.groups l with
    | none => []
    | some g =>
      if p ∈ g.pending ∧ ∀ q ∈ g.pending, q = p then [.groupEnd l g.kind (g.abandoned ++ if ab then [p] else [])] else []

/-- A position's balance has ended for its group (R29, R35): out of the pending set, into the abandoned set if it was
abandoned; an emptied set removes the record and raises GROUP_COMPLETE. Every other group record is as it was. -/
def LeftGroup (p : Pos) (leader : Option Pos) (ab : Bool) (s t : State) : Prop :=
  (∀ m, leader ≠ some m → rd t.groups m = rd s.groups m) ∧
  ∀ l, leader = some l → (rd s.groups l = none → rd t.groups l = none) ∧
    ∀ g, rd s.groups l = some g →
      let done := g.abandoned ++ if ab then [p] else []
      (EmptiesGroup p g → rd t.groups l = none ∧ (s.line.state = .online → s.line.outbound.length ≤ 24 →
        Reported l (.groupComplete l g.kind (groupOf s.tables.positions l) done) s t)) ∧
      (¬EmptiesGroup p g → rd t.groups l = some ⟨g.kind, g.pending.filter fun q => q != p, done⟩)

/-! ## Checks in order -/

/-- The day is OPEN or CUTOFF and the Branch Clock is set: the first two checks of a balance (R25, R26, R28). -/
def Trading (s : State) : Prop := (s.day.state = .opened ∨ s.day.state = .cutoff) ∧ s.clock.isSet = true

/-- The status of the first check of a list that fails. -/
def FirstFails : List (Prop × Status) → Status → Prop
  | [], _ => False
  | (check, st) :: rest, x => (¬check ∧ x = st) ∨ (check ∧ FirstFails rest x)

/-- The Posting Codes entry a code names (R3). -/
def CodeIs (s : State) (n : Nat) (e : CodeEntry) : Prop := 1 ≤ n ∧ ∃ i : Fin 256, i.val = n ∧ rd s.tables.codes i = some e

/-- The Currencies entry a slot names (R1). -/
def CurrencyIs (s : State) (n : Nat) (c : Fin 8) (e : CurrencyEntry) : Prop := c.val = n ∧ rd s.tables.currencies c = some e

/-- The checks of Table 1-1 on a request, in order, each with its status (R7). Step 1 is two checks, since a STAND_IN
request in CUTOFF has a status of its own. -/
def postingChecks (req : PostReq) (s : State) : List (Prop × Status) :=
  [ (req.origin = .standIn → s.day.state ≠ .cutoff, .afterCutoff),
    (s.day.state = .opened ∨ (req.origin = .online ∧ s.day.state = .cutoff), .dayState),
    (s.clock.isSet = true, .clockUnset),
    (req.pos < 16, .badPosition),
    (∃ e, CodeIs s req.code e, .codeUndefined),
    (∃ c cur, CurrencyIs s req.slot c cur ∧
      ∀ e, CodeIs s req.code e → (e.cls = .exchangeBuy ∨ e.cls = .exchangeSell) → c ≠ 0, .currencyUndefined),
    (1 ≤ req.amount ∧ req.amount ≤ 999999999999, .amountRange),
    (∀ e c cur, CodeIs s req.code e → CurrencyIs s req.slot c cur → c ≠ 0 →
      ∃ r, rd s.tables.rates c = some r ∧ r.buy ≠ 0 ∧ (e.cls = .exchangeSell → r.sell ≠ 0), .rateUnset),
    (∀ e c cur, CodeIs s req.code e → CurrencyIs s req.slot c cur → needsCashable e.cls c = true →
      req.amount % cur.unit = 0, .notCashable),
    (∀ e, CodeIs s req.code e → e.cls = .internal → ∃ q, req.counterparty = some q ∧ q < 16 ∧ q ≠ req.pos,
      .badCounterparty),
    (∀ e c cur, CodeIs s req.code e → CurrencyIs s req.slot c cur →
      amountsFit s e.cls c req.amount (localValue s e.cls c cur req.amount) = true, .amountRange),
    (slotsUsed s + (midnightBodies s).length + 2 ≤ 16128, .journalFull) ]

/-- The checks of Table 10-1 on a stand-in request that passed Table 1-1, in order, each with its status (R155). -/
def standInChecks (p : Pos) (d : FormDesc) (req : PostReq) (pl : Plan) (s : State) : List (Prop × Status) :=
  [ ((rd s.posns p).state = .ready, .tellerState),
    (d.standIn = true, .formNotStandin),
    (pl.code.standIn = true, .codeNotStandin),
    (∃ c : Fin 4, c.val = pl.code.limitClass ∧ ∃ most, rd s.tables.limits c = some most ∧ 0 < most ∧ pl.value ≤ most,
      .overLimit),
    ((rd s.posns p).usage + pl.value ≤ (rd s.tables.positions p).elim 0 (·.budget), .budgetExhausted),
    (pl.code.cls = .internal → ∀ q : Pos, req.counterparty = some q.val → (rd s.posns q).state ≠ .balancing,
      .counterpartyBalancing) ]

/-- The checks of R63 on a well-formed OPEN that would open the day with these amounts, in order, each with its status. -/
def openingChecks (b : OpenBody) (amounts : Vector (Vector Int 8) 16) (s : State) : List (Prop × Status) :=
  [ (∃ u, s.day.state = .closed u, .dayState),
    (s.day.state = .closed true → b.discard = true, .undeliveredDay),
    (s.clock.isSet = true, .clockUnset),
    (rd s.tables.currencies 0 ≠ none, .noLocalCurrency),
    ((retainedGood s = true → s.nv.retained.date < b.date) ∧ (s.nv.control.good = true → businessDate s < b.date),
      .dateNotLater),
    (b.source = some .retained → retainedGood s = true, .retainedBad),
    (∀ (p : Pos) (c : Fin 8), let a := rd (rd amounts p) c
      (∀ cur, rd s.tables.currencies c = some cur → a % (cur.unit : Int) = 0) ∧ (rd s.tables.currencies c = none → a = 0),
      .cashUnitMismatch) ]

/-- The checks of R30 on the count of one slot, in order, each with its status; those from the third on apply to a FINAL
declaration with a difference. -/
def countChecks (s : State) (p : Pos) (kind : BalKind) (c : Fin 8) (cur : CurrencyEntry) (count : Nat) : List (Prop × Status) :=
  let live := (rd (rd s.drawers p).lines (cashLine c)).amount
  let d : Int := count - live
  let differs := kind = .final ∧ d ≠ 0
  [ (count ≤ 999999999999, .amountRange),
    (count % cur.unit = 0, .notCashable),
    (differs → live % (cur.unit : Int) = 0, .notCashable),
    (differs → d.natAbs ≤ 999999999999, .amountRange),
    (differs → c ≠ 0 → ∃ r, rd s.tables.rates c = some r ∧ r.buy ≠ 0, .rateUnset),
    (differs → c ≠ 0 → ∀ r, rd s.tables.rates c = some r →
      convert d.natAbs r.buy (localExponent s) cur.exponent ≤ 999999999999, .amountRange) ]

/-- A currency slot takes part in a declaration made on a form, with field i as its count (R30). -/
def CountsIn (s : State) (d : FormDesc) (c : Fin 8) (cur : CurrencyEntry) (i : Nat) : Prop :=
  rd s.tables.currencies c = some cur ∧ (∃ f : FieldDesc, d.fields[i]? = some f ∧ f.role = .count c.val) ∧
    ∀ j f, j < i → d.fields[j]? = some f → f.role ≠ .count c.val

/-! ## What a table takes -/

/-- A defining load with an item missing, or whose content is not as its table takes it (R176). -/
def Faulty {α : Type} (sound : α → Prop) (c : Content α) : Prop := c = .incomplete ∨ ∃ e, c = .define e ∧ ¬sound e

/-- A text of characters 0x20 to 0x7E. -/
def PrintableText (bs : List Byte) : Prop := ∀ b ∈ bs, 0x20 ≤ b.toNat ∧ b.toNat ≤ 0x7E

/-- A Currencies entry as R1 takes it for a slot. -/
def CurrencySound (s : State) (c : Fin 8) (e : CurrencyEntry) : Prop :=
  e.code.length = 3 ∧ (∀ b ∈ e.code, 0x41 ≤ b.toNat ∧ b.toNat ≤ 0x5A) ∧ e.exponent ≤ 3 ∧ 1 ≤ e.unit ∧ e.unit ≤ 1000 ∧
    ∀ d f, d ≠ c → rd s.tables.currencies d = some f → f.code ≠ e.code

/-- A Rates entry as R2 takes it. -/
def RateSound (e : RateEntry) : Prop :=
  e.buy ≤ 999999999999 ∧ e.sell ≤ 999999999999 ∧ (e.buy = 0 ∨ e.sell = 0 ∨ e.buy ≤ e.sell)

/-- A Posting Codes entry as R3 takes it. -/
def CodeSound (e : CodeEntry) : Prop :=
  e.name.length = 8 ∧ PrintableText e.name ∧ e.limitClass ≤ 3 ∧
  (e.cls = .nonCash → (∃ l, e.generalLine = some l ∧ 8 ≤ l ∧ l ≤ 12) ∧ e.direction ≠ none) ∧
  (e.cls ≠ .nonCash → e.generalLine = none ∧ e.direction = none) ∧
  (e.passbook = true → e.cls = .cashIn ∨ e.cls = .cashOut ∨ e.cls = .nonCash)

/-- A field of a form as R94 and R95 take it; that a TEXT field has no decimals is assumption 24. -/
def FieldSound (form : Nat) (f : FieldDesc) : Prop :=
  1 ≤ f.row ∧ f.row ≤ 15 ∧ f.col + fieldWidth f ≤ 80 ∧ 1 ≤ f.length ∧ f.preset.length ≤ f.length ∧
  (f.kind = .text → f.length ≤ 40 ∧ f.decimals = 0 ∧ PrintableText f.preset) ∧
  (f.kind = .numeric → f.length ≤ 15 ∧ f.decimals ≤ 3 ∧ f.decimals < f.length ∧
    ∀ b ∈ f.preset, 0x30 ≤ b.toNat ∧ b.toNat ≤ 0x39) ∧
  (f.prot = true → f.mandatory = false ∧ f.role = .none) ∧
  (f.role = .code → f.kind = .numeric ∧ f.length ≤ 3 ∧ f.decimals = 0) ∧
  (f.role = .currency → f.kind = .numeric ∧ f.length = 1) ∧
  (f.role = .counterparty → f.kind = .numeric ∧ f.length ≤ 2 ∧ f.decimals = 0) ∧
  (f.role = .amount → f.kind = .numeric) ∧ (f.role = .account → f.kind = .text ∧ f.length ≤ 19) ∧
  ∀ c, f.role = .count c → f.kind = .numeric ∧ c ≤ 7 ∧ form = 1

/-- A Form Fields entry as R95 takes it: at most 24 fields in ascending order, none sharing a cell, each role but NONE once,
and the posting map of a form with the stand-in flag. -/
def FormSound (form : Nat) (d : FormDesc) : Prop :=
  d.fields.length ≤ 24 ∧ (∀ f ∈ d.fields, FieldSound form f) ∧
  d.fields.Pairwise (fun f g => f.row < g.row ∨ (f.row = g.row ∧ f.col + fieldWidth f ≤ g.col)) ∧
  d.fields.Pairwise (fun f g => f.role = .none ∨ f.role ≠ g.role) ∧
  (∀ c, d.fixedCode = some c → d.standIn = true ∧ 1 ≤ c ∧ c ≤ 255) ∧
  (d.standIn = true → form ≠ 0 ∧ form ≠ 1 ∧ (∃ f ∈ d.fields, f.role = .amount) ∧
    ((∃ f ∈ d.fields, f.role = .code) ↔ d.fixedCode = none))

/-- A Positions entry as R77 takes it for a position. -/
def PositionSound (p : Pos) (e : PositionEntry) : Prop :=
  e.home ≤ 3 ∧ (∀ a, e.alternate = some a → a ≤ 3) ∧ e.budget ≤ 999999999999 ∧ (p = 0 → e.role = .leader)

/-- A Book Layouts entry as R133 takes it: every field in its range, and the five items apart within 80 columns. -/
def LayoutSound (y : Layout) : Prop :=
  let items := [(y.dateCol, 8), (y.nameCol, 8), (y.amountCol, y.amountWidth), (y.balanceCol, y.balanceWidth), (y.markCol, 1)]
  1 ≤ y.linesPerPage ∧ y.linesPerPage ≤ 40 ∧ 1 ≤ y.pages ∧ y.pages ≤ 32 ∧ y.fold < y.linesPerPage ∧
  2 ≤ y.amountWidth ∧ y.amountWidth ≤ 20 ∧ 2 ≤ y.balanceWidth ∧ y.balanceWidth ≤ 20 ∧ (∀ i ∈ items, i.1 + i.2 ≤ 80) ∧
  items.Pairwise fun i j => i.1 + i.2 ≤ j.1 ∨ j.1 + j.2 ≤ i.1

/-- A Parameters entry as R178 takes it. -/
def ParamsSound (x : Params) : Prop :=
  10 ≤ x.lineTimer ∧ x.lineTimer ≤ 600 ∧ 5 ≤ x.entryTimer ∧ x.entryTimer ≤ 300 ∧ 5 ≤ x.ackTimer ∧ x.ackTimer ≤ 120 ∧
    1 ≤ x.retryLimit ∧ x.retryLimit ≤ 15 ∧ 15 ≤ x.bookWait ∧ x.bookWait ≤ 600

/-- A line of BOOK LINES within the ranges of R124 and R126. -/
def LineSound (l : BookLineItem) : Prop :=
  dateOk l.date = true ∧ l.name.length = 8 ∧ PrintableText l.name ∧ l.amount.natAbs ≤ 999999999999 ∧ l.exponent ≤ 3 ∧
    ∀ v, l.balance = some v → v.natAbs ≤ 99999999999999

/-! ## The retained store -/

/-- The retained store written for a cause with the day's date, every drawer's cash lines and their CRC, and read back
(R73): a read-back that agrees clears the bad mark; another sets it, leaves the ones' complement of the right CRC and is
reported. -/
def RetainedWritten (cause : RetainedCause) (readBack : Option RetainedRec) (s t : State) : Prop :=
  ∃ w : RetainedRec, w.date = businessDate s ∧
    (∀ p c, rd (rd w.amounts p) c = (rd (rd s.drawers p).lines (cashLine c)).amount) ∧
    w.crc = crc16 (retainedBytes w.date w.amounts) ∧
    ((readBack = none ∨ readBack = some w) → t.nv.retained = w ∧ t.day.retainedBad = false) ∧
    ∀ x, readBack = some x → x ≠ w → t.nv.retained = { x with crc := ~~~w.crc } ∧ t.day.retainedBad = true ∧
      (s.line.state = .online → s.line.outbound.length ≤ 24 →
        Reported 255 (.retainedWriteFailed (businessDate s) cause) s t)

/-- The entries with these sequence numbers that showed STORED show BACKLOGGED; every other entry of the journal of s is
as it was (R49, R67). -/
def Backlogged (seqs : List Nat) (s t : State) : Prop :=
  ∀ q e, entryAt q s = some e →
    entryAt q t = some (if q ∈ seqs ∧ e.print = .stored then { e with print := .backlogged } else e)

/-! ## Lines, jobs and printers -/

/-- The passbook line store has a place for a line of an account (R125). -/
def StoreHasRoom (a : Account) (s : State) : Prop :=
  storedLines s < 512 ∧ (findAccount a s = none → s.store.length < 64) ∧
    ∀ r, findAccount a s = some r → r.lines.length < 32

/-- A printer takes another job (R129, R131). -/
def TakesJob (n : Prn) (s : State) : Prop := (rd s.printers n).state ≠ .offline ∧ (rd s.queues n).length < 8

/-- A job for an account with an owner placed at the tail of a printer's queue (R128, R129): the job mark set, the owner's
NO PRINTER mark cleared, and an EMPTY printer with an empty queue waiting for the book with its prompt (R139). -/
def JobPlaced (n : Prn) (p : Pos) (a : Account) (s t : State) : Prop :=
  rd t.queues n = rd s.queues n ++ [⟨a, p⟩] ∧ (∀ m, m ≠ n → rd t.printers m = rd s.printers m ∧ rd t.queues m = rd s.queues m) ∧
  jobMarked a t = true ∧ (rd t.screens p).noPrinter = false ∧ 0 ∈ (rd t.screens p).dirty ∧
  (rd s.queues n = [] → (rd s.printers n).state = .empty → rd (rd t.screens p).prompts n = some .insertBook ∧
    rd t.printers n = { rd s.printers n with
      state := .waitBook, timer := some ⟨s.tables.params.bookWait, s.tables.params.bookWait⟩, ejectJob := false,
      reason := none, job := JobRec.initial }) ∧
  (rd s.queues n = [] → (rd s.printers n).state ≠ .empty →
    rd t.printers n = { rd s.printers n with job := JobRec.initial }) ∧
  (rd s.queues n ≠ [] → rd t.printers n = rd s.printers n)

/-- An attempt to create a job for an account with an owner (R129): on the home printer of the owner's Positions entry if it
takes a job, else on the alternate if that does, else none and the owner's NO PRINTER mark set. -/
def JobAttempted (p : Pos) (a : Account) (s t : State) : Prop :=
  let home : Prn → Prop := fun n => ∃ e, rd s.tables.positions p = some e ∧ e.home = n.val
  let alternate : Prn → Prop := fun n => ∃ e, rd s.tables.positions p = some e ∧ e.alternate = some n.val
  (∀ n, home n → TakesJob n s → JobPlaced n p a s t) ∧
  (∀ n, alternate n → TakesJob n s → (∀ m, home m → ¬TakesJob m s) → JobPlaced n p a s t) ∧
  ((∀ n, home n ∨ alternate n → ¬TakesJob n s) →
    t.queues = s.queues ∧ t.printers = s.printers ∧ jobMarked a t = jobMarked a s ∧
    (rd t.screens p).noPrinter = true ∧ 0 ∈ (rd t.screens p).dirty)

/-- The printer a job of the faulted printer n moves to, with the queues as they stand when it is tested: its owner's
alternate, if that is another printer, not OFFLINE, with room (R131). -/
def alternateFor (n : Prn) (s : State) (qs : Vector (List Job) 4) (j : Job) : Option Prn :=
  allPrn.find? fun m => m != n && (rd s.tables.positions j.owner).any (fun e => e.alternate == some m.val) &&
    (rd s.printers m).state != .offline && decide ((rd qs m).length < 8)

/-- The queues after the jobs of a faulted printer are moved or dropped, in queue order (R131). -/
def movedQueues (n : Prn) (s : State) : List Job → Vector (List Job) 4 → Vector (List Job) 4
  | [], qs => qs
  | j :: js, qs => movedQueues n s js <|
    match alternateFor n s qs j with
    | some m => upd qs m fun q => q ++ [j]
    | none => qs

/-- A printer OFFLINE by a fault (R147): its timer stopped and its prompt withdrawn, the job that holds the book removed
with PRINT_RESULT, the rest of its queue moved to the owners' alternates or dropped with NO PRINTER (R131), lines kept,
PRINTER_STATE raised. -/
def WentDown (n : Prn) (c : OfflineCause) (s t : State) : Prop :=
  let r := rd s.printers n
  let q := rd s.queues n
  let rest := if r.holds then q.tail else q
  let before := fun js : List Job => movedQueues n s js (wr s.queues n [])
  rd t.printers n = { r with state := .offline, timer := none, ejectJob := false, reason := none, job := JobRec.initial } ∧
  t.queues = before rest ∧
  (∀ m, m ≠ n → (rd t.printers m).state =
    if (rd s.printers m).state = .empty ∧ rd s.queues m = [] ∧ rd t.queues m ≠ [] then .waitBook
    else (rd s.printers m).state) ∧
  (∀ p, rd (rd t.screens p).prompts n = none ∧
    ((∀ j ∈ rest, j.owner ≠ p) → (rd t.screens p).noPrinter = (rd s.screens p).noPrinter)) ∧
  (∀ j js ks, rest = js ++ j :: ks →
    ((∀ k ∈ ks, k.owner ≠ j.owner) → (rd t.screens j.owner).noPrinter = (alternateFor n s (before js) j).isNone) ∧
    ((q.map (·.account)).Nodup → jobMarked j.account s = true →
      jobMarked j.account t = (alternateFor n s (before js) j).isSome)) ∧
  ((s.store.map (·.account)).Nodup → ∀ x, accountLines x t = accountLines x s) ∧
  (r.holds = true → (q.map (·.account)).Nodup → ∀ j js, q = j :: js → jobMarked j.account t = false) ∧
  (s.line.state = .online → s.line.outbound.length ≤ 24 →
    Reported 255 (.printerState n .offline (some c) 0) s t ∧
    (r.holds = true → ∀ j js, q = j :: js → Reported j.owner (.printResult n j.account j.owner .fault
      { r.job.life with faultDuringLine := r.job.faultDuringLine || r.state == .printing }) s t)) ∧
  t.out = [] ∧ t = { since s t with printers := t.printers, queues := t.queues, screens := t.screens, store := t.store,
                                    nv := s.nv, jc := s.jc }

/-- The characters a value takes in its field's cells, from the first cell on, blanks after them (R96). -/
def shownChars (f : FieldDesc) (v : List Byte) : List Byte :=
  let digits := List.replicate (f.decimals + 1 - v.length) 0x30 ++ v
  let point : List Byte := if f.decimals = 0 then [] else [0x2E]
  if f.kind = .text ∨ v = [] then v
  else List.replicate (fieldWidth f - (digits.length + point.length)) 0x20 ++
    digits.take (digits.length - f.decimals) ++ point ++ digits.drop (digits.length - f.decimals)

/-- Whether a field's cells take in the cell of a form-area row and a column (R94). -/
def Covers (f : FieldDesc) (r : Fin 15) (c : Fin 80) : Prop :=
  f.row = r.val + 1 ∧ f.col ≤ c.val ∧ c.val < f.col + fieldWidth f

/-- The form area as R96 leaves it when a form is shown: outside the fields the Form Text entries, protected; in a field's
cells its preset, with the field's attribute and protected flag. -/
def AreaShows (s : State) (n : Fin 32) (d : FormDesc) (area : Vector (Vector Cell 80) 15) : Prop :=
  formOk n.val d = true → ∀ (r : Fin 15) (c : Fin 80), let cell := rd (rd area r) c
    ((∀ f ∈ d.fields, ¬Covers f r c) → ∀ i : Fin 512, i.val = n.val * 16 + r.val + 1 →
      (rd s.tables.texts i = none → cell = ⟨0x20, .normal, true⟩) ∧
      ∀ x, rd s.tables.texts i = some x → cell = ⟨printable (x.text.getD c.val 0x20), x.attr, true⟩) ∧
    ∀ f ∈ d.fields, Covers f r c →
      cell = ⟨printable ((shownChars f f.preset).getD (c.val - f.col) 0x20), f.attr, f.prot⟩

/-- The form area old with every field's characters back at its preset, and no other cell changed: CLEAR does not rewrite the
Form Text rows (R115). That a cell keeps its attribute and protected flag is DEDUCED (assumption 10). -/
def PresetsBack (n : Fin 32) (d : FormDesc) (old new : Vector (Vector Cell 80) 15) : Prop :=
  formOk n.val d = true → ∀ (r : Fin 15) (c : Fin 80),
    ((∀ f ∈ d.fields, ¬Covers f r c) → rd (rd new r) c = rd (rd old r) c) ∧
    ∀ f ∈ d.fields, Covers f r c → rd (rd new r) c =
      { rd (rd old r) c with ch := printable ((shownChars f f.preset).getD (c.val - f.col) 0x20) }

/-- Whether a field of a form is unprotected. -/
def Unprotected (fs : List FieldDesc) (i : Nat) : Prop := ∃ f : FieldDesc, fs[i]? = some f ∧ f.prot = false

/-- Field j is the next unprotected field after field i in field order, wrapping from the last to the first (R112). -/
def NextUnprotected (fs : List FieldDesc) (i j : Nat) : Prop :=
  Unprotected fs j ∧
    ((i < j ∧ ∀ k, i < k → k < j → ¬Unprotected fs k) ∨
      (j ≤ i ∧ (∀ k, i < k → ¬Unprotected fs k) ∧ ∀ k, k < j → ¬Unprotected fs k))

/-- Field j is the previous unprotected field before field i, wrapping from the first to the last (R112). -/
def PreviousUnprotected (fs : List FieldDesc) (i j : Nat) : Prop :=
  Unprotected fs j ∧
    ((j < i ∧ ∀ k, j < k → k < i → ¬Unprotected fs k) ∨
      (i ≤ j ∧ (∀ k, k < i → ¬Unprotected fs k) ∧ ∀ k, j < k → ¬Unprotected fs k))

/-- The TONE of a refused token: one is sent to a station that is present (R106). -/
def toneOut (s : State) (p : Pos) : List Output := if (rd s.screens p).present = true then [.tone p] else []

/-- The editor of a position alone has acted: its key unit, its screen and a TONE aside, the state is as it was. -/
def EditorOnly (p : Pos) (s t : State) : Prop :=
  t = { s.begin with keys := t.keys, screens := t.screens, out := t.out } ∧ OthersKept p s t

/-- A state in which the editor has taken a token and refused it: the token is gone and a TONE was sent. -/
def Refused (p : Pos) (rest : List Token) (s t : State) : Prop :=
  EditorOnly p s t ∧ rd t.keys p = { rd s.keys p with queue := rest } ∧ rd t.screens p = rd s.screens p ∧
    t.out = toneOut s p

/-- A state in which the editor has taken a token and refused it with a TONE, with a notice when a text is given, and with the
cursor moved to the first place of a field when a field is given: nothing else has changed. -/
def RefusedWith (p : Pos) (rest : List Token) (text : Option (List Byte)) (field : Option (Nat × FieldDesc)) (s t : State) :
    Prop :=
  let k := rd s.keys p
  let moves : Nat × FieldDesc → Prop := fun x => field = some x ∧ ¬(k.cursorField = some x.1 ∧ k.textPos = 0)
  let shown := match text with
    | none => rd s.screens p
    | some x => Screen.partNotice x (rd s.screens p)
  EditorOnly p s t ∧ t.out = toneOut s p ∧
    rd t.keys p = { k with queue := rest,
                           cursorField := (match field with
                             | none => k.cursorField
                             | some x => some x.1),
                           textPos := if field = none then k.textPos else 0 } ∧
    SameButDirty { shown with cursor := (rd t.screens p).cursor } (rd t.screens p) ∧
    (∀ r ∈ shown.dirty, r ∈ (rd t.screens p).dirty) ∧
    (∀ x, moves x → (rd t.screens p).cursor = some (cursorCell x.2 0) ∧ x.2.row ∈ (rd t.screens p).dirty) ∧
    ((∀ x, ¬moves x) → (rd t.screens p).cursor = (rd s.screens p).cursor)

/-- The command by which the editor takes a token. -/
def takeOf (p : Pos) : Token → Instr
  | .character _ => .character p
  | .fieldNext => .fieldNext p
  | .fieldBack => .fieldBack p
  | .backspace => .backspace p
  | .eraseField => .eraseField p
  | .clear => .clear p
  | .transmit => .transmit p
  | .balance => .balance p
  | .signOff => .signOff p
  | .groupBalance => .groupBalance p
  | .groupClose => .groupClose p
  | .printBook => .printBook p
  | .cancelBook => .cancelBook p
  | .attention => .attention p

/-- Every printer but one is as it was, with its queue. -/
def OtherPrintersKept (n : Prn) (s t : State) : Prop :=
  ∀ m, m ≠ n → rd t.printers m = rd s.printers m ∧ rd t.queues m = rd s.queues m

/-- One printer alone has acted: its record and the commands it was sent aside, the state is as it was. -/
def PrinterOnly (n : Prn) (s t : State) : Prop :=
  t = { s.begin with printers := t.printers, out := t.out } ∧ OtherPrintersKept n s t

/-- The in-flight entry f of a new block, as R162 packs it with a number from a slot on: the carried entries of the extent
are taken in slot order while their slots do not pass 16; the range runs from the first to the last of them, and the
block is final when none is left. -/
def PackedBlock (k : BatchKind) (slot extentEnd number : Nat) (f : Flight) (t : State) : Prop :=
  ∃ ys zs, carriedFrom k slot extentEnd t = ys ++ zs ∧ slotsOf ys ≤ 16 ∧
    (∀ z, zs.head? = some z → 16 < slotsOf ys + z.2.size) ∧
    ∃ x y, ys.head? = some x ∧ ys.getLast? = some y ∧
      f = ⟨number, x.1, y.1 + y.2.size - 1, x.2.seq, ys.length, slotsOf ys, zs.isEmpty⟩

/-- BLOCKs offered as R163 gives, from a batch record b, in-flight entries fl and an outbound queue base, with the state t
as the result. The queue gains in block-number order one BLOCK for each block from the next block to queue on: the
outstanding ones again, then new ones, each packed where the one before it ended. Offering stops when the queue is full,
or when no block waits and four are outstanding, the final block is packed or none is left to pack. -/
def BlocksOffered (b : Batch) (fl : List Flight) (base : List OutMsg) (t : State) : Prop :=
  ∃ (c : Batch) (new : List Flight), t.engine.batch = some c ∧ t.engine.flights = fl ++ new ∧
    c = { b with nextSlot := (new.getLast?.map fun f => f.last + 1).getD b.nextSlot, highest := b.highest + new.length,
                 nextQueue := c.nextQueue, carried := b.carried + (new.map (·.entries)).sum,
                 final := new.getLast?.elim b.final fun f => if f.final then some f.number else none } ∧
    b.nextQueue ≤ c.nextQueue ∧ c.nextQueue ≤ c.highest + 1 ∧
    (new ≠ [] → c.nextQueue = c.highest + 1 ∧ c.highest - c.acked ≤ 4) ∧
    (∀ i f, new[i]? = some f → PackedBlock b.kind (((new.take i).getLast?.map fun g => g.last + 1).getD b.nextSlot)
      b.extentEnd (b.highest + i + 1) f t) ∧
    t.line.outbound = base ++ ((fl ++ new).filter fun f => b.nextQueue ≤ f.number && f.number < c.nextQueue).map
      (fun f => blockMessage b f t) ∧
    (28 ≤ t.line.outbound.length ∨ (c.nextQueue = c.highest + 1 ∧
      (4 ≤ c.highest - c.acked ∨ c.final ≠ none ∨ ∀ f, ¬PackedBlock c.kind c.nextSlot c.extentEnd (c.highest + 1) f t)))

/-- The batch record a batch of a kind starts with after a last batch number, on the journal of t (R161). -/
def firstBatch (k : BatchKind) (last : Nat) (t : State) : Batch :=
  { kind := k, number := if last = 255 then 1 else last + 1, extentEnd := slotsUsed t,
    nextSlot := if k = .day then t.nv.control.fields.delivered else 0,
    highest := 0, acked := 0, nextQueue := 1, final := none, retries := 0, carried := 0 }

/-- A batch of a kind started (R161) from the engine of s, with an outbound queue base: PAUSED in STAND_IN; ACTIVE on the
ONLINE line, its blocks packed and offered, the ack timer started by the first of them (R165); complete at once when its
extent holds no entry (R168). -/
def Started (k : BatchKind) (base : List OutMsg) (s t : State) : Prop :=
  let b := firstBatch k s.engine.lastBatch t
  t.engine.lastBatch = b.number ∧ t.engine.dayAwaited = (if k = .day then false else s.engine.dayAwaited) ∧
  t.engine.notices = s.engine.notices ∧ t.engine.recoveryDone = s.engine.recoveryDone ∧
  if carriedFrom k b.nextSlot b.extentEnd t = [] then
    t.engine.state = .idle ∧ t.engine.batch = none ∧ t.engine.flights = [] ∧ t.engine.timer = none ∧
    t.line.outbound = base ++ (if t.line.state = .online ∧ base.length < 28 then
      [⟨255, 0, .report (.transferComplete k b.number 0 0
        (if k = .day then some t.nv.control.fields.delivered else none))⟩] else []) ∧
    t.day.completions = s.day.completions ++ (if k = .day then [businessDate t] else [])
  else
    t.day.completions = s.day.completions ∧
    (t.line.state = .standIn → t.engine.state = .paused ∧ t.engine.batch = some b ∧ t.engine.flights = [] ∧
      t.engine.timer = none ∧ t.line.outbound = base) ∧
    (t.line.state = .online → t.engine.state = .active ∧ BlocksOffered b [] base t ∧
      t.engine.timer = if t.engine.flights = [] then none else some ⟨t.tables.params.ackTimer, t.tables.params.ackTimer⟩)

/-- A batch b of the engine of s goes on ACTIVE under its own number with a count of retries (R165, R167, R170): every
outstanding block is offered again from the oldest, then new ones; the ack timer starts afresh when a block is outstanding. -/
def Resumed (b : Batch) (retries : Nat) (base : List OutMsg) (s t : State) : Prop :=
  BlocksOffered { b with nextQueue := b.acked + 1, retries := retries } s.engine.flights base t ∧
  t.engine = { s.engine with state := .active, batch := t.engine.batch, flights := t.engine.flights,
                             timer := t.engine.timer } ∧
  t.engine.timer = if b.acked < b.highest ∨ t.engine.flights ≠ s.engine.flights then
    some ⟨t.tables.params.ackTimer, t.tables.params.ackTimer⟩ else s.engine.timer

/-- Only the Transfer Engine, what it has told the Day Controller, and the outbound queue differ. -/
def EngineStep (s t : State) : Prop :=
  t = { s with engine := t.engine, day := { s.day with completions := t.day.completions },
               line := { s.line with outbound := t.line.outbound } }

/-- The command by which the engine takes a notice of the line. -/
def noticeCommand : LineNotice → Instr
  | .loss => .transferLineLoss
  | .back => .transferLineReturn

/-- The commands of a list, taken one after the other from s, leave t. -/
def RunsTo : List Instr → State → State → Prop
  | [], s, t => t = s
  | c :: cs, s, t => ∃ u, exec c s = .next u ∧ RunsTo cs u t

/-- The entries of the journal whose forward state is PENDING (R40). -/
def pendingEntries (s : State) : Nat := (journal s).countP fun e => e.fwd == .pending

/-- Blocks of a batch acknowledged through a number (R164, R50): in a FORWARD batch the carried entries of their in-flight
ranges are FORWARDED, every other entry is as it was, and a pending count that counted the PENDING entries counts them still;
in a DAY batch the delivered-through slot is the slot after the last range, and no entry changes. -/
def Acknowledged (b : Batch) (n : Nat) (s t : State) : Prop :=
  let gone := s.engine.flights.filter fun f => decide (f.number ≤ n)
  (b.kind = .forward → t.nv.control = s.nv.control ∧
    (∀ f ∈ gone, ∀ x ∈ flightEntries .forward f s, entryAt x.2.seq s = some x.2 →
      entryAt x.2.seq t = some { x.2 with fwd := .forwarded }) ∧
    (∀ q, (∀ f ∈ gone, ∀ x ∈ flightEntries .forward f s, x.2.seq ≠ q) → entryAt q t = entryAt q s) ∧
    (s.jc.pendingCount = pendingEntries s → t.jc.pendingCount = pendingEntries t)) ∧
  (b.kind = .day → t.nv.entries = s.nv.entries ∧ t.jc = s.jc ∧
    t.nv.control.fields = { s.nv.control.fields with delivered := t.nv.control.fields.delivered } ∧
    ∀ f, gone.getLast? = some f → (gone.map (·.last)).Pairwise (· < ·) →
      (∀ g ∈ gone, atBoundary (g.last + 1) s = true ∧ s.nv.control.fields.delivered ≤ g.last + 1 ∧
        g.last + 1 ≤ slotsUsed s) → t.nv.control.fields.delivered = f.last + 1) ∧
  (gone = [] → t.nv = s.nv) ∧ t.nv.retained = s.nv.retained ∧
  t.jc = { s.jc with pendingCount := t.jc.pendingCount }

/-- The commands that are inbound line messages; an UNKNOWN_KIND of a code that names a kind is none (assumption 2). -/
def isMessage : Instr → Bool
  | .unknownKind _ k => !inboundKinds.contains k
  | .lineCheck .. | .paint .. | .form .. | .notice .. | .post .. | .bookLines .. => true
  | .formFieldsLoad .. | .formTextLoad .. | .postingCodesLoad .. | .currenciesLoad .. | .ratesLoad .. => true
  | .limitClassesLoad .. | .positionsLoad .. | .bookLayoutsLoad .. | .parametersLoad .. | .tableLoadReadOnly .. => true
  | .tableQuery .. | .positionsQuery .. | .drawerQuery .. | .printerStatusQuery .. | .journalStatusQuery .. => true
  | .dayAndLineStatusQuery .. | .openDay .. | .closeDay .. | .setTime .. | .setCutoff .. | .clearCutoff .. => true
  | .forceClose .. | .sendDay .. | .sendForward .. | .signOn .. | .forceSignOff .. | .unlock .. => true
  | .positionControlBalance .. | .positionControlGroupBalance .. | .transferAck .. | .restart .. => true
  | _ => false

/-! ## Invariants -/

/-- The law of R125, with the key of R124: the store holds at most 512 lines, at most 64 records and at most 32 lines for an
account, and no account has two records. -/
def StoreBounded (s : State) : Prop :=
  storedLines s ≤ 512 ∧ s.store.length ≤ 64 ∧ (s.store.map (·.account)).Nodup ∧ ∀ r ∈ s.store, r.lines.length ≤ 32

/-- The law of R128, with the job mark of R124: an account whose job mark is set has one job in the four queues, and any other
has none. -/
def OneJobEach (s : State) : Prop :=
  ∀ a, ((allPrn.flatMap fun n => rd s.queues n).countP fun j => j.account == a) = if jobMarked a s then 1 else 0

/-- A control record that checks good in OPEN or CUTOFF has a slot left for the CLOSE entry. -/
def ClosingFits (m : JournalMem) : Prop :=
  (m.control.fields.day = some .opened ∨ m.control.fields.day = some .cutoff) → m.control.fields.slotsUsed ≤ 16383

/-- The law of R45, slots used at most 16,384 in a journal that can be read, and what keeps it: in OPEN and CUTOFF there is room
for the abandonment of every balance and for the CLOSE entry, and the journal memory, as it stands and as a power failure
within the last event would leave it, has room for the CLOSE entry; an unreadable journal is that of a CLOSED day; no batch
runs in RECOVERING or on an unreadable journal; and a position with a balance context is BALANCING. -/
def SlotsBounded (s : State) : Prop :=
  (s.jc.unreadable = false → slotsUsed s ≤ 16384) ∧
  ((s.day.state = .opened ∨ s.day.state = .cutoff) →
    slotsUsed s + (allPos.countP fun p => (rd s.drawers p).ctx.isSome) + 1 ≤ 16384) ∧
  ((s.jc.unreadable = false ∨ s.nv.control.good = true) → ClosingFits s.nv) ∧
  (∀ k, (cutMemory k false s).control.good = true → ClosingFits (cutMemory k false s)) ∧
  (s.jc.unreadable = true → ∃ u, s.day.state = .closed u) ∧
  ((s.day.state = .recovering ∨ s.jc.unreadable = true) → s.engine.batch = none) ∧
  ∀ p, (rd s.drawers p).ctx ≠ none → (rd s.posns p).state = .balancing

/-- The sizes and ranges of R45, R58, R94, R101, R105, R109, R125, R128 and R174: outbound queue, key queues, job queues,
clock; each screen's dirty-row set, ascending with each of the rows 0 to 19 at most once, its notice column and its review
offset; every defined form as a load that passes its checks leaves it (R95); the store, the jobs of an account and the slots
used. -/
def WithinBounds (s : State) : Prop :=
  s.line.outbound.length ≤ 32 ∧ (∀ p, (rd s.keys p).queue.length ≤ 16) ∧ (∀ n, (rd s.queues n).length ≤ 8) ∧
    s.clock.time ≤ 86399 ∧ s.clock.midnights ≤ 255 ∧ (s.clock.isSet = false → s.clock.time = 0) ∧
    (∀ p, (rd s.screens p).dirty.Pairwise (· < ·) ∧ (∀ r ∈ (rd s.screens p).dirty, r ≤ 19) ∧
      (rd s.screens p).column ≤ 80 ∧ (rd s.screens p).review ≤ 12) ∧
    (∀ n d, rd s.tables.forms n = some d → formOk n.val d = true) ∧ StoreBounded s ∧ OneJobEach s ∧ SlotsBounded s

/-- The law of R163, with R160 and R162 on the batch record: no batch exists in IDLE and none without its record; no more
than 4 blocks are sent and unacknowledged; and the blocks acknowledged are those numbered 1 to acknowledged-through, so
that they were acknowledged in block-number order: the in-flight entries are, in order, the blocks after them up to the
highest sent. -/
def WindowHeld (s : State) : Prop :=
  (s.engine.state = .idle ↔ s.engine.batch = none) ∧ (s.engine.batch = none → s.engine.flights = []) ∧
  ∀ b, s.engine.batch = some b → b.acked ≤ b.highest ∧ b.highest - b.acked ≤ 4 ∧
    b.acked < b.nextQueue ∧ b.nextQueue ≤ b.highest + 1 ∧
    s.engine.flights.map (·.number) = List.range' (b.acked + 1) (b.highest - b.acked)

/-- A day state in which no position is signed on and no job exists: CLOSED, RECOVERING and CLOSING. -/
def atRest : DayState → Bool
  | .closed _ => true
  | .recovering => true
  | .closing => true
  | .opened => false
  | .cutoff => false

/-- The law of R67, and what keeps it: a replay goes on only while the day is RECOVERING; a printer that waits for a book,
or holds one for a job, has a job in its queue; in CLOSED, RECOVERING and CLOSING every position is SIGNED_OFF and no job is
queued. -/
def RestsOutsideTrading (s : State) : Prop :=
  (s.jc.replay ≠ none → s.day.state = .recovering) ∧
  (∀ n, ((rd s.printers n).holds = true ∨ (rd s.printers n).state = .waitBook) → rd s.queues n ≠ []) ∧
    (atRest s.day.state = true → (∀ p, (rd s.posns p).state = .signedOff) ∧ ∀ n, rd s.queues n = [])

/-- The law of R50 on a journal memory: an entry is PENDING only if it is a stand-in posting. -/
def PendingIsStandIn (m : JournalMem) : Prop :=
  ∀ e ∈ m.entries, e.fwd = .pending → ∃ r, e.body = .posting r ∧ r.origin = .standIn

/-- The law of R50 on the journal memory as it stands, and as a power failure within the last event would leave it. -/
def ForwardLaw (s : State) : Prop := PendingIsStandIn s.nv ∧ ∀ k, PendingIsStandIn (cutMemory k false s)

end Sys2Proof.Machine
end

