-- ==== Sys2Proof/WellFormed.lean ====
section
/-! DEFINITION. The commands that can reach the part: what the frame header, the table index and the printer's stripe
event can carry at all (R136, R172, R180, section 12.3). A command outside these is no command of the part; one inside
them may still be refused by a rule. -/

namespace Sys2Proof

open Sys2Proof.Machine

/-- A frame header: one byte of position, two bytes of tag (R172). -/
def hdrOk (h : Hdr) : Bool := h.pos < 256 && h.tag < 65536

/-- Bytes that fit a frame body (R172). -/
def bodyOk (bs : List Byte) : Bool := bs.length ≤ 1024

/-- A table index of two bytes (section 12.3). -/
def indexFits (i : Nat) : Bool := i < 65536

/-- A table id of one byte and an index of two, when the body holds them (section 12.3, R175). -/
def tableRefOk (b : Option (Nat × Nat)) : Bool := b.all fun x => x.1 < 256 && indexFits x.2

/-- A kind code that names no inbound kind (R173, R180). -/
def unknownKindOk (k : Byte) : Bool := !inboundKinds.contains k

/-- The ranges a printer's STRIPE DATA carries (R136). -/
def stripeOk (d : StripeData) : Bool := d.page ≤ 255 && d.line ≤ 40

/-- The presets of a Form Fields load fit the frame body. -/
def formBodyOk : Content FormDesc → Bool
  | .define d => d.fields.all fun f => bodyOk f.preset
  | _ => true

/-- The text of a Form Text load fits the frame body. -/
def textBodyOk : Content FormText → Bool
  | .define t => bodyOk t.text
  | _ => true

/-- The name of a Posting Codes load fits the frame body. -/
def codeBodyOk : Content CodeEntry → Bool
  | .define e => bodyOk e.name
  | _ => true

/-- The code of a Currencies load fits the frame body. -/
def currencyBodyOk : Content CurrencyEntry → Bool
  | .define e => bodyOk e.code
  | _ => true

/-- The names of a BOOK LINES body fit the frame body. -/
def linesBodyOk : BookLinesBody → Bool
  | .full _ _ ls => ls.all fun l => bodyOk l.name
  | .incomplete => true

/-- Whether a command can reach the part. -/
def wellFormed : Instr → Bool
  | .powerOn => true
  | .replayEntry => true
  | .recoveryFinish _ => true
  | .frameDiscard i => !i.bytes.isEmpty
  | .unknownKind h k => hdrOk h && unknownKindOk k
  | .lineCheck h => hdrOk h
  | .paint h b => hdrOk h && bodyOk b.run
  | .form h _ _ => hdrOk h
  | .notice h b => hdrOk h && bodyOk b.text
  | .post h _ => hdrOk h
  | .bookLines h b => hdrOk h && linesBodyOk b
  | .formFieldsLoad h i c => hdrOk h && indexFits i && formBodyOk c
  | .formTextLoad h i c => hdrOk h && indexFits i && textBodyOk c
  | .postingCodesLoad h i c => hdrOk h && indexFits i && codeBodyOk c
  | .currenciesLoad h i c => hdrOk h && indexFits i && currencyBodyOk c
  | .ratesLoad h i _ => hdrOk h && indexFits i
  | .limitClassesLoad h i _ => hdrOk h && indexFits i
  | .positionsLoad h i _ => hdrOk h && indexFits i
  | .bookLayoutsLoad h i _ => hdrOk h && indexFits i
  | .parametersLoad h i _ => hdrOk h && indexFits i
  | .tableLoadReadOnly h b => hdrOk h && tableRefOk b
  | .tableQuery h b => hdrOk h && tableRefOk b
  | .positionsQuery h i => hdrOk h && indexFits i
  | .drawerQuery h i => hdrOk h && indexFits i
  | .printerStatusQuery h i => hdrOk h && indexFits i
  | .journalStatusQuery h i => hdrOk h && indexFits i
  | .dayAndLineStatusQuery h i => hdrOk h && indexFits i
  | .openDay h _ => hdrOk h
  | .closeDay h => hdrOk h
  | .setTime h _ => hdrOk h
  | .setCutoff h _ => hdrOk h
  | .clearCutoff h => hdrOk h
  | .forceClose h _ => hdrOk h
  | .sendDay h => hdrOk h.hdr
  | .sendForward h _ => hdrOk h.hdr
  | .signOn h _ => hdrOk h
  | .forceSignOff h => hdrOk h
  | .unlock h => hdrOk h
  | .positionControlBalance h _ => hdrOk h
  | .positionControlGroupBalance h _ => hdrOk h
  | .transferAck h _ => hdrOk h.hdr
  | .restart h => hdrOk h.hdr
  | .keyToken _ _ => true
  | .reviewUp _ => true
  | .reviewDown _ => true
  | .present _ => true
  | .rowTaken _ => true
  | .rowSend _ => true
  | .character _ => true
  | .fieldNext _ => true
  | .fieldBack _ => true
  | .backspace _ => true
  | .eraseField _ => true
  | .clear _ => true
  | .transmit _ => true
  | .balance _ => true
  | .signOff _ => true
  | .groupBalance _ => true
  | .groupClose _ => true
  | .printBook _ => true
  | .cancelBook _ => true
  | .attention _ => true
  | .entryTimerExpiry _ => true
  | .lineLoss => true
  | .clockAdvance => true
  | .cutoffAlarmFire => true
  | .closingConditionTest _ => true
  | .dayBatchCompletion => true
  | .transferLineLoss => true
  | .transferLineReturn => true
  | .transferRecoveryFinish => true
  | .ackTimerExpiry => true
  | .outboundSendStart => true
  | .outboundSendDone => true
  | .ready _ => true
  | .homeDone _ => true
  | .bookIn _ => true
  | .stripeData _ d => stripeOk d
  | .stripeFail _ => true
  | .printerDecision _ => true
  | .lineDone _ => true
  | .stripeWritten _ => true
  | .stripeWriteFail _ => true
  | .ejectDone _ => true
  | .fault _ => true
  | .printerTimerExpiry _ => true
  | .bookWaitExpiry _ => true
  | .powerFailure _ _ => true

end Sys2Proof
end

