-- ==== Sys2Proof/Certificates/Slice0/Obligations.lean ====
section
/-! DEFINITION. The statements for the provers, in the order of OBLIGATIONS.json. -/

open Sys2Proof Sys2Proof.Machine

/-! ## The machine -/

/-- A step runs the command at the front of the queue on the state with the queue's rest; with no command waiting the
part idles (assumption 1, the model's choice). -/
def Obligations.StepRunsFrontCommand : Prop :=
  (∀ (c : Instr) (rest : List Instr) (s : State), step { s with pending := c :: rest } = exec c { s with pending := rest }) ∧
  ∀ s : State, s.pending = [] → step s = .next s

/-- Every command answers a next state and leaves the queue of waiting commands as it is, so that a run never stops; without
branch power every command but POWER_ON changes nothing (assumption 4, the model's reading of R45). The manual names no stop. -/
def Obligations.EveryCommandAnswersNext : Prop :=
  (∀ (c : Instr) (s : State), ∃ t, exec c s = .next t ∧ t.pending = s.pending) ∧ (∀ s : State, RunsOn s) ∧
  ∀ (c : Instr) (s : State), s.powered = false → c ≠ .powerOn → exec c s = .next s

/-- What reset leaves, block by block: the power-on values of R38, R57, R58, R75, R90, R108, R123, R135, R150, R151, R159,
R171, R174 and R178. That the journal memory has never been written, so that neither the control record nor the retained
store checks good and the day is CLOSED-undelivered, is the model's choice (assumption 5), and so are a printer's layout
type, open page and next position (assumption 6) and the model's own fields, the last line. -/
def Obligations.ResetLeavesPowerOnValues : Prop :=
  let s := State.reset
  s.line = ⟨.standIn, none, .hunting false, [], false⟩ ∧
  ((∀ i, rd s.tables.forms i = none) ∧ (∀ i, rd s.tables.texts i = none) ∧ (∀ i, rd s.tables.codes i = none) ∧
    (∀ i, rd s.tables.currencies i = none) ∧ (∀ i, rd s.tables.rates i = none) ∧ (∀ i, rd s.tables.serials i = 0) ∧
    (∀ i, rd s.tables.limits i = none) ∧ (∀ i, rd s.tables.positions i = none) ∧ (∀ i, rd s.tables.layouts i = none) ∧
    s.tables.params = ⟨45, 30, 20, 5, 60⟩) ∧
  (∀ p, rd s.posns p = ⟨.signedOff, none, 0, none, none, 0⟩) ∧
  (∀ p, let sc := rd s.screens p
    (∀ r c, rd (rd sc.area r) c = ⟨0x20, .normal, false⟩) ∧ sc.form = none ∧ sc.cursor = none ∧
    (∀ l c, rd (rd sc.ring l) c = ⟨0x20, .normal⟩) ∧ sc.newest = 0 ∧ sc.column = 0 ∧ sc.review = 0 ∧
    (∀ n, rd sc.prompts n = none) ∧ sc.noPrinter = false ∧ sc.dirty = List.range 20 ∧ sc.inFlight = false ∧
    sc.present = false) ∧
  (∀ p, rd s.keys p = ⟨[], [], none, 0, none⟩) ∧
  (∀ p, (∀ i, rd (rd s.drawers p).lines i = ⟨0, 0, false⟩) ∧ (rd s.drawers p).captureNo = 0 ∧ (rd s.drawers p).ctx = none) ∧
  (∀ p, rd s.groups p = none) ∧
  (s.nv.control.good = false ∧ s.nv.entries = [] ∧ retainedGood s = false ∧ readable s = []) ∧
  s.jc = ⟨true, false, 0, none⟩ ∧ s.day = ⟨.closed true, none, none, false, []⟩ ∧ s.clock = ⟨0, false, 0⟩ ∧ s.store = [] ∧
  (∀ n, rd s.queues n = [] ∧
    rd s.printers n = ⟨.offline, none, false, none, 0, 1, 1, 1, ⟨0, 0, false, false, false, false, none⟩⟩) ∧
  s.engine = ⟨.idle, none, 0, false, [], none, [], false⟩ ∧
  s.powered = true ∧ s.out = [] ∧ s.nvBefore = s.nv ∧ s.nvLog = [] ∧ s.pending = []

/-- Reset meets every invariant that the statements below say a step keeps. -/
def Obligations.ResetMeetsInvariants : Prop :=
  WithinBounds State.reset ∧ WindowHeld State.reset ∧ RestsOutsideTrading State.reset ∧ ForwardLaw State.reset

/-! ## Power and recovery -/

/-- POWER_ON (R53): the live state takes its power-on values, the journal memory is kept, no report is raised, and the
control record decides the day. That it acts so in a part that has power is the model's choice (assumption 4), and so are
the layout type, open page and next position a printer starts with (assumption 6). -/
def Obligations.PowerOnReadsControlRecord : Prop :=
  ∀ s : State, ∃ t, exec .powerOn s = .next t ∧
    t = { State.reset with nv := s.nv, nvBefore := s.nv, freeUsed := s.freeUsed, pending := s.pending,
                           day := t.day, jc := t.jc } ∧
    t.day.alarm = none ∧ t.day.retainedBad = false ∧ t.day.completions = [] ∧ t.jc.lowSpace = false ∧ t.jc.pendingCount = 0 ∧
    (s.nv.control.good = false →
      t.day.state = .closed true ∧ t.day.date = none ∧ t.jc.unreadable = true ∧ t.jc.replay = none ∧ readable t = []) ∧
    (s.nv.control.good = true → t.day.date = some s.nv.control.fields.date ∧ t.jc.unreadable = false ∧
      (s.nv.control.fields.day = some .closed →
        t.day.state = .closed s.nv.control.fields.undelivered ∧ t.jc.replay = none) ∧
      (s.nv.control.fields.day ≠ some .closed →
        t.day.state = .recovering ∧ t.jc.replay = some ⟨0, 0, 0, Vector.replicate 16 none, none, 0⟩))

/-- POWER_FAILURE (R45): the journal memory holds the completed writes of the last event, the live state is gone; a
control record written in part does not check good (R55 Caution), and the entries below it are as they were; slots written
in part lie above slots used. The point of failure is the command's operand and what a torn write leaves is free (assumption
7, read from R45); that a BACKLOG entry's record and states bytes are one write is assumption 44. -/
def Obligations.PowerFailureKeepsCompletedWrites : Prop :=
  ∀ (s : State) (n : Nat) (torn : Bool), s.powered = true →
    let done := (s.nvLog.take n).foldl (fun m w => m.write w) s.nvBefore
    ∃ t, exec (.powerFailure n torn) s = .next t ∧
      t = { State.reset with nv := t.nv, nvBefore := t.nv, powered := false, freeUsed := s.freeUsed + 1,
                             pending := s.pending } ∧
      (torn = false ∨ s.nvLog.length ≤ n → t.nv = done) ∧
      (torn = true →
        (∀ c, (s.nvLog[n]? = some (.control c) ∨ ∃ is, s.nvLog[n]? = some (.backlogged c is)) →
          t.nv.control.good = false ∧ t.nv.entries = done.entries ∧ t.nv.retained = done.retained) ∧
        (∀ e, s.nvLog[n]? = some (.slots e) → t.nv = done) ∧
        ∀ x, (s.nvLog[n]? = some (.retained x) ∨ ∃ c, s.nvLog[n]? = some (.retainedCrc c)) →
          t.nv.control = done.control ∧ t.nv.entries = done.entries)

/-- REPLAY_ENTRY on an entry that passes its check (R54), by kind: a POSTING's legs reach the drawers in entry order, its V
the stand-in usage when it is a stand-in posting, the pending count when it is PENDING, and its line the store when it shows
STORED; a BOOK LINE's line likewise; an OPENING loads its drawer; a CAPTURE clears the markers, sets the capture number and
begins a balance unless the BEGIN mark in force says not; a DECLARATION applies its legs; it and a BALANCE ABANDONED end the
balance. Every other kind has no action. That a CAPTURE which the BEGIN mark lists as SIGNED_OFF leaves the open balance as it
was is assumption 34, where R36 and R54 differ. -/
def Obligations.ReplayAppliesEntry : Prop :=
  ∀ (s : State) (r : Replay) (e : Entry), s.powered = true → s.jc.replay = some r → r.slot < slotsUsed s →
    s.nv.entries[r.index]? = some e → e.kind = kindCode e.body → e.size = kindSlots e.body → e.seq = r.index + 1 →
    r.slot + e.size ≤ slotsUsed s →
    (∀ p d src m a, e.body = .opening p d src m a → p.val = r.opened ∧ r.opened = r.index) →
    (r.slot + e.size = slotsUsed s → e.seq = s.nv.control.fields.entryCount) →
    ∃ t q, exec .replayEntry s = .next t ∧ q.slot = r.slot + e.size ∧ q.index = r.index + 1 ∧
      t = { s.begin with drawers := t.drawers, posns := t.posns, store := t.store, jc := t.jc } ∧
      t.jc = { s.jc with replay := some q, pendingCount := t.jc.pendingCount } ∧
      let counted : Nat → Prop := fun n => t.jc.pendingCount = s.jc.pendingCount + n
      let noLine := t.store = s.store ∧ q.readded = r.readded
      let added : Account → PLine → Prop := fun a l => accountLines a t = accountLines a s ++ [l] ∧
        (∀ b, b ≠ a → accountLines b t = accountLines b s) ∧ q.readded = r.readded + 1
      let ended : Pos → Prop := fun p => rd q.openBal p = none ∧ ∀ o, o ≠ p → rd q.openBal o = rd r.openBal o
      let unmoved := t.drawers = s.drawers ∧ t.posns = s.posns ∧ counted 0 ∧ q.opened = r.opened
      match e.body with
      | .opening p _ _ _ a =>
        ((∀ i, rd (rd t.drawers p).lines i = ⟨if h : i.val < 8 then rd a ⟨i.val, h⟩ else 0, 0, false⟩) ∧
          (∀ o, o ≠ p → rd t.drawers o = rd s.drawers o)) ∧
        t.posns = s.posns ∧ counted 0 ∧ q.opened = r.opened + 1 ∧ noLine ∧ q.openBal = r.openBal ∧ q.mark = none
      | .posting g =>
        t.drawers = (applyLegs g.legs s).drawers ∧ (∀ o, o ≠ g.pos → rd t.posns o = rd s.posns o) ∧
        rd t.posns g.pos = { rd s.posns g.pos with
          usage := (rd s.posns g.pos).usage + if g.origin = .standIn then g.value else 0 } ∧
        counted (if e.fwd = .pending then 1 else 0) ∧ q.opened = r.opened ∧ q.openBal = r.openBal ∧ q.mark = none ∧
        (∀ a x, g.account = some a → g.yielded = some x → e.print = .stored → StoreHasRoom a s →
          added a ⟨businessDate s, x.name, x.amount, x.exponent, g.balance, decide (g.origin = .standIn),
            g.book.map fun b => (b.page, b.line), e.seq⟩) ∧
        ((e.print ≠ .stored ∨ g.account = none ∨ g.yielded = none) → noLine)
      | .bookLine b =>
        unmoved ∧ q.openBal = r.openBal ∧ q.mark = none ∧
        (e.print = .stored → StoreHasRoom b.account s →
          added b.account ⟨b.date, b.name, b.amount, b.exponent, b.balance, false, none, e.seq⟩ ∧
          (findAccount b.account t).bind (·.bookType) = some b.bookType) ∧
        (e.print ≠ .stored → noLine)
      | .capture c =>
        (rd t.drawers c.pos).captureNo = c.number ∧
        (∀ i, rd (rd t.drawers c.pos).lines i =
          ⟨(rd (rd s.drawers c.pos).lines i).amount, (rd (rd s.drawers c.pos).lines i).count, false⟩) ∧
        (∀ o, o ≠ c.pos → rd t.drawers o = rd s.drawers o) ∧ t.posns = s.posns ∧ counted 0 ∧ q.opened = r.opened ∧ noLine ∧
        (∀ m, q.mark = some m ↔ r.mark = some m ∧ c.leader = some m.1) ∧
        ((∃ m, q.mark = some m ∧ c.pos ∈ m.2) → q.openBal = r.openBal) ∧
        ((∀ m, q.mark = some m → c.pos ∉ m.2) → rd q.openBal c.pos = some (c.kind, c.number) ∧
          ∀ o, o ≠ c.pos → rd q.openBal o = rd r.openBal o)
      | .declaration d =>
        t.drawers = (applyLegs (declLegs d) s).drawers ∧ t.posns = s.posns ∧ counted 0 ∧ q.opened = r.opened ∧ noLine ∧
        ended d.pos ∧ q.mark = none
      | .groupBegin l _ _ off => unmoved ∧ noLine ∧ q.openBal = r.openBal ∧ q.mark = some (l, off)
      | .abandoned p _ _ _ => unmoved ∧ noLine ∧ ended p ∧ q.mark = none
      | .groupEnd .. => unmoved ∧ noLine ∧ q.openBal = r.openBal ∧ q.mark = none
      | .midnight .. => unmoved ∧ noLine ∧ q.openBal = r.openBal ∧ q.mark = none
      | .cutoff .. => unmoved ∧ noLine ∧ q.openBal = r.openBal ∧ q.mark = none
      | .recovery .. => unmoved ∧ noLine ∧ q.openBal = r.openBal ∧ q.mark = none
      | .backlog .. => unmoved ∧ noLine ∧ q.openBal = r.openBal ∧ q.mark = none
      | .close .. => unmoved ∧ noLine ∧ q.openBal = r.openBal ∧ q.mark = none

/-- REPLAY_ENTRY on an entry that fails its check (R54): its kind, its size, its sequence number, its end, an OPENING out of
its place, or, with the last entry, the end check; or where slots used go on and journal memory holds no entry. Replay stops
and the journal is treated as unreadable. That the report of a failed end check carries the slot of the last entry is the
model's choice (assumption 33). -/
def Obligations.ReplayStopsAtBadEntry : Prop :=
  ∀ (s : State) (r : Replay), s.powered = true → s.jc.replay = some r → r.slot < slotsUsed s →
    (s.nv.entries[r.index]? = none ∨ ∃ e : Entry, s.nv.entries[r.index]? = some e ∧
      (e.kind ≠ kindCode e.body ∨ e.size ≠ kindSlots e.body ∨ e.seq ≠ r.index + 1 ∨ slotsUsed s < r.slot + e.size ∨
        (∃ p d src m a, e.body = .opening p d src m a ∧ (p.val ≠ r.opened ∨ r.opened ≠ r.index)) ∨
        (r.slot + e.size = slotsUsed s ∧ e.seq ≠ s.nv.control.fields.entryCount))) →
    ∃ t, exec .replayEntry s = .next t ∧ t.nv = s.nv ∧ t.store = [] ∧ t.day.state = .closed true ∧
      t.jc = ⟨true, s.jc.lowSpace, 0, none⟩ ∧
      (∀ p, rd t.drawers p = ⟨Vector.replicate 16 ⟨0, 0, false⟩, 0, none⟩) ∧
      (∀ p, rd t.posns p = { rd s.posns p with usage := 0 }) ∧ (∀ p, 0 ∈ (rd t.screens p).dirty) ∧
      ScreensSameButDirty s t ∧
      t.line = { s.line with outbound := s.line.outbound ++
        (if s.line.state = .online ∧ s.line.outbound.length < 28 then
          [⟨255, 0, .report (.recoveryDone (.unreadable r.slot))⟩] else []) } ∧
      t = { s.begin with drawers := t.drawers, posns := t.posns, screens := t.screens, jc := t.jc, line := t.line,
                         store := t.store, day := { s.day with state := t.day.state } }

/-- RECOVERY_FINISH after the last entry (R55, R73): in OPEN and CUTOFF one BALANCE ABANDONED for each balance still open,
in ascending order, and the RECOVERY entry are appended when they fit; without room nothing is, and 0 is reported. In
CLOSING nothing is appended and the retained store is written again. The day returns to the recorded state, RECOVERY_DONE is
raised, and the engine is told. What stands in the retained store after a read-back that differs (assumption 13) and the bytes
its CRC is taken over (assumption 8) are the model's choices. -/
def Obligations.RecoveryFinishReturnsDay : Prop :=
  ∀ (s : State) (r : Replay) (d : RecDay) (rb : Option RetainedRec), s.powered = true → s.jc.replay = some r →
    r.slot = slotsUsed s → s.nv.control.fields.day = some d → d ≠ .closed →
    let ends : List EntryBody := allPos.filterMap fun p =>
      (rd r.openBal p).map fun b => .abandoned p b.1 b.2 .powerOn
    let room := d ≠ .closing ∧ slotsUsed s + ends.length + 1 ≤ 16256
    ∃ t, exec (.recoveryFinish rb) s = .next t ∧
      (room → Appended (ends ++ [.recovery ⟨d, slotsUsed s, s.nv.control.fields.entryCount, ends.length, r.readded⟩])
        { s with jc := { s.jc with replay := none } } t) ∧
      (¬room → t.nv.entries = s.nv.entries ∧ t.nv.control = s.nv.control) ∧
      (d = .closing → RetainedWritten .recovery rb s t) ∧
      (d ≠ .closing → t.nv.retained = s.nv.retained ∧ t.day.retainedBad = s.day.retainedBad) ∧
      t.jc = { s.jc with replay := none, lowSpace := t.jc.lowSpace } ∧ StatusRowsMarked s t ∧
      (d = .opened → t.day.state = .opened) ∧ (d = .cutoff → t.day.state = .cutoff) ∧
      (d = .closing → t.day.state = .closing) ∧
      (∀ n, ((room ∧ n = ends.length) ∨ (¬room ∧ n = 0)) → s.line.state = .online → s.line.outbound.length ≤ 24 →
        Reported 255 (.recoveryDone (.good d (slotsUsed t) n r.readded)) s t) ∧
      t.out = [] ∧
      t = { since s t with screens := t.screens, engine := { s.engine with recoveryDone := true },
                           day := { s.day with state := t.day.state, retainedBad := t.day.retainedBad } }

/-! ## The Trunk Port -/

/-- The framer, hunting, makes one valid message of every frame that R172 and R180 lay out, and hunts again. -/
def Obligations.FramerAcceptsEveryFrame : Prop :=
  ∀ (kind : Byte) (pos tag : Nat) (body : List Byte) (half : Bool), pos < 256 → tag < 65536 → body.length ≤ 1024 →
    runFramer (.hunting half) (frame kind pos tag body) =
      (.hunting false, [.message (headerBytes kind pos tag body.length ++ body)])

/-- FRAME_DISCARD (R172): bytes that complete no valid message move the framer alone; no timer starts and no reply or report
is queued. One valid message among them, also one inside a damaged frame, is handed on as the command it is, and a whole
frame as the command of its kind code (R180), with the fields its body spells where the manual lays them out. That bytes with
valid messages come as one command is the model's choice (assumption 30), and what other bodies spell is free (assumption
12). UNKNOWN_KIND (R173): a kind code that names none is answered UNKNOWN_KIND and changes nothing beyond what every message
does; the command with another code is none (assumption 2). -/
def Obligations.DiscardedAndUnknownFrames : Prop :=
  let kinds : List Byte := [0x10, 0x11, 0x12, 0x20, 0x21, 0x30, 0x31, 0x40, 0x41, 0x50, 0x60, 0x61]
  (∀ (s : State) (bytes : List Byte) (nf : Bool) (rb : Option RetainedRec), s.powered = true →
    let found := runFramer s.line.framer bytes
    ((∀ e ∈ found.2, e = .discarded) →
      exec (.frameDiscard ⟨bytes, nf, rb⟩) s = .next { s.begin with line := { s.line with framer := found.1 } }) ∧
    ∀ m, found.2.filter (fun e => e != .discarded) = [.message m] →
      ∃ t, exec (frameCommand nf rb m) s = .next t ∧
        exec (.frameDiscard ⟨bytes, nf, rb⟩) s = .next { t with line := { t.line with framer := found.1 } }) ∧
  (∀ (s : State) (k : Byte) (pos tag : Nat) (body : List Byte) (nf : Bool) (rb : Option RetainedRec) (half : Bool),
    s.line.framer = .hunting half → pos < 256 → tag < 65536 → body.length ≤ 1024 →
    let taken := exec (.frameDiscard ⟨(frame k pos tag body), nf, rb⟩) s
    let h : Hdr := ⟨pos, tag⟩
    (k = 0x10 → ∃ b, taken = exec (.paint h b) s) ∧ (k = 0x11 → ∃ n u, taken = exec (.form h n u) s) ∧
    (k = 0x12 → ∃ b, taken = exec (.notice h b) s) ∧ (k = 0x20 → ∃ b, taken = exec (.post h b) s) ∧
    (k = 0x21 → ∃ b, taken = exec (.bookLines h b) s) ∧ (k = 0x50 → ∃ b, taken = exec (.transferAck ⟨h, nf⟩ b) s) ∧
    (k = 0x60 → taken = exec (.restart ⟨h, nf⟩) s) ∧ (k = 0x61 → taken = exec (.lineCheck h) s) ∧
    (k = 0x30 → body.length < 3 → taken = exec (.tableLoadReadOnly h none) s) ∧
    (k = 0x31 → body.length < 3 → taken = exec (.tableQuery h none) s) ∧
    (∀ t i j rest, k = 0x31 → body = t :: i :: j :: rest →
      taken = exec (.tableQuery h (some (t.toNat, i.toNat * 256 + j.toNat))) s) ∧
    (∀ t i j, k = 0x30 → body = [t, i, j] →
      taken = exec (.tableLoadReadOnly h (some (t.toNat, i.toNat * 256 + j.toNat))) s) ∧
    (k ∉ kinds → taken = exec (.unknownKind h k) s)) ∧
  ∀ (h : Hdr) (k : Byte) (s : State),
    (k ∉ kinds → Takes s → exec (.unknownKind h k) s = .next (answered h .unknownKind .none (arrived s))) ∧
    (k ∈ kinds → s.powered = true → exec (.unknownKind h k) s = .next s.begin)

/-- Every inbound message leaves the line ONLINE with the line timer started afresh with the parameter as it stood, and
the framer hunting (R151, R153, R172). -/
def Obligations.EveryMessageKeepsLineUp : Prop :=
  ∀ (c : Instr) (s : State), isMessage c = true → s.powered = true →
    ∃ t, exec c s = .next t ∧ t.line.state = .online ∧
      t.line.timer = some ⟨s.tables.params.lineTimer, s.tables.params.lineTimer⟩ ∧ t.line.framer = .hunting false ∧
      t.line.sending = s.line.sending ∧ s.line.outbound <+: t.line.outbound

/-- Only the expiry of the line timer, a power failure and power-on take an ONLINE line to STAND_IN (R151, R152). -/
def Obligations.OnlyLossTakesLineDown : Prop :=
  ∀ (c : Instr) (s t : State), exec c s = .next t → s.line.state = .online → t.line.state = .standIn →
    c = .lineLoss ∨ c = .powerOn ∨ ∃ n torn, c = .powerFailure n torn

/-- LINE_CHECK (R151, R153): ONLINE it starts the line timer afresh and nothing else; in STAND_IN the line returns, LINE
RESTORED (its text is the model's choice, assumption 9) is shown on every position, row 0 of every screen is marked and
the engine is told. -/
def Obligations.LineCheckRestartsOrReturnsLine : Prop :=
  ∀ (h : Hdr) (s : State), s.powered = true →
    ∃ t, exec (.lineCheck h) s = .next t ∧
      t.line = { s.line with state := .online, framer := .hunting false,
                             timer := some ⟨s.tables.params.lineTimer, s.tables.params.lineTimer⟩ } ∧
      t = { s.begin with line := t.line, screens := t.screens, engine := t.engine } ∧
      (s.line.state = .online → t.screens = s.screens ∧ t.engine = s.engine) ∧
      (s.line.state = .standIn →
        t.engine = { s.engine with notices := s.engine.notices ++ [.back] } ∧
        ∀ p, 0 ∈ (rd t.screens p).dirty ∧
          SameButDirty (rd t.screens p) (Screen.partNotice textLineRestored (rd s.screens p)))

/-- LINE_LOSS (R152): the line is STAND_IN and its timer stopped; AWAITING positions are READY with their entries in
doubt and their entry timers stopped, the others are as they were; the outbound queue and the key queues are kept and the
engine is told. That an expiry is taken at count 0 and the text of LINE DOWN are the model's choices (assumptions 3 and 9), and
so is that the command changes nothing in STAND_IN, where no line timer runs (assumption 2). -/
def Obligations.LineLossReleasesPositions : Prop :=
  (∀ s : State, s.powered = true → s.line.state = .standIn → exec .lineLoss s = .next s.begin) ∧
  ∀ (s : State) (n : Nat), s.powered = true → s.line.state = .online → s.line.timer = some ⟨n, 0⟩ →
    ∃ t, exec .lineLoss s = .next t ∧ t.line = { s.line with state := .standIn, timer := none } ∧
      (∀ p, (rd s.posns p).state = .awaiting →
        rd t.posns p = { rd s.posns p with state := .ready, outstanding := none, inDoubt :=
          (rd s.posns p).outstanding.orElse fun _ => (rd s.posns p).inDoubt } ∧
        rd t.keys p = { rd s.keys p with timer := none }) ∧
      (∀ p, (rd s.posns p).state ≠ .awaiting → rd t.posns p = rd s.posns p ∧ rd t.keys p = rd s.keys p) ∧
      (∀ p, 0 ∈ (rd t.screens p).dirty ∧ SameButDirty (rd t.screens p) (Screen.partNotice textLineDown (rd s.screens p))) ∧
      t.engine = { s.engine with notices := s.engine.notices ++ [.loss] } ∧
      t = { s.begin with line := t.line, posns := t.posns, keys := t.keys, screens := t.screens, engine := t.engine }

/-- OUTBOUND_SEND_START and OUTBOUND_SEND_DONE (R174, R163): the head is sent once the port is free and leaves the queue when
its last byte has left; the rest of the queue is as it was, but that an ACTIVE batch offers the BLOCKs the free place and the
window allow. -/
def Obligations.OutboundQueueSendsHeadFirst : Prop :=
  (∀ (s : State) (m : OutMsg) (rest : List OutMsg), s.powered = true → s.line.outbound = m :: rest → s.line.sending = false →
    exec .outboundSendStart s =
      .next { s.begin with line := { s.line with sending := true }, out := [.sendStart m] }) ∧
  ∀ (s : State) (m : OutMsg) (rest : List OutMsg), s.powered = true → s.line.outbound = m :: rest → s.line.sending = true →
    ∃ t, exec .outboundSendDone s = .next t ∧ t.line.sending = false ∧ rest <+: t.line.outbound ∧ t.out = [.sendDone m] ∧
      (∀ x ∈ t.line.outbound.drop rest.length, ∃ b es, x = ⟨255, 0, .block b es⟩) ∧
      (s.engine.state ≠ .active →
        t = { s.begin with line := { s.line with outbound := rest, sending := false }, out := [.sendDone m] }) ∧
      (∀ b, s.engine.state = .active → WindowHeld s → s.engine.batch = some b →
        BlocksOffered b s.engine.flights rest t ∧
        t.engine = { s.engine with batch := t.engine.batch, flights := t.engine.flights, timer := t.engine.timer } ∧
        t.engine.timer = (if b.acked < b.highest ∨ t.engine.flights = s.engine.flights then s.engine.timer
          else some ⟨s.tables.params.ackTimer, s.tables.params.ackTimer⟩) ∧
        t = { s.begin with engine := t.engine, out := [.sendDone m],
                           line := { s.line with outbound := t.line.outbound, sending := false } })

/-- While the day is RECOVERING (R56): a request other than a load, a query, a TRANSFER ACK, a RESTART or a LINE CHECK
is answered RECOVERING and not taken; TRANSFER ACK and RESTART are discarded without reply. -/
def Obligations.RecoveringAnswersRequests : Prop :=
  ∀ (h : Hdr) (s : State), s.powered = true → s.day.state = .recovering →
    (∀ c : Instr,
      ((∃ k, k ∉ ([0x10, 0x11, 0x12, 0x20, 0x21, 0x30, 0x31, 0x40, 0x41, 0x50, 0x60, 0x61] : List Byte) ∧
          c = .unknownKind h k) ∨
        (∃ b, c = .paint h b) ∨ (∃ n u, c = .form h n u) ∨ (∃ b, c = .notice h b) ∨
        (∃ b, c = .post h b) ∨ (∃ b, c = .bookLines h b) ∨ (∃ b, c = .openDay h b) ∨ c = .closeDay h ∨
        (∃ n, c = .setTime h n) ∨ (∃ n, c = .setCutoff h n) ∨ c = .clearCutoff h ∨ (∃ b, c = .forceClose h b) ∨
        (∃ f, c = .sendDay ⟨h, f⟩) ∨ (∃ k f, c = .sendForward ⟨h, f⟩ k) ∨ (∃ b, c = .signOn h b) ∨ c = .forceSignOff h ∨
        c = .unlock h ∨ (∃ k, c = .positionControlBalance h k) ∨ (∃ k, c = .positionControlGroupBalance h k)) →
      exec c s = .next (answered h .recovering .none (arrived s))) ∧
    (∀ b f, exec (.transferAck ⟨h, f⟩ b) s = .next (arrived s)) ∧ (∀ f, exec (.restart ⟨h, f⟩) s = .next (arrived s)) ∧
    exec (.lineCheck h) s = .next (arrived s) ∧
    ∀ i c, i < 8 → exec (.currenciesLoad h i c) s = .next (answered h .dayState .none (arrived s))

/-! ## Screens -/

/-- FORM (R96, R97, R98): of a defined form, whose content is as its load checks it, every cell outside its fields takes its
Form Text entry, protected, and every field's cells its preset with the field's attribute; the form becomes current, the
cursor goes to its first unprotected field, every value returns to its preset, rows 1 to 15 are marked, and an unlock flag
releases an AWAITING position; all else of the screen, the key unit and the position stays. A header position outside 0 to 15
is answered BAD_POSITION, a form not defined BAD_INDEX. The cursor's cell at a showing (assumption 11) and the attribute of
the cells past a text's end (assumption 48) are the model's choices, and so is that the position is checked first, so that
BAD_POSITION answers a FORM whose number fails too (assumption 59). -/
def Obligations.FormIsShown : Prop :=
  (∀ (h : Hdr) (n : Nat) (u : Bool) (s : State), Takes s →
    (16 ≤ h.pos → exec (.form h n u) s = .next (answered h .badPosition .none (arrived s))) ∧
    (h.pos < 16 → (32 ≤ n ∨ ∃ i : Fin 32, i.val = n ∧ rd s.tables.forms i = none) →
      exec (.form h n u) s = .next (answered h .badIndex .none (arrived s)))) ∧
  ∀ (h : Hdr) (p : Pos) (n : Fin 32) (d : FormDesc) (u : Bool) (s : State), Takes s → h.pos = p.val →
    rd s.tables.forms n = some d →
    let first := firstUnprotected d.fields
    let freed := u = true ∧ (rd s.posns p).state = .awaiting
    ∃ t, exec (.form h n.val u) s = .next t ∧
      let old := rd (arrived s).screens p
      let new := rd t.screens p
      new = { old with area := new.area, form := some n, dirty := new.dirty,
                       cursor := first.bind fun i => d.fields[i]?.map fun f => (f.row, f.col) } ∧
      (∀ r, 1 ≤ r → r ≤ 15 → r ∈ new.dirty) ∧ (∀ r ∈ old.dirty, r ∈ new.dirty) ∧
      AreaShows s n d new.area ∧
      rd t.keys p = { rd s.keys p with values := d.fields.map presetValue, cursorField := first, textPos := 0,
                                       timer := if u = true ∧ (rd s.posns p).state = .awaiting then none
                                         else (rd s.keys p).timer } ∧
      (freed → rd t.posns p = leftFor .ready (rd s.posns p) ∧ 0 ∈ new.dirty) ∧
      (¬freed → rd t.posns p = rd s.posns p) ∧ OthersKept p (arrived s) t ∧
      t = { answered h .accepted .none (arrived s) with posns := t.posns, keys := t.keys, screens := t.screens }

/-- PAINT (R97, R99, R100): the erase mark clears the form area first, so that no form, no cursor and no field is left; the
run's characters then stand in the cells of the address counter, ACROSS or DOWN with its wraps, the last character written to
a cell staying, with the PAINT's attribute and the cell's protected flag; every other cell is as it was, and each row written
is marked. An unlock flag releases an AWAITING position; all else of the screen, the key unit and the position stays. A field
outside its range is answered MALFORMED, a header position outside 0 to 15 BAD_POSITION. That BAD_POSITION answers a PAINT whose
body fails its check too is the model's choice: R97 gives no order (assumption 59). -/
def Obligations.PaintWritesFormArea : Prop :=
  (∀ (h : Hdr) (b : PaintBody) (s : State), Takes s →
    (16 ≤ h.pos → exec (.paint h b) s = .next (answered h .badPosition .none (arrived s))) ∧
    (h.pos < 16 → (b.row = 0 ∨ 15 < b.row ∨ 79 < b.col ∨ b.dir = none ∨ b.attr = none ∨ 256 < b.run.length) →
      exec (.paint h b) s = .next (answered h .malformed .none (arrived s)))) ∧
  ∀ (h : Hdr) (p : Pos) (b : PaintBody) (dir : PaintDir) (a : Attr) (s : State), Takes s → h.pos = p.val →
    1 ≤ b.row → b.row ≤ 15 → b.col ≤ 79 → b.dir = some dir → b.attr = some a → b.run.length ≤ 256 →
    let place : Nat → Nat × Nat := fun k => match dir with
      | .across => (((b.row - 1) * 80 + b.col + k) % 1200 / 80, ((b.row - 1) * 80 + b.col + k) % 80)
      | .down => ((b.row - 1 + k) % 15, b.col)
    let freed := b.unlock = true ∧ (rd s.posns p).state = .awaiting
    ∃ t, exec (.paint h b) s = .next t ∧
      let old := rd (arrived s).screens p
      let new := rd t.screens p
      (∀ (r : Fin 15) (c : Fin 80),
        let before : Cell := if b.erase then ⟨0x20, .normal, false⟩ else rd (rd old.area r) c
        (∀ k x, b.run[k]? = some x → place k = (r.val, c.val) →
          (∀ j, k < j → j < b.run.length → place j ≠ (r.val, c.val)) →
          rd (rd new.area r) c = ⟨printable x, a, before.prot⟩) ∧
        ((∀ k, k < b.run.length → place k ≠ (r.val, c.val)) → rd (rd new.area r) c = before)) ∧
      (∀ k, k < b.run.length → (place k).1 + 1 ∈ new.dirty) ∧ (∀ r ∈ old.dirty, r ∈ new.dirty) ∧
      (b.erase = true → ∀ r, 1 ≤ r → r ≤ 15 → r ∈ new.dirty) ∧
      new = { old with area := new.area, dirty := new.dirty, form := if b.erase then none else old.form,
                       cursor := if b.erase then none else old.cursor } ∧
      rd t.keys p = { rd s.keys p with
        values := if b.erase then [] else (rd s.keys p).values,
        cursorField := if b.erase then none else (rd s.keys p).cursorField,
        textPos := if b.erase then 0 else (rd s.keys p).textPos,
        timer := if b.unlock = true ∧ (rd s.posns p).state = .awaiting then none else (rd s.keys p).timer } ∧
      (freed → rd t.posns p = leftFor .ready (rd s.posns p) ∧ 0 ∈ new.dirty) ∧
      (¬freed → rd t.posns p = rd s.posns p) ∧ OthersKept p (arrived s) t ∧
      t = { answered h .accepted .none (arrived s) with posns := t.posns, keys := t.keys, screens := t.screens }

/-- NOTICE (R97, R101, R102): the review offset becomes 0 and the bytes are taken in order: a text is its first part and then
its rest, and each byte does what the table of R102 says, a printable or other byte on a line with a place and on a full one,
CR, LF, BS and BEL. A window row whose shown cells differ is marked, and so is row 0 when the offset changed; all else of the
screen stays. An unlock flag releases an AWAITING position. A missing or unknown attribute is answered MALFORMED, a header
position outside 0 to 15 BAD_POSITION. That BAD_POSITION answers a NOTICE whose body fails its check too is the model's choice:
R97 gives no order (assumption 59). -/
def Obligations.NoticeWritesRing : Prop :=
  (∀ (h : Hdr) (b : NoticeBody) (s : State), Takes s →
    (16 ≤ h.pos → exec (.notice h b) s = .next (answered h .badPosition .none (arrived s))) ∧
    (h.pos < 16 → b.attr = none → exec (.notice h b) s = .next (answered h .malformed .none (arrived s)))) ∧
  ∀ (h : Hdr) (p : Pos) (b : NoticeBody) (a : Attr) (s : State), Takes s → h.pos = p.val → b.attr = some a →
    let freed := b.unlock = true ∧ (rd s.posns p).state = .awaiting
    ∃ t, exec (.notice h b) s = .next t ∧
      let old := rd (arrived s).screens p
      let new := rd t.screens p
      let wrote : Nat → Fin 16 → (Fin 16 → Fin 80 → RingCell) → Prop := fun column newest cells =>
        new.column = column ∧ new.newest = newest ∧ ∀ l c, rd (rd new.ring l) c = cells l c
      let ring : Fin 16 → Fin 80 → RingCell := fun l c => rd (rd old.ring l) c
      let cleared : RingCell := ⟨0x20, (ring old.newest 0).attr⟩
      new = { old with ring := new.ring, newest := new.newest, column := new.column, review := 0, dirty := new.dirty } ∧
      (b.text = [] → wrote old.column old.newest ring) ∧
      (∀ x, b.text = [x] →
        (x = 0x0D → wrote 0 old.newest ring) ∧
        (x = 0x0A → wrote (if old.column = 80 then 0 else old.column) (old.newest + 1)
          fun l c => if l = old.newest + 1 then cleared else ring l c) ∧
        (x = 0x08 → wrote (old.column - 1) old.newest ring) ∧
        (x = 0x07 → wrote old.column old.newest ring) ∧
        (x ≠ 0x0D → x ≠ 0x0A → x ≠ 0x08 → x ≠ 0x07 →
          let ch : Byte := if 0x20 ≤ x.toNat ∧ x.toNat ≤ 0x7E then x else 0x20
          (old.column < 80 → wrote (old.column + 1) old.newest
            fun l c => if l = old.newest ∧ c.val = old.column then ⟨ch, a⟩ else ring l c) ∧
          (old.column = 80 → wrote 1 (old.newest + 1) fun l c =>
            if l = old.newest + 1 then (if c = 0 then ⟨ch, a⟩ else cleared) else ring l c))) ∧
      (∀ xs ys t₁ t₂, b.text = xs ++ ys → exec (.notice h { b with text := xs }) s = .next t₁ →
        exec (.notice h { b with text := ys }) t₁ = .next t₂ →
        wrote (rd t₂.screens p).column (rd t₂.screens p).newest fun l c => rd (rd (rd t₂.screens p).ring l) c) ∧
      (old.review ≠ 0 → 0 ∈ new.dirty) ∧ WindowMarked old new ∧
      t.out = (List.replicate (b.text.count 0x07) (toneOut s p)).flatten ∧
      rd t.keys p = { rd s.keys p with
        timer := if b.unlock = true ∧ (rd s.posns p).state = .awaiting then none else (rd s.keys p).timer } ∧
      (freed → rd t.posns p = leftFor .ready (rd s.posns p) ∧ 0 ∈ new.dirty) ∧
      (¬freed → rd t.posns p = rd s.posns p) ∧ OthersKept p (arrived s) t ∧
      t = { answered h .accepted .none (arrived s) with posns := t.posns, keys := t.keys, screens := t.screens,
                                                        out := t.out }

/-- The station's events. REVIEW_UP and REVIEW_DOWN (R101, R104): the offset moves by 1 within 0 to 12, row 0 is marked and so
is each window row whose shown cells differ; at the limit a present station gets a TONE and nothing changes. PRESENT, ROW_TAKEN and ROW_SEND (R105, R106): PRESENT marks
all twenty rows and clears the row in flight; ROW TAKEN clears it; the lowest dirty row leaves with its cells as they
stand, HIDDEN ones blank, and the cursor. -/
def Obligations.StationEventsMoveRows : Prop :=
  ∀ (p : Pos) (s : State), s.powered = true →
    (∃ t, exec (.reviewUp p) s = .next t ∧ t = { s.begin with screens := t.screens, out := t.out } ∧
      (∀ q, q ≠ p → rd t.screens q = rd s.screens q) ∧
      ((rd s.screens p).review < 12 → (rd t.screens p).review = (rd s.screens p).review + 1 ∧
        0 ∈ (rd t.screens p).dirty ∧ t.out = [] ∧ WindowMarked (rd s.screens p) (rd t.screens p) ∧
        SameButDirty (rd t.screens p) { rd s.screens p with review := (rd s.screens p).review + 1 }) ∧
      (12 ≤ (rd s.screens p).review → t.screens = s.screens ∧
        t.out = if (rd s.screens p).present then [.tone p] else [])) ∧
    (∃ t, exec (.reviewDown p) s = .next t ∧ t = { s.begin with screens := t.screens, out := t.out } ∧
      (∀ q, q ≠ p → rd t.screens q = rd s.screens q) ∧
      (0 < (rd s.screens p).review → (rd t.screens p).review = (rd s.screens p).review - 1 ∧
        0 ∈ (rd t.screens p).dirty ∧ t.out = [] ∧ WindowMarked (rd s.screens p) (rd t.screens p) ∧
        SameButDirty (rd t.screens p) { rd s.screens p with review := (rd s.screens p).review - 1 }) ∧
      ((rd s.screens p).review = 0 → t.screens = s.screens ∧
        t.out = if (rd s.screens p).present then [.tone p] else [])) ∧
    (∃ t, exec (.present p) s = .next t ∧ t = { s.begin with screens := t.screens } ∧
      rd t.screens p = { rd s.screens p with present := true, inFlight := false, dirty := List.range 20 } ∧
      ∀ q, q ≠ p → rd t.screens q = rd s.screens q) ∧
    (∃ t, exec (.rowTaken p) s = .next t ∧ t = { s.begin with screens := t.screens } ∧
      rd t.screens p = { rd s.screens p with inFlight := false } ∧ ∀ q, q ≠ p → rd t.screens q = rd s.screens q) ∧
    ∀ r rest, (rd s.screens p).present = true → (rd s.screens p).inFlight = false → (rd s.screens p).dirty = r :: rest →
      ∃ t, exec (.rowSend p) s = .next t ∧ t = { s.begin with screens := t.screens, out := t.out } ∧
        rd t.screens p = { rd s.screens p with inFlight := true, dirty := rest } ∧
        (∀ q, q ≠ p → rd t.screens q = rd s.screens q) ∧
        t.out = [.row p r ((rowCells s p r).map fun c => if c.attr = .hidden then { c with ch := 0x20 } else c)
          (rd s.screens p).cursor]

/-! ## Tables -/

/-- The loads that name no state but their own table and its uses (R3, R4, R95, R133, R176, R178): an accepted load
replaces or clears its entry, answers ACCEPTED, and changes nothing else. An index out of the table's range is answered
BAD_INDEX, then content that is not as the table takes it MALFORMED, then a form that is a position's current form IN_USE, and
a layout with a printer neither OFFLINE nor EMPTY or a job queued PRINTERS_BUSY; a refused load changes no entry. That a TEXT
field with decimals other than 0 is MALFORMED (`FormSound`) is the model's reading of R94, no rule's word (assumption 24). -/
def Obligations.AcceptedLoadsReplaceEntry : Prop :=
  ∀ (h : Hdr) (s : State), s.powered = true →
    let refuses : Instr → Status → Prop := fun c st => exec c s = .next (answered h st .none (arrived s))
    ((∀ n c, n = 0 ∨ 256 ≤ n → refuses (.postingCodesLoad h n c) .badIndex) ∧
      ∀ (i : Fin 256) (c : Content CodeEntry), 1 ≤ i.val →
        (Faulty CodeSound c → refuses (.postingCodesLoad h i.val c) .malformed) ∧
        (¬Faulty CodeSound c → ∃ t, exec (.postingCodesLoad h i.val c) s = .next t ∧
          (∀ j, rd t.tables.codes j = if j = i then Content.entry c else rd s.tables.codes j) ∧
          t = { answered h .accepted .none (arrived s) with tables := { s.tables with codes := t.tables.codes } })) ∧
    ((∀ n c, 4 ≤ n → refuses (.limitClassesLoad h n c) .badIndex) ∧
      ∀ (i : Fin 4) (c : Content Nat), let faulty := Faulty (fun n => n ≤ 999999999999) c
        (faulty → refuses (.limitClassesLoad h i.val c) .malformed) ∧
        (¬faulty → ∃ t, exec (.limitClassesLoad h i.val c) s = .next t ∧
          (∀ j, rd t.tables.limits j = if j = i then Content.entry c else rd s.tables.limits j) ∧
          t = { answered h .accepted .none (arrived s) with tables := { s.tables with limits := t.tables.limits } })) ∧
    ((∀ n c, 32 ≤ n → refuses (.formFieldsLoad h n c) .badIndex) ∧
      ∀ (i : Fin 32) (c : Content FormDesc), let used := ∃ p, (rd s.screens p).form = some i
        (Faulty (FormSound i.val) c → refuses (.formFieldsLoad h i.val c) .malformed) ∧
        (¬Faulty (FormSound i.val) c → used → refuses (.formFieldsLoad h i.val c) .inUse) ∧
        (¬Faulty (FormSound i.val) c → ¬used → ∃ t, exec (.formFieldsLoad h i.val c) s = .next t ∧
          (∀ j, rd t.tables.forms j = if j = i then Content.entry c else rd s.tables.forms j) ∧
          t = { answered h .accepted .none (arrived s) with tables := { s.tables with forms := t.tables.forms } })) ∧
    ((∀ n c, 512 ≤ n ∨ n % 16 = 0 → refuses (.formTextLoad h n c) .badIndex) ∧
      ∀ (i : Fin 512) (c : Content FormText), i.val % 16 ≠ 0 →
        let faulty := Faulty (fun x : FormText => x.text.length ≤ 80) c
        let used := ∃ p f, (rd s.screens p).form = some f ∧ f.val = i.val / 16
        (faulty → refuses (.formTextLoad h i.val c) .malformed) ∧
        (¬faulty → used → refuses (.formTextLoad h i.val c) .inUse) ∧
        (¬faulty → ¬used → ∃ t, exec (.formTextLoad h i.val c) s = .next t ∧
          (∀ j, rd t.tables.texts j = if j = i then Content.entry c else rd s.tables.texts j) ∧
          t = { answered h .accepted .none (arrived s) with tables := { s.tables with texts := t.tables.texts } })) ∧
    ((∀ n c, 4 ≤ n → refuses (.bookLayoutsLoad h n c) .badIndex) ∧
      ∀ (i : Fin 4) (c : Content Layout),
        let idle := ∀ n, ((rd s.printers n).state = .offline ∨ (rd s.printers n).state = .empty) ∧ rd s.queues n = []
        (Faulty LayoutSound c → refuses (.bookLayoutsLoad h i.val c) .malformed) ∧
        (¬Faulty LayoutSound c → ¬idle → refuses (.bookLayoutsLoad h i.val c) .printersBusy) ∧
        (¬Faulty LayoutSound c → idle → ∃ t, exec (.bookLayoutsLoad h i.val c) s = .next t ∧
          (∀ j, rd t.tables.layouts j = if j = i then Content.entry c else rd s.tables.layouts j) ∧
          t = { answered h .accepted .none (arrived s) with tables := { s.tables with layouts := t.tables.layouts } })) ∧
    (∀ n c, n ≠ 0 → refuses (.parametersLoad h n c) .badIndex) ∧
    (∀ c, Faulty ParamsSound c → refuses (.parametersLoad h 0 c) .malformed) ∧
    (∀ x, ParamsSound x → exec (.parametersLoad h 0 (.define x)) s =
      .next { answered h .accepted .none (arrived s) with tables := { s.tables with params := x } }) ∧
    exec (.parametersLoad h 0 .clear) s =
      .next { answered h .accepted .none (arrived s) with tables := { s.tables with params := ⟨45, 30, 20, 5, 60⟩ } }

/-- The loads with conditions of their own. Currencies (R1): taken only while the day is CLOSED, and then MALFORMED for content
R1 does not take; that DAY_STATE comes ahead of MALFORMED is the model's reading (assumption 17). Rates (R2): an accepted load
moves the slot's serial on by one, wrapping from 65,535 to 0, and a refused one, MALFORMED or of index 0, leaves it. Positions
(R77, R176): refused with POSITION_STATE unless the position is SIGNED_OFF, and with MEMBER_BALANCING when the role changes
while a position of the old or the new group is BALANCING. An index out of range is answered BAD_INDEX (R175). An accepted load
replaces or clears its own entry alone. -/
def Obligations.ConditionalLoadsKeepTheirTerms : Prop :=
  (∀ (h : Hdr) (n : Nat) (s : State), s.powered = true →
    (∀ c, 8 ≤ n → exec (.currenciesLoad h n c) s = .next (answered h .badIndex .none (arrived s))) ∧
    (∀ c, n = 0 ∨ 8 ≤ n → exec (.ratesLoad h n c) s = .next (answered h .badIndex .none (arrived s))) ∧
    ∀ c, 16 ≤ n → exec (.positionsLoad h n c) s = .next (answered h .badIndex .none (arrived s))) ∧
  (∀ (h : Hdr) (i : Fin 8) (c : Content CurrencyEntry) (s : State), s.powered = true →
    ((∀ u, s.day.state ≠ .closed u) → exec (.currenciesLoad h i.val c) s = .next (answered h .dayState .none (arrived s))) ∧
    (∀ u, s.day.state = .closed u → Faulty (CurrencySound s i) c →
      exec (.currenciesLoad h i.val c) s = .next (answered h .malformed .none (arrived s))) ∧
    ∀ u, s.day.state = .closed u → ¬Faulty (CurrencySound s i) c →
      ∃ t, exec (.currenciesLoad h i.val c) s = .next t ∧ (∀ j, rd t.tables.currencies j =
          if j = i then Content.entry c else rd s.tables.currencies j) ∧
        t = { answered h .accepted .none (arrived s) with
              tables := { s.tables with currencies := t.tables.currencies } }) ∧
  (∀ (h : Hdr) (i : Fin 8) (c : Content RateEntry) (s : State), s.powered = true → 1 ≤ i.val →
    (Faulty RateSound c → exec (.ratesLoad h i.val c) s = .next (answered h .malformed .none (arrived s))) ∧
    (¬Faulty RateSound c → ∃ t, exec (.ratesLoad h i.val c) s = .next t ∧
      (∀ j, rd t.tables.rates j = if j = i then Content.entry c else rd s.tables.rates j) ∧
      (∀ j, rd t.tables.serials j = if j = i then (rd s.tables.serials j + 1) % 65536 else rd s.tables.serials j) ∧
      t = { answered h .accepted .none (arrived s) with
            tables := { s.tables with rates := t.tables.rates, serials := t.tables.serials } })) ∧
  ∀ (h : Hdr) (p : Pos) (c : Content PositionEntry) (s : State), s.powered = true →
    let old := s.tables.positions
    let new := wr old p (Content.entry c)
    let locked := isLeader new p ≠ isLeader old p ∧
      ∃ q, (rd s.posns q).state = .balancing ∧ (q ∈ groupOf old p ∨ q ∈ groupOf new p)
    let sound := ¬Faulty (PositionSound p) c
    (¬sound → exec (.positionsLoad h p.val c) s = .next (answered h .malformed .none (arrived s))) ∧
    (sound → (rd s.posns p).state ≠ .signedOff →
      exec (.positionsLoad h p.val c) s = .next (answered h .positionState .none (arrived s))) ∧
    (sound → (rd s.posns p).state = .signedOff → locked →
      exec (.positionsLoad h p.val c) s = .next (answered h .memberBalancing .none (arrived s))) ∧
    (sound → (rd s.posns p).state = .signedOff → ¬locked →
      ∃ t, exec (.positionsLoad h p.val c) s = .next t ∧ (∀ q, rd t.tables.positions q =
          if q = p then Content.entry c else rd s.tables.positions q) ∧
        t = { answered h .accepted .none (arrived s) with tables := { s.tables with positions := t.tables.positions } })

/-- Queries change nothing and answer what stands, an empty entry with its flag and no content but a Rates serial and a live
position record (R37, R52, R74, R79, R149, R177); an unknown table or an index out of its range is answered BAD_INDEX, a body
without table id and index MALFORMED (R175), and a load of tables 10 to 13 READ_ONLY. That a printer's queued jobs include the
head job (assumption 45) and what the journal's answer shows while the control record does not check good (assumption 52) are
the model's choices. -/
def Obligations.QueriesChangeNothing : Prop :=
  ∀ (h : Hdr) (s : State), s.powered = true →
    let gives : Instr → Nat → Nat → Bool → Answer → Prop := fun c t i flag x =>
      exec c s = .next (answered h .accepted (.query t i flag x) (arrived s))
    let asks : Nat → Nat → Instr := fun t i => .tableQuery h (some (t, i))
    (∀ t i, indexOk t i = true → gives (asks t i) t i (queryContent (arrived s) t i).isEmpty (queryContent (arrived s) t i)) ∧
    (∀ i : Fin 32, let e := rd s.tables.forms i; gives (asks 1 i.val) 1 i.val e.isNone (e.elim .empty .form)) ∧
    (∀ i : Fin 512, i.val % 16 ≠ 0 → let e := rd s.tables.texts i; gives (asks 2 i.val) 2 i.val e.isNone (e.elim .empty .text)) ∧
    (∀ i : Fin 256, i ≠ 0 → let e := rd s.tables.codes i; gives (asks 3 i.val) 3 i.val e.isNone (e.elim .empty .code)) ∧
    (∀ i : Fin 8, let e := rd s.tables.currencies i; gives (asks 4 i.val) 4 i.val e.isNone (e.elim .empty .currency)) ∧
    (∀ i : Fin 8, i ≠ 0 → gives (asks 5 i.val) 5 i.val (rd s.tables.rates i).isNone
      (.rates (rd s.tables.rates i) (rd s.tables.serials i))) ∧
    (∀ i : Fin 4, let e := rd s.tables.limits i; gives (asks 6 i.val) 6 i.val e.isNone (e.elim .empty .limit)) ∧
    (∀ i : Fin 4, let e := rd s.tables.layouts i; gives (asks 8 i.val) 8 i.val e.isNone (e.elim .empty .layout)) ∧
    gives (asks 9 0) 9 0 false (.params s.tables.params) ∧
    (∀ p : Pos, ∀ c, (c = .positionsQuery h p.val ∨ c = asks 7 p.val) → gives c 7 p.val (rd s.tables.positions p).isNone
      (.position (rd s.tables.positions p) (liveRecord s p))) ∧
    (∀ p : Pos, ∀ c, (c = .drawerQuery h p.val ∨ c = asks 10 p.val) → gives c 10 p.val false
      (.drawer (rd s.drawers p).lines (rd s.drawers p).captureNo (balanceKind s p))) ∧
    (∀ n : Prn, ∀ c, (c = .printerStatusQuery h n.val ∨ c = asks 11 n.val) →
      gives c 11 n.val false (.printer (printerStatus s n))) ∧
    (∀ c mark, (c = .journalStatusQuery h 0 ∨ c = asks 12 0) →
      ((∃ x, s.day.state = .closed x ∧ mark = x) ∨
        (∀ x, s.day.state ≠ .closed x) ∧ mark = s.nv.control.fields.undelivered) →
      let f := s.nv.control.fields
      gives c 12 0 false (.journal ⟨s.day.date, s.day.state, mark, f.slotsUsed, f.entryCount, f.entryCount + 1, f.delivered,
        s.jc.pendingCount, s.jc.unreadable, s.jc.lowSpace, s.day.state == .recovering⟩)) ∧
    (∀ c, (c = .dayAndLineStatusQuery h 0 ∨ c = asks 13 0) →
      gives c 13 0 false (.day { dayStatus s with line := .online })) ∧
    (∀ t i, (t = 0 ∨ 13 < t ∨ (t = 1 ∧ 32 ≤ i) ∨ (t = 2 ∧ (512 ≤ i ∨ i % 16 = 0)) ∨ (t = 3 ∧ (i = 0 ∨ 256 ≤ i)) ∨
        (t = 4 ∧ 8 ≤ i) ∨ (t = 5 ∧ (i = 0 ∨ 8 ≤ i)) ∨ (t = 6 ∧ 4 ≤ i) ∨ (t = 7 ∧ 16 ≤ i) ∨ (t = 8 ∧ 4 ≤ i) ∨
        (t = 9 ∧ i ≠ 0) ∨ (t = 10 ∧ 16 ≤ i) ∨ (t = 11 ∧ 4 ≤ i) ∨ ((t = 12 ∨ t = 13) ∧ i ≠ 0)) →
      exec (asks t i) s = .next (answered h .badIndex .none (arrived s))) ∧
    exec (.tableQuery h none) s = .next (answered h .malformed .none (arrived s)) ∧
    (∀ t i, 10 ≤ t → t ≤ 13 → exec (.tableLoadReadOnly h (some (t, i))) s = .next (answered h .readOnly .none (arrived s))) ∧
    (∀ t i, t = 0 ∨ 13 < t → exec (.tableLoadReadOnly h (some (t, i))) s = .next (answered h .badIndex .none (arrived s))) ∧
    exec (.tableLoadReadOnly h none) s = .next (answered h .malformed .none (arrived s))

/-! ## Postings -/

/-- The conversion (R10) is the nearest integer to the exact value, and the even one of the two at an exact half. -/
def Obligations.ConversionRoundsHalfToEven : Prop :=
  ∀ a r el ef : Nat,
    let n := a * r * 10 ^ el
    let d := 10 ^ (ef + 6)
    let q := convert a r el ef
    2 * n ≤ 2 * q * d + d ∧ 2 * q * d ≤ 2 * n + d ∧ ((2 * n = 2 * q * d + d ∨ 2 * q * d = 2 * n + d) → q % 2 = 0)

/-- Cash rounding (R13) gives a multiple of the cash unit nearest to the amount, of the amount's sign; at a midpoint the
one of lesser magnitude. -/
def Obligations.CashRoundingTakesNearestMultiple : Prop :=
  ∀ (a : Int) (c : Nat), 0 < c →
    (c : Int) ∣ cashRound a c ∧ 2 * (a - cashRound a c).natAbs ≤ c ∧
    (2 * (a - cashRound a c).natAbs = c → (cashRound a c).natAbs ≤ a.natAbs) ∧
    (0 ≤ a → 0 ≤ cashRound a c) ∧ (a ≤ 0 → cashRound a c ≤ 0)

/-- The law of R16 on the legs of a posting that passes its checks, which its POSTING entry carries: an exchange's
local-currency legs (lines 0, 13 and 14) sum to zero, and a local CASH_IN or CASH_OUT's cash and rounding legs to the
signed amount. -/
def Obligations.LocalLegsSumAsTheLawSays : Prop :=
  ∀ (req : PostReq) (late : Bool) (pl : Plan) (s : State), checkPosting req s = .ok pl →
    let loc : List Int := ((postingRec late req pl s).legs.filter fun g => g.line = 0 ∨ g.line = 13 ∨ g.line = 14).map
      fun g => g.amount
    ((pl.code.cls = .exchangeBuy ∨ pl.code.cls = .exchangeSell) → loc.sum = 0) ∧
    (pl.code.cls = .cashIn → pl.slot = 0 → loc.sum = req.amount) ∧
    (pl.code.cls = .cashOut → pl.slot = 0 → loc.sum = -(req.amount : Int))

/-- A leg applied to a drawer line (R22): the sum held within ±99,999,999,999,999, the count within 65,535, the marker set
when either is held and kept when it was set. -/
def Obligations.LegSaturatesLine : Prop :=
  ∀ (g : Leg) (s : State), let l := rd (rd s.drawers g.pos).lines g.line
    let m := rd (rd (applyLeg g s).drawers g.pos).lines g.line
    m.amount = max (-99999999999999) (min 99999999999999 (l.amount + g.amount)) ∧ m.count = min 65535 (l.count + 1) ∧
    (m.exceeded = true ↔ l.exceeded = true ∨ 99999999999999 < l.amount + g.amount ∨ l.amount + g.amount < -99999999999999 ∨
      65535 ≤ l.count) ∧
    (∀ p i, (p ≠ g.pos ∨ i ≠ g.line) → rd (rd (applyLeg g s).drawers p).lines i = rd (rd s.drawers p).lines i) ∧
    applyLeg g s = { s with drawers := (applyLeg g s).drawers }

/-- A POST refused by R6 or R7 answers its status and changes nothing: MALFORMED for a body of R6 with a part missing or out
of its range; otherwise the status of the first check of Table 1-1, in the table's order, that fails. A POST that fails none
passes. -/
def Obligations.RefusedPostChangesNothing : Prop :=
  ∀ (h : Hdr) (b : PostBody) (s : State), Takes s →
    let malformed := b.code = none ∨ b.slot = none ∨ b.amount = none ∨
      (∃ a, b.account = some a ∧ (a = [] ∨ 19 < a.length)) ∨ (b.passbook ≠ none ∧ b.account = none) ∨
      (∃ k, b.passbook = some k ∧ (3 < k.bookType ∨ k.page = 0 ∨ 32 < k.page ∨ k.line = 0 ∨ 40 < k.line ∨
        ∃ v, k.balance = some v ∧ 99999999999999 < v.natAbs)) ∨ ∃ n, b.entryRef = some n ∧ 4095 < n
    (malformed → exec (.post h b) s = .next (answered h .malformed .none (arrived s))) ∧
    (¬malformed → ∀ st, FirstFails (postingChecks (postRequest h b) s) st →
      exec (.post h b) s = .next (answered h st .none (arrived s))) ∧
    ((∀ st, ¬FirstFails (postingChecks (postRequest h b) s) st) → ∃ pl, checkPosting (postRequest h b) s = .ok pl)

/-- An accepted ONLINE POST (R11, R17 to R20, R47, R125, R129): the journal gains a MIDNIGHT when one was pending and one
POSTING entry with the fields R17 lists and the line R19 yields; its legs reach the drawers in entry order; the line joins its
account's list, its entry STORED, and a job is attempted when the account has none, or it finds no place and shows OVERFLOW;
ACCEPTED is queued; the low-space flag and JOURNAL_LOW are as R48 says; stand-in usage is untouched. -/
def Obligations.AcceptedPostIsJournaledAndApplied : Prop :=
  ∀ (h : Hdr) (b : PostBody) (pl : Plan) (s : State), Takes s → postMalformed b = false →
    checkPosting (postRequest h b) s = .ok pl →
    let seq := s.nv.control.fields.entryCount + (midnightBodies s).length + 1
    ∃ t g, exec (.post h b) s = .next t ∧ Appended (midnightBodies s ++ [.posting g]) s t ∧ slotsUsed t ≤ 16128 ∧
      (∃ e, t.nv.entries.getLast? = some e ∧ e.body = .posting g ∧ e.seq = seq ∧ e.kind = 2 ∧ e.size = 2 ∧
        e.time = s.clock.time ∧ e.clockMark = true ∧ e.fwd = .notNeeded) ∧
      (g.origin = .online ∧ g.pos = pl.pos ∧ g.pos.val = h.pos ∧ b.code = some g.code ∧ CodeIs s g.code pl.code ∧
        b.slot = some g.slot.val ∧ b.amount = some g.amount ∧ g.cls = pl.code.cls ∧ g.direction = pl.code.direction ∧
        g.serial = (if g.slot = 0 then 0 else rd s.tables.serials g.slot) ∧ g.value = pl.value ∧
        (∀ c, rd s.tables.currencies g.slot = some c → pl.exponent = c.exponent ∧ g.value = if g.slot = 0 then g.amount
          else convert g.amount (rateFor s g.cls g.slot) (localExponent s) c.exponent) ∧
        g.account = b.account ∧ g.entryRef = b.entryRef ∧ g.balance = b.passbook.bind (·.balance) ∧
        g.book = (b.passbook.map fun k => ⟨k.bookType, k.page, k.line⟩) ∧ g.legs = pl.legs ∧
        (g.late = true ↔ ∃ n, b.entryRef = some n ∧
          ¬((rd s.posns pl.pos).state = .awaiting ∧ (rd s.posns pl.pos).outstanding = some n))) ∧
      ((pl.code.passbook = false ∨ b.passbook = none) → g.yielded = none) ∧
      (pl.code.passbook = true → b.passbook ≠ none → g.yielded = some (if g.cls = .nonCash then
          ⟨pl.code.name, if g.direction = some .decrease then -(g.value : Int) else g.value, localExponent s⟩
        else ⟨pl.code.name, if g.cls = .cashOut then -(g.amount : Int) else g.amount, pl.exponent⟩)) ∧
      (g.yielded = none → t.store = s.store ∧ t.queues = s.queues ∧ t.printers = s.printers ∧
        ∀ e, entryAt seq t = some e → e.print = .none) ∧
      (∀ a x k, b.account = some a → g.yielded = some x → b.passbook = some k →
        (StoreHasRoom a s → accountLines a t = accountLines a s ++
            [⟨businessDate s, x.name, x.amount, x.exponent, k.balance, false, some (k.page, k.line), seq⟩] ∧
          (∀ y, y ≠ a → accountLines y t = accountLines y s) ∧ (findAccount a t).bind (·.bookType) = some k.bookType ∧
          (∀ e, entryAt seq t = some e → e.print = .stored) ∧
          (jobMarked a s = true → jobMarked a t = true ∧ t.queues = s.queues ∧ t.printers = s.printers) ∧
          (jobMarked a s = false → JobAttempted pl.pos a (arrived s) t)) ∧
        (¬StoreHasRoom a s → t.store = s.store ∧ t.queues = s.queues ∧ t.printers = s.printers ∧
          ∀ e, entryAt seq t = some e → e.print = .overflow)) ∧
      t.drawers = (applyLegs pl.legs s).drawers ∧ (∀ q, (rd t.posns q).usage = (rd s.posns q).usage) ∧
      (∀ q, q ≠ pl.pos → rd t.posns q = rd s.posns q ∧ rd t.keys q = rd s.keys q ∧
        rd t.screens q = rd (arrived s).screens q) ∧
      (s.line.outbound.length ≤ 24 → Replied h .accepted .none s t) ∧ t.out = [] ∧
      t = { since (arrived s) t with drawers := t.drawers, posns := t.posns, keys := t.keys, screens := t.screens,
                                     store := t.store, queues := t.queues, printers := t.printers,
                                     clock := { s.clock with midnights := 0 } }

/-- The matching of an ONLINE POST's entry reference (R157, R158): absent it is not late and changes nothing; equal to the
outstanding entry of an AWAITING position it ends AWAITING with nothing in doubt and is not late; otherwise it is late,
removes the in-doubt entry it equals, and LATE_POSTING is raised. A change marks row 0. A refused POST changes no position
record. -/
def Obligations.PostMatchesOutstandingEntry : Prop :=
  ∀ (h : Hdr) (b : PostBody) (s : State), Takes s → postMalformed b = false →
    (∀ st, checkPosting (postRequest h b) s = .error st →
      ∃ t, exec (.post h b) s = .next t ∧ t.posns = s.posns ∧ t.keys = s.keys) ∧
    ∀ pl : Plan, checkPosting (postRequest h b) s = .ok pl →
      let r := rd s.posns pl.pos
      ∃ t e g, exec (.post h b) s = .next t ∧ t.nv.entries.getLast? = some e ∧ e.body = .posting g ∧
        g.entryRef = b.entryRef ∧ (∀ q, q ≠ pl.pos → rd t.posns q = rd s.posns q ∧ rd t.keys q = rd s.keys q) ∧
        (b.entryRef = none → g.late = false ∧ t.posns = s.posns ∧ t.keys = s.keys) ∧
        ∀ n, b.entryRef = some n →
          (r.state = .awaiting → r.outstanding = some n →
            rd t.posns pl.pos = { r with state := .ready, outstanding := none } ∧
            rd t.keys pl.pos = { rd s.keys pl.pos with timer := none } ∧ g.late = false ∧
            0 ∈ (rd t.screens pl.pos).dirty) ∧
          ((r.state ≠ .awaiting ∨ r.outstanding ≠ some n) →
            g.late = true ∧ rd t.keys pl.pos = rd s.keys pl.pos ∧
            (r.inDoubt = some n → rd t.posns pl.pos = { r with inDoubt := none } ∧ 0 ∈ (rd t.screens pl.pos).dirty) ∧
            (r.inDoubt ≠ some n → t.posns = s.posns) ∧
            (s.line.outbound.length ≤ 24 → Reported pl.pos
              (.latePosting pl.pos n e.seq r.outstanding (decide (r.inDoubt = some n))) s t))

/-- BOOK LINES (R125, R126, R129). A body with a field missing or out of its range, or no line or more than 16, is MALFORMED;
otherwise the first check of R126 that fails gives the status; a refusal changes nothing. One that passes: one BOOK LINE entry for each line in list order; the first lines find the places
the store and the account have, join the account's list and show STORED, the rest show OVERFLOW; the record takes the book
type when a line is kept (with none kept it keeps its own, assumption 50, the model's choice); a job is attempted when a line
is kept and the account has none; ACCEPTED carries the number of lines kept; the low-space flag and JOURNAL_LOW are as R48
says. -/
def Obligations.BookLinesAreJournaledAndKept : Prop :=
  (∀ (h : Hdr) (s : State), Takes s →
    let refuses : BookLinesBody → Status → Prop := fun b st =>
      exec (.bookLines h b) s = .next (answered h st .none (arrived s))
    refuses .incomplete .malformed ∧
    ∀ (a : Account) (ty : Nat) (ls : List BookLineItem),
      let malformed := a = [] ∨ 19 < a.length ∨ 3 < ty ∨ ls = [] ∨ 16 < ls.length ∨ ∃ l ∈ ls, ¬LineSound l
      (malformed → refuses (.full a ty ls) .malformed) ∧
      (¬malformed → ∀ st, FirstFails
        [ (s.day.state = .opened ∨ s.day.state = .cutoff, .dayState), (s.clock.isSet = true, .clockUnset),
          (h.pos < 16, .badPosition),
          (slotsUsed s + (midnightBodies s).length + ls.length ≤ 16128, .journalFull) ] st → refuses (.full a ty ls) st)) ∧
  ∀ (h : Hdr) (p : Pos) (a : Account) (ty : Nat) (ls : List BookLineItem) (s : State), Takes s → h.pos = p.val →
    bookLinesBad a ty ls = false → (s.day.state = .opened ∨ s.day.state = .cutoff) → s.clock.isSet = true →
    slotsUsed s + (midnightBodies s).length + ls.length ≤ 16128 → (s.store.map (·.account)).Nodup →
    let seq := s.nv.control.fields.entryCount + (midnightBodies s).length + 1
    let kept := if findAccount a s = none ∧ 64 ≤ s.store.length then 0
      else min ls.length (min (32 - (accountLines a s).length) (512 - storedLines s))
    ∃ t, exec (.bookLines h (.full a ty ls)) s = .next t ∧
      Appended (midnightBodies s ++ ls.map fun l => .bookLine ⟨a, ty, l.date, l.name, l.amount, l.exponent, l.balance⟩) s t ∧
      storedLines t = storedLines s + kept ∧
      accountLines a t = accountLines a s ++ (ls.take kept).zipIdx.map (fun l =>
        ⟨l.1.date, l.1.name, l.1.amount, l.1.exponent, l.1.balance, false, none, seq + l.2⟩) ∧
      (∀ x, x ≠ a → accountLines x t = accountLines x s) ∧
      (∀ k e, k < ls.length → entryAt (seq + k) t = some e → e.print = if k < kept then .stored else .overflow) ∧
      (0 < kept → (findAccount a t).bind (·.bookType) = some ty) ∧
      (kept = 0 → t.store = s.store) ∧
      (kept = 0 ∨ jobMarked a s = true → t.queues = s.queues ∧ t.printers = s.printers) ∧
      (0 < kept → jobMarked a s = false → JobAttempted p a (arrived s) t) ∧
      (s.line.outbound.length ≤ 24 → Replied h .accepted (.kept kept) s t) ∧
      (∀ q, q ≠ p → rd t.screens q = rd (arrived s).screens q) ∧ t.out = [] ∧
      t = { since (arrived s) t with screens := t.screens, store := t.store, queues := t.queues, printers := t.printers,
                                     clock := { s.clock with midnights := 0 } }

/-! ## Balances and declarations -/

/-- A single balance, asked for by head office or by the BALANCE or SIGN OFF key (R23 to R26): the CAPTURE entry with the
lines as they stood, the markers cleared, the capture number moved on, the balance begun, and CAPTURE_TAKEN. A request is
refused with the status of the first check of R26 that fails; a key refused by state, day or clock sounds a TONE, one refused
for space shows JOURNAL_FULL too (its text is the model's, assumption 9); a refusal changes nothing. A request whose
body names no kind changes nothing and is answered with a status the manual leaves open (assumption 43, the model's choice). -/
def Obligations.SingleBalanceCaptures : Prop :=
  (∀ (h : Hdr) (s : State), Takes s →
    exec (.positionControlBalance h none) s = .next (answered h Config.balanceBodyStatus .none (arrived s)) ∧
    ∀ k st, FirstFails
      [ (s.day.state = .opened ∨ s.day.state = .cutoff, .dayState), (s.clock.isSet = true, .clockUnset),
        (h.pos < 16, .badPosition),
        (∃ p : Pos, h.pos = p.val ∧ ((rd s.posns p).state = .ready ∨ (rd s.posns p).state = .awaiting), .positionState),
        (slotsUsed s + (midnightBodies s).length + 4 ≤ 16256, .journalFull) ] st →
      exec (.positionControlBalance h (some k)) s = .next (answered h st .none (arrived s))) ∧
  (∀ (p : Pos) (key : Token) (rest : List Token) (s : State), s.powered = true → (key = .balance ∨ key = .signOff) →
    (rd s.keys p).queue = key :: rest → Acts s p key →
    ((¬Trading s ∨ (rd s.posns p).state ≠ .ready) → ∃ t, exec (takeOf p key) s = .next t ∧ Refused p rest s t) ∧
    (Trading s → (rd s.posns p).state = .ready → 16256 < slotsUsed s + (midnightBodies s).length + 4 →
      ∃ t, exec (takeOf p key) s = .next t ∧ RefusedWith p rest (some (Status.name .journalFull)) none s t)) ∧
  ∀ (p : Pos) (s : State), s.powered = true → (s.day.state = .opened ∨ s.day.state = .cutoff) → s.clock.isSet = true →
    slotsUsed s + (midnightBodies s).length + 4 ≤ 16256 →
    let capture : BalKind → EntryBody := fun k => .capture ⟨p, k, captureAfter s p, none, (rd s.drawers p).lines⟩
    let taken : BalKind → Report := fun k =>
      .captureTaken p k (captureAfter s p) s.clock.time (rd s.drawers p).lines
    (∀ (h : Hdr) (k : BalKind), h.pos = p.val → ((rd s.posns p).state = .ready ∨ (rd s.posns p).state = .awaiting) →
      ∃ t, exec (.positionControlBalance h (some k)) s = .next t ∧ Appended (midnightBodies s ++ [capture k]) s t ∧
        Captured p s t ∧ BalanceBegun k none p (arrived s) t ∧ OthersKept p (arrived s) t ∧
        (rd t.keys p).queue = (rd s.keys p).queue ∧
        (s.line.outbound.length ≤ 24 → Reported p (taken k) s t ∧ Replied h .accepted .none s t) ∧
        t = { since (arrived s) t with posns := t.posns, drawers := t.drawers, screens := t.screens, keys := t.keys,
                                       clock := { s.clock with midnights := 0 } }) ∧
    (∀ rest, (rd s.posns p).state = .ready → (rd s.keys p).queue = .balance :: rest →
      ∃ t, exec (.balance p) s = .next t ∧ Appended (midnightBodies s ++ [capture .interim]) s t ∧ Captured p s t ∧
        BalanceBegun .interim none p s t ∧ OthersKept p s t ∧ (rd t.keys p).queue = rest ∧
        (s.line.state = .online → s.line.outbound.length ≤ 24 → Reported p (taken .interim) s t) ∧
        t = { since s t with posns := t.posns, drawers := t.drawers, screens := t.screens, keys := t.keys,
                             clock := { s.clock with midnights := 0 } }) ∧
    ∀ rest, (rd s.posns p).state = .ready → (rd s.keys p).queue = .signOff :: rest →
      ∃ t, exec (.signOff p) s = .next t ∧ Appended (midnightBodies s ++ [capture .final]) s t ∧ Captured p s t ∧
        BalanceBegun .final none p s t ∧ OthersKept p s t ∧ (rd t.keys p).queue = rest ∧
        (s.line.state = .online → s.line.outbound.length ≤ 24 → Reported p (taken .final) s t) ∧
        t = { since s t with posns := t.posns, drawers := t.drawers, screens := t.screens, keys := t.keys,
                             clock := { s.clock with midnights := 0 } }

/-- A group balance, asked for by head office or by the GROUP BALANCE or GROUP CLOSE key of a READY leader (R28, R23, R29):
the BEGIN mark, a capture of every position of the group with its CAPTURE_TAKEN, a balance begun on each that is signed on,
and at once the END mark and GROUP_COMPLETE when none is. A request is refused with the status of the first check of R28 that
fails; a refused key sounds a TONE, and shows MEMBER_BALANCING or JOURNAL_FULL (texts: assumption 9); a refusal changes nothing.
GROUP_COMPLETE's header position, the leader, is the model's reading (assumption 18). A request whose body names no kind changes nothing and is answered
with a status the manual leaves open (assumption 43, the model's choice). -/
def Obligations.GroupBalanceCapturesGroup : Prop :=
  (∀ (h : Hdr) (s : State), Takes s →
    exec (.positionControlGroupBalance h none) s = .next (answered h Config.balanceBodyStatus .none (arrived s)) ∧
    ∀ k st, FirstFails
      [ (s.day.state = .opened ∨ s.day.state = .cutoff, .dayState), (s.clock.isSet = true, .clockUnset),
        (h.pos < 16, .badPosition), (∃ l : Pos, h.pos = l.val ∧ isLeader s.tables.positions l = true, .notLeader),
        (∀ l : Pos, h.pos = l.val → ∀ q ∈ groupOf s.tables.positions l, (rd s.posns q).state ≠ .balancing,
          .memberBalancing),
        (∀ l : Pos, h.pos = l.val → slotsUsed s + ((groupBodies k l s).map kindSlots).sum ≤ 16256, .journalFull) ] st →
      exec (.positionControlGroupBalance h (some k)) s = .next (answered h st .none (arrived s))) ∧
  (∀ (l : Pos) (key : Token) (k : BalKind) (rest : List Token) (s : State), s.powered = true →
    (key = .groupBalance ∧ k = .interim ∨ key = .groupClose ∧ k = .final) → (rd s.keys l).queue = key :: rest →
    Acts s l key →
    let may := Trading s ∧ isLeader s.tables.positions l = true ∧ (rd s.posns l).state = .ready
    (¬may → ∃ t, exec (takeOf l key) s = .next t ∧ Refused l rest s t) ∧
    (may → ∀ st, FirstFails
      [ (∀ q ∈ groupOf s.tables.positions l, (rd s.posns q).state ≠ .balancing, .memberBalancing),
        (slotsUsed s + ((groupBodies k l s).map kindSlots).sum ≤ 16256, .journalFull) ] st →
      ∃ t, exec (takeOf l key) s = .next t ∧ RefusedWith l rest (some st.name) none s t)) ∧
  ∀ (l : Pos) (s : State), s.powered = true → (s.day.state = .opened ∨ s.day.state = .cutoff) → s.clock.isSet = true →
    isLeader s.tables.positions l = true →
    (∀ q ∈ groupOf s.tables.positions l, (rd s.posns q).state ≠ .balancing) →
    (∀ k, slotsUsed s + ((groupBodies k l s).map kindSlots).sum ≤ 16256) →
    (∀ (h : Hdr) (k : BalKind), h.pos = l.val →
      ∃ t, exec (.positionControlGroupBalance h (some k)) s = .next t ∧ GroupBegun k l (arrived s) t ∧
        (t.line.outbound.length < 28 → Replied h .accepted .none s t)) ∧
    (∀ rest, (rd s.posns l).state = .ready → (rd s.keys l).queue = .groupBalance :: rest →
      ∃ t, exec (.groupBalance l) s = .next t ∧
        GroupBegun .interim l (s.updKeys l fun x => { x with queue := rest }) t) ∧
    ∀ rest, (rd s.posns l).state = .ready → (rd s.keys l).queue = .groupClose :: rest →
      ∃ t, exec (.groupClose l) s = .next t ∧ GroupBegun .final l (s.updKeys l fun x => { x with queue := rest }) t

/-- A declaration that passes its checks (R29, R31, R32): the DECLARATION entry, for each slot taking part its count, the live
cash line and the difference, and for a FINAL one with a difference its over/short amount and rate serial; the legs reach the
cash line, which takes the declared count, and line 15; every other line stays. An INTERIM one returns the position to READY
on its return form, a FINAL one signs it off. The balance ends for its group, an emptied group with the END mark and
GROUP_COMPLETE (its header position, the leader, is the model's reading, assumption 18), and DECLARATION is raised. One that
fails a check of R30, slot by slot in ascending order, or finds no room is refused: a TONE, the notice of the status (its text
is the model's, assumption 9), the cursor in the slot's field where a slot fails, and nothing else changes. -/
def Obligations.DeclarationEndsBalance : Prop :=
  (∀ (p : Pos) (d : FormDesc) (ctx : BalCtx) (rest : List Token) (s : State), s.powered = true →
    (rd s.posns p).state = .balancing → (rd s.screens p).form = some 1 → rd s.tables.forms 1 = some d →
    (∀ i, ∀ f : FieldDesc, d.fields[i]? = some f → f.mandatory = true → isFilled f (fieldValue s p i) = true) →
    (rd s.keys p).queue = .transmit :: rest → (rd s.drawers p).ctx = some ctx →
    let fails : Fin 8 → CurrencyEntry → Nat → Status → Prop := fun c cur i st =>
      FirstFails (countChecks s p ctx.kind c cur (digitsValue (fieldValue s p i))) st
    (∀ c cur i f st, CountsIn s d c cur i → d.fields[i]? = some f → fails c cur i st →
      (∀ e, e < c → ∀ cur' j x, CountsIn s d e cur' j → ¬fails e cur' j x) →
      ∃ t, exec (.transmit p) s = .next t ∧ RefusedWith p rest (some st.name) (some (i, f)) s t) ∧
    ((∀ c cur i st, CountsIn s d c cur i → ¬fails c cur i st) →
      (∃ xs, declareSlots s p ctx.kind d (List.finRange 8) = .ok xs) ∧
      ((s.day.state = .opened ∨ s.day.state = .cutoff) →
        16256 < slotsUsed s + (midnightBodies s).length + 4 + (groupEndBodies p ctx.leader false s).length →
        ∃ t, exec (.transmit p) s = .next t ∧ RefusedWith p rest (some (Status.name .journalFull)) none s t))) ∧
  ∀ (p : Pos) (d : FormDesc) (ctx : BalCtx) (xs : List DeclSlot) (rest : List Token) (s : State), s.powered = true →
    (rd s.posns p).state = .balancing → (rd s.screens p).form = some 1 → rd s.tables.forms 1 = some d →
    (∀ i, ∀ f : FieldDesc, d.fields[i]? = some f → f.mandatory = true → isFilled f (fieldValue s p i) = true) →
    (rd s.keys p).queue = .transmit :: rest → (rd s.drawers p).ctx = some ctx →
    declareSlots s p ctx.kind d (List.finRange 8) = .ok xs →
    (s.day.state = .opened ∨ s.day.state = .cutoff) →
    let ends := groupEndBodies p ctx.leader false s
    slotsUsed s + (midnightBodies s).length + 4 + ends.length ≤ 16256 →
    let r : DeclRec := ⟨p, ctx.kind, ctx.number, xs⟩
    let legs := xs.flatMap fun x => match x.overShort with
      | some v => [⟨p, cashLine x.slot, x.diff⟩, ⟨p, 15, v⟩]
      | none => []
    ∃ t, exec (.transmit p) s = .next t ∧
      Appended (midnightBodies s ++ [.declaration r] ++ ends) s t ∧
      (xs.map (·.slot) = (List.finRange 8).filter fun c => (rd s.tables.currencies c).isSome &&
        d.fields.any fun f => f.role == .count c.val) ∧
      (∀ x ∈ xs, x.live = (rd (rd s.drawers p).lines (cashLine x.slot)).amount ∧ x.diff = x.count - x.live ∧
        (∃ i f, d.fields[i]? = some f ∧ f.role = .count x.slot.val ∧ x.count = digitsValue (fieldValue s p i)) ∧
        ((ctx.kind = .interim ∨ x.diff = 0) → x.overShort = none ∧ x.serial = 0) ∧
        (ctx.kind = .final → x.diff ≠ 0 → x.slot = 0 → x.overShort = some (-x.diff) ∧ x.serial = 0) ∧
        (ctx.kind = .final → x.diff ≠ 0 → x.slot ≠ 0 → ∃ c q, rd s.tables.currencies x.slot = some c ∧
          rd s.tables.rates x.slot = some q ∧ x.serial = rd s.tables.serials x.slot ∧
          let v : Int := convert x.diff.natAbs q.buy (localExponent s) c.exponent
          x.overShort = some (if x.diff < 0 then v else -v))) ∧
      rd t.drawers p = { rd (applyLegs legs s).drawers p with ctx := none } ∧
      (∀ x ∈ xs, ctx.kind = .final → (rd (rd t.drawers p).lines (cashLine x.slot)).amount = x.count) ∧
      (∀ i, i ≠ 15 → (∀ x ∈ xs, x.overShort ≠ none → cashLine x.slot ≠ i) →
        rd (rd t.drawers p).lines i = rd (rd s.drawers p).lines i) ∧
      OthersKept p s t ∧ LeftGroup p ctx.leader false s t ∧
      (ctx.kind = .interim → rd t.posns p = { rd s.posns p with state := .ready } ∧ (rd t.keys p).queue = rest ∧
        (rd t.screens p).form = ctx.returnForm.bind (shownForm s)) ∧
      (ctx.kind = .final → rd t.posns p = { rd s.posns p with state := .signedOff, teller := none } ∧
        (rd t.keys p).queue = [] ∧ (rd t.screens p).form = shownForm s 0) ∧ 0 ∈ (rd t.screens p).dirty ∧
      (s.line.state = .online → s.line.outbound.length ≤ 24 → Reported p (.declaration r) s t) ∧ t.out = [] ∧
      t = { since s t with posns := t.posns, drawers := t.drawers, screens := t.screens, keys := t.keys,
                           groups := t.groups, clock := { s.clock with midnights := 0 } }

/-! ## The day and the clock -/

/-- OPEN (R63, R64): one that passes opens the day: the journal emptied and its control record written, sixteen OPENING
entries, every drawer loaded from its amounts, entry numbers, usage and in-doubt entries cleared, the store emptied, any batch
abandoned and the numbering reset. One that fails a check of R63 is answered the status of the first and changes nothing, a
malformed one MALFORMED. A source absent or unknown is answered with a status the manual leaves open (assumption 42), and a
SUPPLIED request of more rows or amounts than it may carry is MALFORMED (assumption 41): the model's choices, and so is that
the engine takes the notice of a return after the request (assumption 58). -/
def Obligations.OpenStartsDay : Prop :=
  (∀ (h : Hdr) (b : OpenBody) (s : State), Takes s →
    let whole := b.amounts.length = 16 ∧ ∀ r ∈ b.amounts, r.length = 8 ∧ ∀ a ∈ r, 0 ≤ a ∧ a ≤ 99999999999999
    ((dateOk b.date = false ∨ (b.source = some .retained ∧ b.amounts ≠ []) ∨ (b.source = some .supplied ∧ ¬whole)) →
      exec (.openDay h b) s = .next (answered h .malformed .none (arrived s))) ∧
    (dateOk b.date = true → b.source = none →
      exec (.openDay h b) s = .next (answered h Config.openSourceStatus .none (arrived s))) ∧
    (openMalformed b = false → b.source ≠ none → ∀ st, FirstFails (openingChecks b (openingAmounts b s) s) st →
      exec (.openDay h b) s = .next (answered h st .none (arrived s)))) ∧
  ∀ (h : Hdr) (b : OpenBody) (src : OpenSource) (u : Bool) (s : State), s.powered = true → s.day.state = .closed u →
    b.source = some src → openMalformed b = false →
    (∀ st, ¬FirstFails (openingChecks b (openingAmounts b s) s) st) →
    let amounts := openingAmounts b s
    (src = .retained → amounts = s.nv.retained.amounts) ∧
    (src = .supplied → ∀ (p : Pos) (c : Fin 8), (b.amounts[p.val]?).bind (fun r => r[c.val]?) = some (rd (rd amounts p) c)) ∧
    ∃ t, exec (.openDay h b) s = .next t ∧
      t.day = { s.day with state := .opened, date := some b.date, alarm := none } ∧
      t.nv.control.fields = ⟨b.date, some .opened, 32, 16, 0, true⟩ ∧ t.nv.control.good = true ∧
      t.nv.retained = s.nv.retained ∧ t.nv.entries.length = 16 ∧
      (∀ p : Pos, ∃ e, t.nv.entries[p.val]? = some e ∧ e.seq = p.val + 1 ∧
        e.body = .opening p b.date src (b.discard && u) (rd amounts p)) ∧
      (∀ p, rd t.drawers p = ⟨(rd t.drawers p).lines, 0, none⟩ ∧ ∀ i, rd (rd t.drawers p).lines i =
        ⟨if hi : i.val < 8 then rd (rd amounts p) ⟨i.val, hi⟩ else 0, 0, false⟩) ∧
      (∀ p, rd t.groups p = none) ∧
      (∀ p, rd t.posns p = { rd s.posns p with entryNo := 0, usage := 0, inDoubt := none }) ∧
      (∀ p, 0 ∈ (rd t.screens p).dirty ∧
        SameButDirty { rd (arrived s).screens p with noPrinter := false } (rd t.screens p)) ∧
      t = { answered h .accepted .none (arrived s) with
            nv := t.nv, nvLog := t.nvLog, day := t.day, drawers := t.drawers, groups := t.groups, posns := t.posns,
            screens := t.screens, store := [], clock := { s.clock with midnights := 0 },
            jc := { s.jc with unreadable := false, lowSpace := false, pendingCount := 0 },
            engine := { (arrived s).engine with state := .idle, batch := none, lastBatch := 0, dayAwaited := false,
                                                flights := [], timer := none } }

/-- The entry to CUTOFF by CLOSE and by the alarm (R62, R65): one CUTOFF entry, the control record in CUTOFF, the alarm
disarmed, CUTOFF_REACHED. Refused for space, a CLOSE changes nothing and a firing only disarms the alarm; in a day state other
than OPEN a CLOSE is answered DAY_STATE. -/
def Obligations.CutoffIsEntered : Prop :=
  (∀ (h : Hdr) (s : State), Takes s → s.day.state ≠ .opened →
    exec (.closeDay h) s = .next (answered h .dayState .none (arrived s))) ∧
  ∀ s : State, s.powered = true → s.day.state = .opened →
    let fit := slotsUsed s + (midnightBodies s).length + 1 ≤ 16256
    let entered : CutoffCause → State → Prop := fun c t =>
      Appended (midnightBodies s ++ [.cutoff c]) { s with nv := { s.nv with control := { s.nv.control with
        fields := { s.nv.control.fields with day := some .cutoff } } } } t ∧
      StatusRowsMarked (if c = .request then arrived s else s) t
    (∀ h : Hdr,
      (fit → ∃ t, exec (.closeDay h) s = .next t ∧ entered .request t ∧
        (s.line.outbound.length ≤ 24 → Replied h .accepted .none s t ∧
          Reported 255 (.cutoffReached (businessDate s) .request s.clock.time) s t) ∧
        t = { since (arrived s) t with clock := { s.clock with midnights := 0 }, screens := t.screens,
                                       day := { s.day with state := .cutoff, alarm := none } }) ∧
      (¬fit → exec (.closeDay h) s = .next (answered h .journalFull .none (arrived s)))) ∧
    ∀ sec : Nat, s.day.alarm = some ⟨sec, true⟩ →
      (fit → ∃ t, exec .cutoffAlarmFire s = .next t ∧ entered (.alarm sec) t ∧
        (s.line.state = .online → s.line.outbound.length ≤ 24 →
          Reported 255 (.cutoffReached (businessDate s) (.alarm sec) s.clock.time) s t) ∧
        t = { since s t with clock := { s.clock with midnights := 0 }, screens := t.screens,
                             day := { s.day with state := .cutoff, alarm := none } }) ∧
      (¬fit → exec .cutoffAlarmFire s = .next { s.begin with day := { s.day with alarm := none } })

/-- SET_TIME, SET_CUTOFF and CLEAR_CUTOFF (R60, R61): the clock set, the midnight-pending count kept and the alarm not
tested; the alarm armed after its four checks in order; the alarm disarmed. While RECOVERING a SET_TIME is answered so. -/
def Obligations.ClockAndAlarmRequests : Prop :=
  (∀ (h : Hdr) (n : Nat) (s : State), s.powered = true → s.day.state = .recovering →
    exec (.setTime h n) s = .next (answered h .recovering .none (arrived s)) ∧ (arrived s).clock = s.clock) ∧
  ∀ (h : Hdr) (n : Nat) (s : State), Takes s →
    (n ≤ 86399 → ∃ t, exec (.setTime h n) s = .next t ∧ StatusRowsMarked (arrived s) t ∧
      t = { answered h .accepted .none (arrived s) with clock := ⟨n, true, s.clock.midnights⟩, screens := t.screens }) ∧
    (86399 < n → exec (.setTime h n) s = .next (answered h .malformed .none (arrived s)) ∧
      exec (.setCutoff h n) s = .next (answered h .malformed .none (arrived s))) ∧
    (n ≤ 86399 → s.day.state ≠ .opened → exec (.setCutoff h n) s = .next (answered h .dayState .none (arrived s))) ∧
    (n ≤ 86399 → s.day.state = .opened → s.clock.isSet = false →
      exec (.setCutoff h n) s = .next (answered h .clockUnset .none (arrived s))) ∧
    (n ≤ 86399 → s.day.state = .opened → s.clock.isSet = true → s.day.alarm ≠ none →
      exec (.setCutoff h n) s = .next (answered h .cutoffArmed .none (arrived s))) ∧
    (n ≤ 86399 → s.day.state = .opened → s.clock.isSet = true → s.day.alarm = none →
      exec (.setCutoff h n) s =
        .next { answered h .accepted .none (arrived s) with day := { s.day with alarm := some ⟨n, false⟩ } }) ∧
    exec (.clearCutoff h) s = .next { answered h .accepted .none (arrived s) with day := { s.day with alarm := none } }

/-- CLOCK_ADVANCE (R58, R59, R62): every running timer advances by a second; a set clock counts on, wraps at midnight
with the midnight-pending count held at 255, tests the alarm, and marks the status rows at a new minute. -/
def Obligations.ClockAdvanceCountsSecond : Prop :=
  ∀ s : State, s.powered = true →
    let tick : Option Timer → Option Timer := fun x => x.map fun y => ⟨y.length, y.left - 1⟩
    ∃ t, exec .clockAdvance s = .next t ∧
      t = { s.begin with line := { s.line with timer := tick s.line.timer },
                         engine := { s.engine with timer := tick s.engine.timer },
                         keys := t.keys, printers := t.printers, clock := t.clock, screens := t.screens,
                         day := { s.day with alarm := t.day.alarm } } ∧
      (∀ p, rd t.keys p = { rd s.keys p with timer := tick (rd s.keys p).timer }) ∧
      (∀ n, rd t.printers n = { rd s.printers n with timer := tick (rd s.printers n).timer }) ∧
      (s.clock.isSet = false → t.clock = s.clock ∧ t.screens = s.screens ∧ t.day.alarm = s.day.alarm) ∧
      (s.clock.isSet = true →
        t.clock = (if s.clock.time = 86399 then ⟨0, true, min 255 (s.clock.midnights + 1)⟩
          else ⟨s.clock.time + 1, true, s.clock.midnights⟩) ∧
        t.day.alarm = (s.day.alarm.map fun a => if a.second = t.clock.time then ⟨a.second, true⟩ else a) ∧
        (t.clock.time / 60 = s.clock.time / 60 → t.screens = s.screens) ∧
        (t.clock.time / 60 ≠ s.clock.time / 60 → StatusRowsMarked s t))

/-- CLOSING_CONDITION_TEST (R66, R67, R73, R169): out of CUTOFF, or with a position signed on or a book held, it changes
nothing. When the condition holds the day enters CLOSING: jobs removed, the BACKLOG entries and one CLOSE entry appended, the
entries of the lines BACKLOGGED, the store emptied, the retained store written from the cash lines, DAY_CLOSING raised, and
the day batch started with no batch or a FAILED forward batch, awaited with a forward batch that goes on. What stands in the
retained store after a read-back that differs (assumption 13) and the bytes its CRC is taken over (assumption 8) are the
model's choices. -/
def Obligations.ClosingIsEntered : Prop :=
  ∀ (rb : Option RetainedRec) (s : State), s.powered = true →
    ((s.day.state ≠ .cutoff ∨ (∃ p, (rd s.posns p).state ≠ .signedOff) ∨ ∃ n, (rd s.printers n).holds = true) →
      exec (.closingConditionTest rb) s = .next s.begin) ∧
    (s.day.state = .cutoff → (∀ p, (rd s.posns p).state = .signedOff) → (∀ n, (rd s.printers n).holds = false) →
      slotsUsed s + (backlogs s).length + 2 ≤ 16384 →
      let mid := if slotsUsed s + 1 ≤ 16256 then midnightBodies s else []
      let close := slotsUsed s + mid.length + (backlogs s).length + 1
      let goesOn := ∃ b, s.engine.batch = some b ∧ (b.kind = .day ∨ s.engine.state ≠ .failed)
      ∃ t, exec (.closingConditionTest rb) s = .next t ∧
        t.nv.entries.map (·.body) = (journal s).map (·.body) ++ mid ++
          ((backlogs s).map fun b => .backlog b.1 b.2) ++
          [.close false close (s.nv.control.fields.entryCount + mid.length + (backlogs s).length + 1)] ∧
        Backlogged ((backlogs s).flatMap (·.2)) s t ∧
        t.nv.control.fields = { s.nv.control.fields with
          day := some .closing, slotsUsed := close,
          entryCount := s.nv.control.fields.entryCount + mid.length + (backlogs s).length + 1 } ∧
        LowSpaceTold (mid ++ ((backlogs s).map fun b => .backlog b.1 b.2) ++ [.close false close
          (s.nv.control.fields.entryCount + mid.length + (backlogs s).length + 1)]) s t ∧
        t.jc = { s.jc with lowSpace := t.jc.lowSpace } ∧ RetainedWritten .closing rb s t ∧
        (s.line.state = .online → s.line.outbound.length ≤ 24 → Reported 255 (.dayClosing (businessDate s) close
          (s.nv.control.fields.entryCount + mid.length + (backlogs s).length + 1) (backlogs s).length
          (!t.day.retainedBad)) s t) ∧
        (∀ n, rd t.queues n = []) ∧ (∀ p, 0 ∈ (rd t.screens p).dirty) ∧
        (∀ n, (rd s.printers n).state = .waitBook → rd s.queues n ≠ [] →
          (rd t.printers n).state = .empty ∧ (rd t.printers n).timer = none) ∧
        (∀ b, s.engine.batch = some b → b.kind = .forward → s.engine.state ≠ .failed →
          t.engine = { s.engine with dayAwaited := true }) ∧
        (∀ b, s.engine.batch = some b → b.kind = .day → t.engine = s.engine) ∧
        (goesOn → t.day.completions = s.day.completions) ∧
        (¬goesOn → ∃ rs, (∀ m ∈ rs, ∃ r, m = (⟨255, 0, .report r⟩ : OutMsg)) ∧
          Started .day (s.line.outbound ++ rs) s t) ∧
        t = { since s t with queues := t.queues, printers := t.printers, screens := t.screens, store := [],
                             engine := t.engine,
                             clock := { s.clock with midnights := if mid = [] then s.clock.midnights else 0 },
                             day := { s.day with state := .closing, retainedBad := t.day.retainedBad,
                                                 completions := t.day.completions } })

/-- DAY_BATCH_COMPLETION (R68, R71): a completion of the control record's business date taken in CLOSING or
CLOSED-undelivered makes the day CLOSED-delivered with DAY_CLOSED; one of another date or taken in another day state
changes nothing but that it has been taken, which is the model's choice (assumption 35). -/
def Obligations.CompletionDeliversDay : Prop :=
  ∀ (d : Nat) (rest : List Nat) (s : State), s.powered = true → s.day.completions = d :: rest →
    (d = businessDate s → (s.day.state = .closing ∨ s.day.state = .closed true) →
      ∃ t, exec .dayBatchCompletion s = .next t ∧
        t.nv.control.fields = { s.nv.control.fields with day := some .closed, undelivered := false } ∧
        t.nv.entries = s.nv.entries ∧ t.nv.retained = s.nv.retained ∧ StatusRowsMarked s t ∧ t.jc = s.jc ∧
        t.line.outbound = s.line.outbound ++
          (if s.line.state = .online ∧ s.line.outbound.length < 28 then
            [⟨255, 0, .report (.dayClosed d true (if s.day.state = .closing then false else closeForced s) none)⟩] else []) ∧
        t = { since s t with screens := t.screens,
                             day := { s.day with state := .closed false, completions := rest } }) ∧
    ((d ≠ businessDate s ∨ ¬(s.day.state = .closing ∨ s.day.state = .closed true)) →
      exec .dayBatchCompletion s = .next { s.begin with day := { s.day with completions := rest } })

/-- FORCE_CLOSE (R36, R69, R70, R73): CLOSED answers DAY_STATE. In OPEN, CUTOFF and CLOSING the alarm is disarmed, every
position signed off, every job removed and every held book ejected, the store emptied, any batch abandoned, the retained store
written from the cash lines; the drawers keep their lines. In OPEN and CUTOFF the journal gains a MIDNIGHT when it fits, one
BALANCE ABANDONED for each balance, the BACKLOG entries when the whole request fits, and the forced CLOSE; without that room
the lines are left and their number is reported. What stands in the retained store after a read-back that differs (assumption
13), the bytes its CRC is taken over (assumption 8) and that the engine takes the notice of a return after the request (assumption 58) are the model's choices. -/
def Obligations.ForceCloseEndsDay : Prop :=
  ∀ (h : Hdr) (rb : Option RetainedRec) (s : State), Takes s →
    ((∃ u, s.day.state = .closed u) → exec (.forceClose h rb) s = .next (answered h .dayState .none (arrived s))) ∧
    ((∀ u, s.day.state ≠ .closed u) →
      let ab : List EntryBody := allPos.filterMap fun p => (rd s.drawers p).ctx.map fun c =>
        .abandoned p c.kind c.number .forceClose
      let mid := if slotsUsed s + 1 ≤ 16256 then midnightBodies s else []
      let whole := slotsUsed s + mid.length + ab.length + (backlogs s).length + 1 ≤ 16384
      let bs := if slotsUsed s + mid.length + ab.length + (backlogs s).length + 1 ≤ 16384 then backlogs s else []
      let bodies := mid ++ ab ++ bs.map fun b => .backlog b.1 b.2
      let close := slotsUsed s + bodies.length + 1
      let count := s.nv.control.fields.entryCount + bodies.length + 1
      ∃ t left, exec (.forceClose h rb) s = .next t ∧
        t.day = { s.day with state := .closed true, alarm := none, retainedBad := t.day.retainedBad } ∧
        (∀ p, (rd s.posns p).state ≠ .signedOff →
          rd t.posns p = { leftFor .signedOff (rd s.posns p) with teller := none } ∧ (rd t.drawers p).ctx = none ∧
          (rd t.keys p).queue = [] ∧ (rd t.screens p).form = shownForm s 0) ∧
        (∀ p, (rd s.posns p).state = .signedOff → rd t.posns p = rd s.posns p ∧ rd t.keys p = rd s.keys p) ∧
        (∀ p, (rd t.drawers p).lines = (rd s.drawers p).lines ∧ (rd t.drawers p).captureNo = (rd s.drawers p).captureNo) ∧
        (∀ p, rd t.groups p = none) ∧ (∀ n, rd t.queues n = []) ∧
        (∀ n, rd s.queues n ≠ [] → (rd s.printers n).holds = true →
          (rd t.printers n).state = .ejecting ∧ (rd t.printers n).ejectJob = false) ∧
        (s.day.state = .closing → t.nv.entries = s.nv.entries ∧ left = 0 ∧ t.clock = s.clock ∧ t.jc = s.jc ∧
          t.nv.control.fields = { s.nv.control.fields with day := some .closed, undelivered := true }) ∧
        (s.day.state ≠ .closing →
          t.nv.entries.map (·.body) = (journal s).map (·.body) ++ bodies ++ [.close true close count] ∧
          Backlogged (bs.flatMap (·.2)) s t ∧ t.jc = { s.jc with lowSpace := t.jc.lowSpace } ∧
          LowSpaceTold (bodies ++ [.close true close count]) (arrived s) t ∧
          t.clock = { s.clock with midnights := if mid = [] then s.clock.midnights else 0 } ∧
          t.nv.control.fields = { s.nv.control.fields with day := some .closed, undelivered := true, slotsUsed := close,
                                                           entryCount := count } ∧
          (whole → left = 0) ∧ (¬whole → left = storedLines s)) ∧
        RetainedWritten .forceClose rb (arrived s) t ∧
        (s.line.outbound.length ≤ 24 → Replied h .accepted .none s t ∧
          Reported 255 (.dayClosed (businessDate s) false true (some left)) s t) ∧
        t = { since (arrived s) t with
              day := t.day, posns := t.posns, drawers := t.drawers, keys := t.keys, screens := t.screens,
              groups := t.groups, queues := t.queues, printers := t.printers, store := [], clock := t.clock,
              engine := { (arrived s).engine with state := .idle, batch := none, dayAwaited := false, flights := [],
                                                  timer := none } })

/-- SEND of kind DAY and of kind FORWARD (R71, R170): by day state answered DAY_STATE or passed to the engine, which starts a
batch from IDLE (R161) and offers its blocks, resumes a FAILED batch of the kind under its own number with its outstanding
blocks offered again, and leaves any other as it is. The notices of the line that wait may be taken first (the command's
operand, assumption 47), whatever the answer of a SEND FORWARD. The ack timer starts only with a block outstanding (assumption
21), and a FORWARD batch is complete at once when its extent holds no PENDING entry (assumption 26): the model's readings. A
SEND without a kind the part knows is MALFORMED; a DAY CONTROL with no request it knows is answered
with a status the manual leaves open (assumption 23). -/
def Obligations.SendStartsOrResumesBatch : Prop :=
  ∀ (h : Hdr) (s : State), Takes s →
    let toDay := (s.day.state = .closed true ∧ s.jc.unreadable = false) ∨ s.day.state = .closing
    let toForward := s.day.state = .opened ∨ s.day.state = .cutoff
    let answers : Instr → State → Prop := fun c v => exec c s = .next (answered h .accepted .none v)
    let afterNotices : (Bool → Instr) → Prop := fun c => ∃ v,
      RunsTo ((arrived s).engine.notices.map noticeCommand) (arrived s) v ∧ exec (c true) s = exec (c false) v
    (toDay →
      afterNotices (fun f => .sendDay ⟨h, f⟩) ∧
      (s.engine.batch = none → ∃ v, answers (.sendDay ⟨h, false⟩) v ∧ EngineStep (arrived s) v ∧
        Started .day s.line.outbound (arrived s) v) ∧
      (∀ b, WindowHeld s → s.engine.batch = some b → b.kind = .day → s.engine.state = .failed →
        ∃ v, answers (.sendDay ⟨h, false⟩) v ∧ EngineStep (arrived s) v ∧ v.day = s.day ∧
          Resumed b 0 s.line.outbound (arrived s) v) ∧
      ∀ b, s.engine.batch = some b → (b.kind ≠ .day ∨ s.engine.state ≠ .failed) →
        answers (.sendDay ⟨h, false⟩) (arrived s)) ∧
    (¬toDay → ∀ f, exec (.sendDay ⟨h, f⟩) s = .next (answered h .dayState .none (arrived s))) ∧
    afterNotices (fun f => .sendForward ⟨h, f⟩ .forward) ∧ afterNotices (fun f => .sendForward ⟨h, f⟩ .noKnownKind) ∧
    (toForward →
      (s.engine.batch = none → 0 < s.jc.pendingCount → ∃ v, answers (.sendForward ⟨h, false⟩ .forward) v ∧
        EngineStep (arrived s) v ∧ Started .forward s.line.outbound (arrived s) v) ∧
      (s.engine.batch = none → s.jc.pendingCount = 0 → answers (.sendForward ⟨h, false⟩ .forward) (arrived s)) ∧
      (∀ b, WindowHeld s → s.engine.batch = some b → b.kind = .forward → s.engine.state = .failed →
        ∃ v, answers (.sendForward ⟨h, false⟩ .forward) v ∧ EngineStep (arrived s) v ∧ v.day = s.day ∧
          Resumed b 0 s.line.outbound (arrived s) v) ∧
      ∀ b, s.engine.batch = some b → (b.kind ≠ .forward ∨ s.engine.state ≠ .failed) →
        answers (.sendForward ⟨h, false⟩ .forward) (arrived s)) ∧
    (¬toForward → exec (.sendForward ⟨h, false⟩ .forward) s = .next (answered h .dayState .none (arrived s))) ∧
    exec (.sendForward ⟨h, false⟩ .noKnownKind) s = .next (answered h .malformed .none (arrived s)) ∧
    ∀ f, exec (.sendForward ⟨h, f⟩ .noKnownRequest) s = .next (answered h Config.dayRequestStatus .none (arrived s))

/-! ## Positions -/

/-- SIGN_ON, UNLOCK and FORCE_SIGN_OFF at a position (R82, R84 to R87, R35): signed on with its teller id; released with its
entry in doubt; signed off, a balance abandoned with its entry and ended for its group, an emptied group with the END mark and
GROUP_COMPLETE (its header position, the leader, is the model's reading, assumption 18); refused in every other state, and for
space. A header position outside 0 to 15 is answered BAD_POSITION, and a request the part does not know MALFORMED (R81). -/
def Obligations.PositionRequestsChangeState : Prop :=
  (∀ (h : Hdr) (s : State), Takes s →
    exec (.signOn h .noKnownRequest) s = .next (answered h .malformed .none (arrived s)) ∧
    (16 ≤ h.pos → ∀ c, ((∃ tid, c = .signOn h (.request tid)) ∨ c = .unlock h ∨ c = .forceSignOff h) →
      exec c s = .next (answered h .badPosition .none (arrived s)))) ∧
  ∀ (h : Hdr) (p : Pos) (s : State), Takes s → h.pos = p.val →
    (∀ tid : List (Fin 10), tid.length = 6 → s.day.state = .opened → (rd s.posns p).state = .signedOff →
      ∃ t, exec (.signOn h (.request (some tid))) s = .next t ∧
        rd t.posns p = { rd s.posns p with state := .ready, teller := some tid } ∧ 0 ∈ (rd t.screens p).dirty ∧
        SameButDirty (rd (arrived s).screens p) (rd t.screens p) ∧ OthersKept p (arrived s) t ∧
        t = { answered h .accepted .none (arrived s) with posns := t.posns, screens := t.screens }) ∧
    (∀ tid : Option (List (Fin 10)), (∀ x, tid = some x → x.length ≠ 6) →
      exec (.signOn h (.request tid)) s = .next (answered h .malformed .none (arrived s))) ∧
    (∀ tid : List (Fin 10), tid.length = 6 →
      (s.day.state ≠ .opened →
        exec (.signOn h (.request (some tid))) s = .next (answered h .dayState .none (arrived s))) ∧
      (s.day.state = .opened → (rd s.posns p).state ≠ .signedOff →
        exec (.signOn h (.request (some tid))) s = .next (answered h .positionState .none (arrived s)))) ∧
    ((rd s.posns p).state = .awaiting →
      ∃ t, exec (.unlock h) s = .next t ∧ rd t.posns p = leftFor .ready (rd s.posns p) ∧
        rd t.keys p = { rd s.keys p with timer := none } ∧ 0 ∈ (rd t.screens p).dirty ∧
        SameButDirty (rd (arrived s).screens p) (rd t.screens p) ∧ OthersKept p (arrived s) t ∧
        t = { answered h .accepted .none (arrived s) with posns := t.posns, keys := t.keys, screens := t.screens }) ∧
    ((rd s.posns p).state ≠ .awaiting → exec (.unlock h) s = .next (answered h .positionState .none (arrived s))) ∧
    ((rd s.posns p).state = .signedOff → exec (.forceSignOff h) s = .next (answered h .positionState .none (arrived s))) ∧
    (((rd s.posns p).state = .ready ∨ (rd s.posns p).state = .awaiting) →
      ∃ t, exec (.forceSignOff h) s = .next t ∧ SignedOff p (arrived s) t ∧ OthersKept p (arrived s) t ∧
        t = { answered h .accepted .none (arrived s) with
              posns := t.posns, keys := t.keys, screens := t.screens, drawers := t.drawers }) ∧
    ∀ c : BalCtx, (rd s.posns p).state = .balancing → (rd s.drawers p).ctx = some c →
      (s.day.state = .opened ∨ s.day.state = .cutoff) →
      let ends := groupEndBodies p c.leader true s
      (slotsUsed s + (midnightBodies s).length + 1 + ends.length ≤ 16256 →
        ∃ t, exec (.forceSignOff h) s = .next t ∧
          Appended (midnightBodies s ++ [.abandoned p c.kind c.number .forceSignOff] ++ ends) s t ∧
          SignedOff p (arrived s) t ∧ OthersKept p (arrived s) t ∧ LeftGroup p c.leader true (arrived s) t ∧
          (s.line.outbound.length ≤ 24 → Replied h .accepted .none s t) ∧
          t = { since (arrived s) t with posns := t.posns, keys := t.keys, screens := t.screens, drawers := t.drawers,
                                         groups := t.groups, clock := { s.clock with midnights := 0 } }) ∧
      (16256 < slotsUsed s + (midnightBodies s).length + 1 + ends.length →
        exec (.forceSignOff h) s = .next (answered h .journalFull .none (arrived s)))

/-! ## Keys and fields -/

/-- KEY_TOKEN (R109): a token joins the tail of a queue of fewer than 16; with 16 waiting it is dropped with a TONE.
ENTRY_TIMER_EXPIRY (R118): an AWAITING position becomes READY with its entry in doubt and the notice NO REPLY; in any
other state the timer alone stops. The expiry at count 0 and the text are the model's choices (assumptions 3 and 9). -/
def Obligations.TokensQueueAndTimerReleases : Prop :=
  ∀ (p : Pos) (s : State), s.powered = true →
    (∀ k : Token,
      ((rd s.keys p).queue.length < 16 → ∃ t, exec (.keyToken p k) s = .next t ∧ EditorOnly p s t ∧ t.out = [] ∧
        rd t.keys p = { rd s.keys p with queue := (rd s.keys p).queue ++ [k] } ∧ rd t.screens p = rd s.screens p) ∧
      (16 ≤ (rd s.keys p).queue.length →
        exec (.keyToken p k) s = .next { s.begin with out := toneOut s p })) ∧
    ∀ n : Nat, (rd s.keys p).timer = some ⟨n, 0⟩ →
      ((rd s.posns p).state = .awaiting → ∃ t, exec (.entryTimerExpiry p) s = .next t ∧
        rd t.posns p = leftFor .ready (rd s.posns p) ∧ rd t.keys p = { rd s.keys p with timer := none } ∧
        0 ∈ (rd t.screens p).dirty ∧ SameButDirty (rd t.screens p) (Screen.partNotice textNoReply (rd s.screens p)) ∧
        OthersKept p s t ∧ t = { s.begin with posns := t.posns, keys := t.keys, screens := t.screens }) ∧
      ((rd s.posns p).state ≠ .awaiting → ∃ t, exec (.entryTimerExpiry p) s = .next t ∧ EditorOnly p s t ∧ t.out = [] ∧
        rd t.keys p = { rd s.keys p with timer := none } ∧ rd t.screens p = rd s.screens p)

/-- The take of tokens and the editing tokens on a field (R110, R112 to R115). Tokens wait in AWAITING and in BALANCING on a form
other than 1; in SIGNED_OFF a token is discarded with a TONE unless form 0 is shown and R110 lets it act. FIELD NEXT and FIELD BACK move to the next and previous unprotected
field; a character overwrites TEXT at the text position and joins NUMERIC digits on the right; BACKSPACE, ERASE FIELD and
CLEAR take back; what a rule refuses sounds a TONE and changes nothing, and so does every one of them but CLEAR with no
cursor field, and CLEAR with no current form. That a value set to what the field already holds marks its row too is the model's
choice (assumption 55). That a field's cells keep the attribute and the protected flag a PAINT left in them when CLEAR writes
them (`PresetsBack`) is its reading (assumption 10). -/
def Obligations.EditorEditsCursorField : Prop :=
  (∀ (p : Pos) (k : Token) (rest : List Token) (s : State), s.powered = true → (rd s.keys p).queue = k :: rest →
    (((rd s.posns p).state = .awaiting ∨ ((rd s.posns p).state = .balancing ∧ (rd s.screens p).form ≠ some 1)) →
      exec (takeOf p k) s = .next s.begin) ∧
    ((rd s.posns p).state = .signedOff → ((rd s.screens p).form ≠ some 0 ∨ actsAtSignOn k = false) →
      ∃ t, exec (takeOf p k) s = .next t ∧ Refused p rest s t)) ∧
  (∀ (p : Pos) (n : Fin 32) (d : FormDesc) (rest : List Token) (s : State), s.powered = true →
    (rd s.screens p).form = some n → rd s.tables.forms n = some d → (rd s.keys p).queue = .clear :: rest → Acts s p .clear →
    (rd s.keys p).values.length = d.fields.length →
    ∃ t, exec (.clear p) s = .next t ∧ EditorOnly p s t ∧ t.out = [] ∧
      PresetsBack n d (rd s.screens p).area (rd t.screens p).area ∧ (∀ f ∈ d.fields, f.row ∈ (rd t.screens p).dirty) ∧
      ((∀ i, ¬Unprotected d.fields i) → (rd t.screens p).cursor = (rd s.screens p).cursor ∧
        rd t.keys p = { rd s.keys p with queue := rest, values := d.fields.map presetValue })) ∧
  (∀ (p : Pos) (rest : List Token) (s : State), s.powered = true →
    ((rd s.keys p).cursorField = none →
      ((rd s.keys p).queue = .fieldNext :: rest → Acts s p .fieldNext → ∃ t, exec (.fieldNext p) s = .next t ∧ Refused p rest s t) ∧
      ((rd s.keys p).queue = .fieldBack :: rest → Acts s p .fieldBack → ∃ t, exec (.fieldBack p) s = .next t ∧ Refused p rest s t) ∧
      (∀ b, (rd s.keys p).queue = .character b :: rest → Acts s p (.character b) →
        ∃ t, exec (.character p) s = .next t ∧ Refused p rest s t) ∧
      ((rd s.keys p).queue = .backspace :: rest → Acts s p .backspace → ∃ t, exec (.backspace p) s = .next t ∧ Refused p rest s t) ∧
      ((rd s.keys p).queue = .eraseField :: rest → Acts s p .eraseField →
        ∃ t, exec (.eraseField p) s = .next t ∧ Refused p rest s t)) ∧
    ((rd s.screens p).form = none → (rd s.keys p).queue = .clear :: rest → Acts s p .clear →
      ∃ t, exec (.clear p) s = .next t ∧ Refused p rest s t)) ∧
  ∀ (p : Pos) (i : Nat) (d : FieldDesc) (rest : List Token) (s : State), s.powered = true →
    (rd s.keys p).cursorField = some i → (currentFields s p)[i]? = some d → d.prot = false →
    let k := rd s.keys p
    let v := fieldValue s p i
    (k.queue = .fieldNext :: rest → Acts s p .fieldNext → ∃ t j, exec (.fieldNext p) s = .next t ∧ EditorOnly p s t ∧
      NextUnprotected (currentFields s p) i j ∧ t.out = [] ∧
      rd t.keys p = { k with queue := rest, cursorField := some j, textPos := 0 }) ∧
    (k.queue = .fieldBack :: rest → Acts s p .fieldBack → ∃ t j, exec (.fieldBack p) s = .next t ∧ EditorOnly p s t ∧
      PreviousUnprotected (currentFields s p) i j ∧ t.out = [] ∧
      rd t.keys p = { k with queue := rest, cursorField := some j, textPos := 0 }) ∧
    (∀ b : Byte, k.queue = .character b :: rest → Acts s p (.character b) →
      (d.kind = .text → 0x20 ≤ b.toNat → b.toNat ≤ 0x7E → ∃ t j, exec (.character p) s = .next t ∧ EditorOnly p s t ∧
        d.row ∈ (rd t.screens p).dirty ∧ t.out = [] ∧
        (k.textPos + 1 < d.length → rd t.keys p = { k with
          queue := rest, values := k.values.set i (v.set k.textPos b), textPos := k.textPos + 1 }) ∧
        (d.length ≤ k.textPos + 1 → NextUnprotected (currentFields s p) i j ∧ rd t.keys p = { k with
          queue := rest, values := k.values.set i (v.set k.textPos b), cursorField := some j, textPos := 0 })) ∧
      (d.kind = .text → (b.toNat < 0x20 ∨ 0x7E < b.toNat) → ∃ t, exec (.character p) s = .next t ∧ Refused p rest s t) ∧
      (d.kind = .numeric → 0x30 ≤ b.toNat → b.toNat ≤ 0x39 → v.length < d.length →
        ∃ t, exec (.character p) s = .next t ∧ EditorOnly p s t ∧ d.row ∈ (rd t.screens p).dirty ∧ t.out = [] ∧
          rd t.keys p = { k with queue := rest, values := k.values.set i (v ++ [b]) }) ∧
      (d.kind = .numeric → (b.toNat < 0x30 ∨ 0x39 < b.toNat ∨ d.length ≤ v.length) →
        ∃ t, exec (.character p) s = .next t ∧ Refused p rest s t)) ∧
    (k.queue = .backspace :: rest → Acts s p .backspace →
      (d.kind = .text → 0 < k.textPos → ∃ t, exec (.backspace p) s = .next t ∧ EditorOnly p s t ∧ t.out = [] ∧
        rd t.keys p = { k with queue := rest, values := k.values.set i (v.set (k.textPos - 1) 0x20),
                               textPos := k.textPos - 1 }) ∧
      (d.kind = .numeric → v ≠ [] → ∃ t, exec (.backspace p) s = .next t ∧ EditorOnly p s t ∧ t.out = [] ∧
        rd t.keys p = { k with queue := rest, values := k.values.set i v.dropLast }) ∧
      ((d.kind = .text ∧ k.textPos = 0) ∨ (d.kind = .numeric ∧ v = []) →
        ∃ t, exec (.backspace p) s = .next t ∧ Refused p rest s t)) ∧
    (k.queue = .eraseField :: rest → Acts s p .eraseField →
      ∃ t, exec (.eraseField p) s = .next t ∧ EditorOnly p s t ∧ t.out = [] ∧ d.row ∈ (rd t.screens p).dirty ∧
        rd t.keys p = { k with queue := rest, textPos := (if d.kind = .text then 0 else k.textPos),
                               values := k.values.set i (if d.kind = .text then List.replicate d.length 0x20 else []) }) ∧
    (k.queue = .clear :: rest → Acts s p .clear → k.values.length = (currentFields s p).length →
      ∃ t j, exec (.clear p) s = .next t ∧ EditorOnly p s t ∧ t.out = [] ∧
        Unprotected (currentFields s p) j ∧ (∀ m, m < j → ¬Unprotected (currentFields s p) m) ∧
        rd t.keys p = { k with queue := rest, values := (currentFields s p).map presetValue, cursorField := some j,
                               textPos := 0 })

/-- TRANSMIT (R116, R117, R83, R119, R155, R156). With no form, or of form 1 from READY, a TONE alone; an unfilled mandatory field
sends the cursor there with a TONE; from SIGNED_OFF in STAND_IN the notice TELLER_STATE and a TONE. ONLINE from READY the ENTRY
is queued, the position AWAITING with it outstanding and its timer started; from SIGNED_OFF a sign-on ENTRY; with the queue
full nothing is sent. In STAND_IN the attempt takes an entry number and is refused by the first check that fails, of the form,
the posting map, Table 1-1 and Table 10-1 in that order, with the notice of its status, a TONE, and the cursor in the field the
status concerns (at text position 0, the model's choice, assumption 49). One that passes is journaled PENDING and applied, its
passbook line offered, V counted, the notice ACCEPTED shown and the form cleared. The texts of notices are the model's
(assumption 9), and so is that clearing marks a row whose value does not change (assumption 55); that clearing keeps the
attributes and protected flags of the cells (`PresetsBack`) is its reading (assumption 10). ATTENTION (R122) raises its report. -/
def Obligations.TransmitSendsOrStandsIn : Prop :=
  (∀ (p : Pos) (rest : List Token) (s : State), s.powered = true → (rd s.keys p).queue = .transmit :: rest →
    Acts s p .transmit →
    ((rd s.screens p).form = none → ∃ t, exec (.transmit p) s = .next t ∧ Refused p rest s t) ∧
    ∀ (n : Fin 32) (d : FormDesc), (rd s.screens p).form = some n → rd s.tables.forms n = some d →
      let unfilled : Nat → FieldDesc → Prop := fun i f =>
        d.fields[i]? = some f ∧ f.mandatory = true ∧ isFilled f (fieldValue s p i) = false
      (∀ i f, unfilled i f → (∀ j g, j < i → ¬unfilled j g) →
        ∃ t, exec (.transmit p) s = .next t ∧ RefusedWith p rest none (some (i, f)) s t) ∧
      ((∀ i f, ¬unfilled i f) → (rd s.posns p).state = .ready → n = 1 →
        ∃ t, exec (.transmit p) s = .next t ∧ Refused p rest s t) ∧
      ((∀ i f, ¬unfilled i f) → (rd s.posns p).state = .signedOff → s.line.state = .standIn →
        ∃ t, exec (.transmit p) s = .next t ∧ RefusedWith p rest (some (Status.name .tellerState)) none s t)) ∧
  ∀ (p : Pos) (rest : List Token) (s : State), s.powered = true →
    (∀ (n : Fin 32) (d : FormDesc), (rd s.keys p).queue = .transmit :: rest → (rd s.screens p).form = some n →
      rd s.tables.forms n = some d →
      (∀ i, ∀ f : FieldDesc, d.fields[i]? = some f → f.mandatory = true → isFilled f (fieldValue s p i) = true) →
      let entry : OutMsg := ⟨p.val, 0, .entry p (rd s.posns p).entryNo n (sentFields s p d)⟩
      let next := ((rd s.posns p).entryNo + 1) % 4096
      ((rd s.posns p).state = .ready → n ≠ 1 → s.line.state = .online → s.line.outbound.length < 28 →
        ∃ t, exec (.transmit p) s = .next t ∧ OthersKept p s t ∧
          rd t.posns p = { rd s.posns p with
            state := .awaiting, outstanding := some (rd s.posns p).entryNo, entryNo := next } ∧
          (rd t.keys p).timer = some ⟨s.tables.params.entryTimer, s.tables.params.entryTimer⟩ ∧
          (rd t.keys p).queue = rest ∧ (rd t.keys p).values = (rd s.keys p).values ∧ 0 ∈ (rd t.screens p).dirty ∧
          t = { s.begin with posns := t.posns, keys := t.keys, screens := t.screens,
                             line := { s.line with outbound := s.line.outbound ++ [entry] } }) ∧
      ((rd s.posns p).state = .signedOff → n = 0 → s.line.state = .online → s.line.outbound.length < 28 →
        ∃ t, exec (.transmit p) s = .next t ∧ OthersKept p s t ∧
          rd t.posns p = { rd s.posns p with entryNo := next } ∧
          rd t.keys p = { rd s.keys p with queue := rest } ∧ t.screens = s.screens ∧
          t = { s.begin with posns := t.posns, keys := t.keys,
                             line := { s.line with outbound := s.line.outbound ++ [entry] } }) ∧
      (((rd s.posns p).state = .ready ∧ n ≠ 1 ∨ (rd s.posns p).state = .signedOff ∧ n = 0) → s.line.state = .online →
        28 ≤ s.line.outbound.length →
        ∃ t, exec (.transmit p) s = .next t ∧ EditorOnly p s t ∧ t.out = [] ∧
          rd t.keys p = { rd s.keys p with queue := rest } ∧
          rd t.screens p = Screen.partNotice textLineBusy (rd s.screens p)) ∧
      ((rd s.posns p).state = .ready → n ≠ 1 → s.line.state = .standIn →
        (∀ st, (d.standIn = false ∧ st = .formNotStandin ∨
            d.standIn = true ∧ (standInRequest s p d = .error st ∨
              ∃ req, standInRequest s p d = .ok req ∧ (FirstFails (postingChecks req s) st ∨
                ∃ pl, checkPosting req s = .ok pl ∧ FirstFails (standInChecks p d req pl s) st))) →
          standInCheck s p d = .error st ∧
          ∃ t, exec (.transmit p) s = .next t ∧ RefusedWith p rest (some st.name)
            ((refusalRole st).bind (roleField d) |>.bind fun i => d.fields[i]?.map fun f => (i, f))
            { s with posns := wr s.posns p { rd s.posns p with entryNo := next } } t) ∧
        ∀ req pl, standInCheck s p d = .ok (req, pl) →
          let old := rd s.screens p
          let cleared := firstUnprotected d.fields
          ∃ t e r, exec (.transmit p) s = .next t ∧ slotsUsed t ≤ 16128 ∧
            let shows : PrintState → Prop := fun x => ∀ e', entryAt e.seq t = some e' → e'.print = x
            Appended (midnightBodies s ++ [.posting r]) { s with jc := { s.jc with pendingCount := s.jc.pendingCount + 1 } } t ∧
            (t.nv.entries.getLast? = some e ∧ e.body = .posting r ∧ e.fwd = .pending ∧
              e.seq = s.nv.control.fields.entryCount + (midnightBodies s).length + 1 ∧ e.time = s.clock.time) ∧
            (r.origin = .standIn ∧ r.late = false ∧ r.pos = p ∧ r.code = req.code ∧ r.slot.val = req.slot ∧
              r.amount = req.amount ∧ r.cls = pl.code.cls ∧ r.direction = pl.code.direction ∧ r.value = pl.value ∧
              r.account = req.account ∧ r.entryRef = none ∧ r.balance = none ∧ r.book = none ∧ r.legs = pl.legs) ∧
            ((pl.code.passbook = false ∨ req.account = none) → r.yielded = none) ∧
            (pl.code.passbook = true → req.account ≠ none → r.yielded = some (if r.cls = .nonCash then
                ⟨pl.code.name, if r.direction = some .decrease then -(r.value : Int) else r.value, localExponent s⟩
              else ⟨pl.code.name, if r.cls = .cashOut then -(r.amount : Int) else r.amount, pl.exponent⟩)) ∧
            (r.yielded = none → t.store = s.store ∧ t.queues = s.queues ∧ t.printers = s.printers ∧
              (rd t.screens p).prompts = old.prompts ∧ (rd t.screens p).noPrinter = old.noPrinter ∧ shows .none) ∧
            (∀ a x, req.account = some a → r.yielded = some x →
              (StoreHasRoom a s → accountLines a t = accountLines a s ++
                  [⟨businessDate s, x.name, x.amount, x.exponent, none, true, none, e.seq⟩] ∧
                (∀ y, y ≠ a → accountLines y t = accountLines y s) ∧ shows .stored ∧
                (findAccount a t).bind (·.bookType) = (findAccount a s).bind (·.bookType) ∧
                (jobMarked a s = true → jobMarked a t = true ∧ t.queues = s.queues ∧ t.printers = s.printers) ∧
                (jobMarked a s = false → JobAttempted p a s t)) ∧
              (¬StoreHasRoom a s → t.store = s.store ∧ t.queues = s.queues ∧ t.printers = s.printers ∧
                shows .overflow)) ∧
            t.drawers = (applyLegs pl.legs s).drawers ∧
            rd t.posns p = { rd s.posns p with entryNo := next, usage := (rd s.posns p).usage + pl.value } ∧
            (∀ q, q ≠ p → rd t.posns q = rd s.posns q ∧ rd t.keys q = rd s.keys q ∧ rd t.screens q = rd s.screens q) ∧
            (let new := rd t.screens p
              let shown := Screen.partNotice (Status.name .accepted ++ [0x20] ++ decimal 1 e.seq) old
              new.ring = shown.ring ∧ new.newest = shown.newest ∧ new.column = shown.column ∧ new.review = shown.review ∧
              new.form = old.form ∧ new.present = old.present ∧ new.inFlight = old.inFlight ∧
              PresetsBack n d old.area new.area ∧ (∀ f ∈ d.fields, f.row ∈ new.dirty) ∧ (∀ r ∈ shown.dirty, r ∈ new.dirty)) ∧
            (rd t.keys p).queue = rest ∧ (rd t.keys p).timer = (rd s.keys p).timer ∧
            ((rd s.keys p).values.length = d.fields.length → (rd t.keys p).values = d.fields.map presetValue) ∧
            (∀ i, cleared = some i → (rd t.keys p).cursorField = some i ∧ (rd t.keys p).textPos = 0) ∧
            (cleared = none → (rd t.keys p).cursorField = (rd s.keys p).cursorField ∧
              (rd t.keys p).textPos = (rd s.keys p).textPos) ∧
            t.out = [] ∧ t.line = s.line ∧
            t = { since s t with posns := t.posns, keys := t.keys, screens := t.screens, drawers := t.drawers,
                                 store := t.store, queues := t.queues, printers := t.printers,
                                 clock := { s.clock with midnights := 0 } })) ∧
    ((rd s.keys p).queue = .attention :: rest → Acts s p .attention →
      ∃ t, exec (.attention p) s = .next t ∧ EditorOnly p s { t with line := s.line } ∧ t.out = [] ∧
        rd t.keys p = { rd s.keys p with queue := rest } ∧ rd t.screens p = rd s.screens p ∧
        t.line = { s.line with outbound := s.line.outbound ++
          (if s.line.state = .online ∧ s.line.outbound.length < 28 then
            [⟨p.val, 0, .report (.attention p (rd s.posns p).teller (rd s.screens p).form (rd s.posns p).inDoubt
              s.clock.time)⟩] else []) })

/-! ## Passbook keys and printers -/

/-- PRINT_BOOK and CANCEL_BOOK of the account in the ACCOUNT field, its value with every blank removed (R121, R129, R130,
R146): a job attempted on the home or the alternate printer while the day is OPEN or CUTOFF, the notice NOTHING TO PRINT, or
no change when a job exists; a job no printer has begun removed without a report, the book of one that waits no longer waited
for, one that is read, printed or put out ended by its printer, and NO JOB with a TONE for none; a value that is not 1 to 19
digits is refused. The texts of notices are the model's (assumption 9), and that PRINT_RESULT's header names the owner is its
reading (assumption 18); the form is one that the content checks of R95 pass, as the model reads them (assumption 24). -/
def Obligations.BookKeysPlaceAndCancelJobs : Prop :=
  (∀ (p : Pos) (n : Fin 32) (d : FormDesc) (i : Nat) (f : FieldDesc) (s : State), (rd s.screens p).form = some n →
    rd s.tables.forms n = some d → formOk n.val d = true → d.fields[i]? = some f → f.role = .account →
    let v := (fieldValue s p i).filter fun b => b != 0x20
    let number := 1 ≤ v.length ∧ v.length ≤ 19 ∧ ∀ b ∈ v, 0x30 ≤ b.toNat ∧ b.toNat ≤ 0x39
    (number → keyAccount s p = some (v.map fun b => Fin.ofNat 10 (b.toNat - 0x30))) ∧
    (¬number → keyAccount s p = none)) ∧
  (∀ (p : Pos) (rest : List Token) (s : State), s.powered = true → keyAccount s p = none →
    ((rd s.keys p).queue = .printBook :: rest → Acts s p .printBook →
      ∃ t, exec (.printBook p) s = .next t ∧ Refused p rest s t) ∧
    ((rd s.keys p).queue = .cancelBook :: rest → Acts s p .cancelBook →
      ∃ t, exec (.cancelBook p) s = .next t ∧ Refused p rest s t)) ∧
  ∀ (p : Pos) (a : Account) (rest : List Token) (s : State), s.powered = true → keyAccount s p = some a →
    ((rd s.keys p).queue = .printBook :: rest → Acts s p .printBook →
      ((jobMarked a s = true ∨ (accountLines a s ≠ [] ∧ s.day.state ≠ .opened ∧ s.day.state ≠ .cutoff)) →
        ∃ t, exec (.printBook p) s = .next t ∧ EditorOnly p s t ∧ t.out = [] ∧
          rd t.keys p = { rd s.keys p with queue := rest } ∧ rd t.screens p = rd s.screens p) ∧
      (jobMarked a s = false → accountLines a s = [] → ∃ t, exec (.printBook p) s = .next t ∧ EditorOnly p s t ∧
        t.out = [] ∧ rd t.keys p = { rd s.keys p with queue := rest } ∧
        rd t.screens p = Screen.partNotice textNothingToPrint (rd s.screens p)) ∧
      (jobMarked a s = false → accountLines a s ≠ [] → (s.day.state = .opened ∨ s.day.state = .cutoff) →
        ∃ t, exec (.printBook p) s = .next t ∧ JobAttempted p a s t ∧ (∀ x, accountLines x t = accountLines x s) ∧
          rd t.keys p = { rd s.keys p with queue := rest } ∧ OthersKept p s t ∧ t.out = [] ∧
          t = { s.begin with keys := t.keys, screens := t.screens, queues := t.queues, printers := t.printers,
                             store := t.store })) ∧
    ((rd s.keys p).queue = .cancelBook :: rest → Acts s p .cancelBook →
      ((∀ n, (⟨a, p⟩ : Job) ∉ rd s.queues n) → ∃ t, exec (.cancelBook p) s = .next t ∧ EditorOnly p s t ∧
        rd t.keys p = { rd s.keys p with queue := rest } ∧ t.out = toneOut s p ∧
        rd t.screens p = Screen.partNotice textNoJob (rd s.screens p)) ∧
      ∀ (n : Prn) (j : Job) (js : List Job), rd s.queues n = j :: js → (∀ m, m ≠ n → (⟨a, p⟩ : Job) ∉ rd s.queues m) →
        (j.account ≠ a → (⟨a, p⟩ : Job) ∈ js →
          ∃ t, exec (.cancelBook p) s = .next t ∧ rd t.queues n = (j :: js).filter (fun x => x.account != a) ∧
            (∀ m, m ≠ n → rd t.queues m = rd s.queues m) ∧ jobMarked a t = false ∧
            t = { s.begin with keys := t.keys, queues := t.queues, store := t.store }) ∧
        (j = ⟨a, p⟩ → ((rd s.printers n).state = .held ∨ (rd s.printers n).state = .printing) →
          ∃ t, exec (.cancelBook p) s = .next t ∧ (rd t.printers n) = { rd s.printers n with
              job := { (rd s.printers n).job with cancelPending := true } } ∧
            OtherPrintersKept n s t ∧ t = { s.begin with keys := t.keys, printers := t.printers }) ∧
        (j = ⟨a, p⟩ → (rd s.printers n).state = .reading →
          ∃ t, exec (.cancelBook p) s = .next t ∧ (rd t.printers n) = { rd s.printers n with
              state := .ejecting, timer := some ⟨10, 10⟩, ejectJob := true, reason := some .cancelled } ∧
            OtherPrintersKept n s t ∧ t.out = [.printer n .eject] ∧
            t = { s.begin with keys := t.keys, printers := t.printers, out := t.out }) ∧
        (j = ⟨a, p⟩ → ((rd s.printers n).state = .writingStripe ∨
            ((rd s.printers n).state = .ejecting ∧ (rd s.printers n).ejectJob = true)) →
          ∃ t, exec (.cancelBook p) s = .next t ∧ (rd t.printers n) = { rd s.printers n with
              reason := (rd s.printers n).reason.map fun w => if w = .complete ∨ w = .bookFull then w else .cancelled } ∧
            OtherPrintersKept n s t ∧ t = { s.begin with keys := t.keys, printers := t.printers }) ∧
        (j = ⟨a, p⟩ → ((rd s.printers n).state = .homing ∨
            ((rd s.printers n).state = .ejecting ∧ (rd s.printers n).ejectJob = false) ∨
            ((rd s.printers n).state = .empty ∧ js.filter (fun x => x.account != a) = [])) →
          ∃ t, exec (.cancelBook p) s = .next t ∧ rd t.queues n = js.filter (fun x => x.account != a) ∧
            jobMarked a t = false ∧ rd t.printers n = { rd s.printers n with job := JobRec.initial } ∧
            OtherPrintersKept n s t ∧
            t = { s.begin with keys := t.keys, printers := t.printers, queues := t.queues, store := t.store }) ∧
        (j = ⟨a, p⟩ → (rd s.printers n).state = .waitBook →
          ∃ t, exec (.cancelBook p) s = .next t ∧ rd t.queues n = js ∧ jobMarked a t = false ∧ t.out = [] ∧
            (js = [] → (rd t.printers n).state = .empty ∧ (rd t.printers n).timer = none ∧
              ∀ q, rd (rd t.screens q).prompts n = none) ∧
            (∀ q qs, js = q :: qs → (rd t.printers n).state = .waitBook ∧
              rd (rd t.screens q.owner).prompts n = some .insertBook) ∧
            t.line.outbound = s.line.outbound ++ (if s.line.state = .online ∧ s.line.outbound.length < 28 then
              [⟨p.val, 0, .report (.printResult n a p (.ended .cancelled) (rd s.printers n).job.life)⟩] else []) ∧
            OtherPrintersKept n s t ∧
            t = { since s t with keys := t.keys, printers := t.printers, queues := t.queues, screens := t.screens,
                                 store := t.store, nv := s.nv, jc := s.jc }))

/-- A printer brought up and given a book (R138, R139): READY sends HOME and starts the home timer, after a fault when
the printer was up; HOME_DONE makes it EMPTY with PRINTER_STATE, or WAIT_BOOK with the prompt when a job waits; BOOK_IN
sends READ STRIPE in WAIT_BOOK, returns the book in EMPTY and is ignored elsewhere. That PRINTER_STATE's header position is
255 and PRINT_RESULT's the owner is the model's reading (assumption 18), and that no reason is left outside an eject for a job
its choice (assumption 51). A HOME_DONE in another state is ignored. -/
def Obligations.PrinterComesUpAndTakesBook : Prop :=
  ∀ (n : Prn) (s : State), s.powered = true →
    let r := rd s.printers n
    ((r.state = .offline ∨ r.state = .homing) → ∃ t, exec (.ready n) s = .next t ∧ PrinterOnly n s t ∧
      t.out = [.printer n .home] ∧
      rd t.printers n = { r with state := .homing, timer := some ⟨15, 15⟩, ejectJob := false, reason := none }) ∧
    (r.state ≠ .offline → r.state ≠ .homing → ∃ t v, exec (.ready n) s = .next t ∧ WentDown n .restarted s v ∧
      t = { v with out := [.printer n .home],
                   printers := wr v.printers n { rd v.printers n with state := .homing, timer := some ⟨15, 15⟩ } }) ∧
    (r.state ≠ .homing → exec (.homeDone n) s = .next s.begin) ∧
    (r.state = .homing → ∃ t, exec (.homeDone n) s = .next t ∧ t.out = [] ∧
      t.line.outbound = s.line.outbound ++ (if s.line.state = .online ∧ s.line.outbound.length < 28 then
        [⟨255, 0, .report (.printerState n .empty none (rd s.queues n).length)⟩] else []) ∧
      t.queues = s.queues ∧ (∀ m, m ≠ n → rd t.printers m = rd s.printers m) ∧
      (rd s.queues n = [] → t.screens = s.screens ∧
        rd t.printers n = { r with state := .empty, timer := none, ejectJob := false, reason := none }) ∧
      (∀ j js, rd s.queues n = j :: js → rd (rd t.screens j.owner).prompts n = some .insertBook ∧
        rd t.printers n = { r with state := .waitBook, ejectJob := false, reason := none,
                                   timer := some ⟨s.tables.params.bookWait, s.tables.params.bookWait⟩ }) ∧
      t = { since s t with printers := t.printers, screens := t.screens, nv := s.nv, jc := s.jc }) ∧
    (r.state = .waitBook → ∃ t, exec (.bookIn n) s = .next t ∧ t.out = [.printer n .readStripe] ∧
      rd t.printers n = { r with state := .reading, timer := some ⟨5, 5⟩ } ∧ OtherPrintersKept n s t ∧
      (∀ p, rd (rd t.screens p).prompts n = none) ∧
      t = { s.begin with printers := t.printers, screens := t.screens, out := t.out }) ∧
    (r.state = .empty → ∃ t, exec (.bookIn n) s = .next t ∧ PrinterOnly n s t ∧ t.out = [.printer n .eject] ∧
      rd t.printers n = { r with state := .ejecting, timer := some ⟨10, 10⟩, ejectJob := false, reason := none }) ∧
    (r.state ≠ .waitBook → r.state ≠ .empty → exec (.bookIn n) s = .next s.begin)

/-- STRIPE_DATA and STRIPE_FAIL in READING (R140): the wrong book, the full book, the book accepted at the position its
stripe gives, and the unreadable stripe; with the attempts counted and the book type recorded. That a full book records no type
is the model's choice (assumption 56). STRIPE_DATA with a field outside its range is taken as a STRIPE_FAIL (R136), and both are
ignored in any other state (R144). -/
def Obligations.StripeIsJudged : Prop :=
  (∀ (n : Prn) (d : StripeData) (s : State), s.powered = true →
    ((3 < d.bookType ∨ d.page = 0 ∨ d.line = 0 ∨ d.account = [] ∨ 19 < d.account.length) →
      exec (.stripeData n d) s = exec (.stripeFail n) s) ∧
    ((rd s.printers n).state ≠ .reading →
      exec (.stripeData n d) s = .next s.begin ∧ exec (.stripeFail n) s = .next s.begin)) ∧
  ∀ (n : Prn) (j : Job) (js : List Job) (a : AccountRec) (s : State), s.powered = true →
    (rd s.printers n).state = .reading → rd s.queues n = j :: js → findAccount j.account s = some a →
    let r := rd s.printers n
    let out : Reason → Nat → Printer := fun w tries =>
      { r with state := .ejecting, timer := some ⟨10, 10⟩, ejectJob := true, reason := some w,
               job := { r.job with attempts := tries } }
    (∃ t, exec (.stripeFail n) s = .next t ∧ PrinterOnly n s t ∧ t.out = [.printer n .eject] ∧
      rd t.printers n = out .unreadable (r.job.attempts + 1)) ∧
    ∀ (d : StripeData) (k : Fin 4), d.bookType = k.val → 1 ≤ d.page → 1 ≤ d.line → accountOk d.account = true →
      let y := layoutOf s k
      let wrong := d.account ≠ j.account ∨ ∃ b, a.bookType = some b ∧ b ≠ k.val
      let full := y.pages < d.page ∨ (y.linesPerPage < d.line ∧ y.pages < d.page + 1)
      let at_ := if y.linesPerPage < d.line then (d.page + 1, 1) else (d.page, d.line)
      (wrong → ∃ t, exec (.stripeData n d) s = .next t ∧ PrinterOnly n s t ∧ t.out = [.printer n .eject] ∧
        rd t.printers n = out .wrongBook (r.job.attempts + 1)) ∧
      (¬wrong → full → ∃ t, exec (.stripeData n d) s = .next t ∧ PrinterOnly n s t ∧ t.out = [.printer n .eject] ∧
        rd t.printers n = out .bookFull r.job.attempts) ∧
      (¬wrong → ¬full → ∃ t m, exec (.stripeData n d) s = .next t ∧ OtherPrintersKept n s t ∧ t.out = [] ∧
        rd t.printers n = { r with state := .held, timer := none, layoutType := k, openPage := at_.1, nextPage := at_.1,
                                   nextLine := at_.2, job := { r.job with attempts := 0, mismatch := m } } ∧
        (m = true ↔ r.job.mismatch = true ∨ ∃ l e, a.lines.head? = some l ∧ l.expected = some e ∧ e ≠ at_) ∧
        (findAccount j.account t).bind (·.bookType) = some k.val ∧ (∀ x, accountLines x t = accountLines x s) ∧
        t = { s.begin with printers := t.printers, store := t.store })

/-- PRINTER_DECISION in HELD and LINE_DONE in PRINTING (R141, R142): the head line sent to the page it belongs on, or
the stripe written with the reason the list and the page give; a line done leaves the store as PRINTED, is counted, and
moves the next position on. LINE_DONE in another state is ignored (R144), and so is a
PRINTER_DECISION outside HELD, the model's choice (assumption 2). -/
def Obligations.PrinterDecidesAndPrints : Prop :=
  (∀ (n : Prn) (s : State), s.powered = true →
    ((rd s.printers n).state ≠ .held → exec (.printerDecision n) s = .next s.begin) ∧
    ((rd s.printers n).state ≠ .printing → exec (.lineDone n) s = .next s.begin)) ∧
  ∀ (n : Prn) (j : Job) (js : List Job) (s : State), s.powered = true → rd s.queues n = j :: js →
    let r := rd s.printers n
    let y := layoutOf s r.layoutType
    let stripe : Reason → Printer := fun w => { r with state := .writingStripe, timer := some ⟨5, 5⟩, reason := some w }
    (r.state = .held →
      (∀ w, (r.job.cancelPending = true ∧ w = Reason.cancelled) ∨
          (r.job.cancelPending = false ∧ accountLines j.account s = [] ∧ w = .complete) ∨
          (r.job.cancelPending = false ∧ accountLines j.account s ≠ [] ∧ r.openPage < r.nextPage ∧
            r.nextPage ≤ y.pages ∧ w = .turnPage) ∨
          (r.job.cancelPending = false ∧ accountLines j.account s ≠ [] ∧ r.openPage < r.nextPage ∧
            y.pages < r.nextPage ∧ w = .bookFull) →
        ∃ t, exec (.printerDecision n) s = .next t ∧ PrinterOnly n s t ∧ rd t.printers n = stripe w ∧
          t.out = [.printer n (.writeStripe r.nextPage r.nextLine)]) ∧
      ∀ l ls, r.job.cancelPending = false → accountLines j.account s = l :: ls → r.nextPage = r.openPage →
        ∃ t, exec (.printerDecision n) s = .next t ∧ PrinterOnly n s t ∧
          rd t.printers n = { r with state := .printing, timer := some ⟨5, 5⟩ } ∧
          t.out = [.printer n (.printLine r.nextLine y.fold (renderLine y l))]) ∧
    (r.state = .printing → ∀ l ls, accountLines j.account s = l :: ls → (s.store.map (·.account)).Nodup →
      ∃ t, exec (.lineDone n) s = .next t ∧ OtherPrintersKept n s t ∧ t.queues = s.queues ∧
        accountLines j.account t = ls ∧ (∀ x, x ≠ j.account → accountLines x t = accountLines x s) ∧
        (∀ e, entryAt l.source s = some e → e.print = .stored → entryAt l.source t = some { e with print := .printed }) ∧
        (rd t.printers n).job.printed = min 65535 (r.job.printed + 1) ∧ (rd t.printers n).openPage = r.openPage ∧
        ((rd t.printers n).nextPage, (rd t.printers n).nextLine) =
          (if y.linesPerPage < r.nextLine + 1 then (r.nextPage + 1, 1) else (r.nextPage, r.nextLine + 1)) ∧
        (r.job.cancelPending = false → (rd t.printers n).state = .held ∧ (rd t.printers n).timer = none ∧ t.out = []) ∧
        (r.job.cancelPending = true → (rd t.printers n).state = .writingStripe ∧
          (rd t.printers n).reason = some .cancelled ∧
          t.out = [.printer n (.writeStripe (rd t.printers n).nextPage (rd t.printers n).nextLine)]) ∧
        t = { since s t with printers := t.printers, store := t.store, jc := s.jc, line := s.line })

/-- STRIPE_WRITTEN, STRIPE_WRITE_FAIL and EJECT_DONE (R143, R144): the book ejected for its reason with a failed write
marked; at the eject's end the job stays for a turned page or a first or second wrong book and waits with its prompt, and
is removed with PRINT_RESULT otherwise; a book of no job leaves the printer EMPTY, and with a job queued it waits for that
job's book. Each is ignored in every other state. That PRINT_RESULT's header names the owner is the model's reading (assumption 18), and so
is that the reason and the eject owner are cleared when the eject is over (assumption 51). -/
def Obligations.BookLeavesPrinter : Prop :=
  ∀ (n : Prn) (s : State), s.powered = true →
    let r := rd s.printers n
    (r.state ≠ .writingStripe →
      exec (.stripeWritten n) s = .next s.begin ∧ exec (.stripeWriteFail n) s = .next s.begin) ∧
    (r.state ≠ .ejecting → exec (.ejectDone n) s = .next s.begin) ∧
    (r.state = .writingStripe →
      (∃ t, exec (.stripeWritten n) s = .next t ∧ PrinterOnly n s t ∧ t.out = [.printer n .eject] ∧
        rd t.printers n = { r with state := .ejecting, timer := some ⟨10, 10⟩, ejectJob := true,
                                   job := { r.job with lastStripe := some (r.nextPage, r.nextLine) } }) ∧
      ∃ t, exec (.stripeWriteFail n) s = .next t ∧ PrinterOnly n s t ∧ t.out = [.printer n .eject] ∧
        rd t.printers n = { r with state := .ejecting, timer := some ⟨10, 10⟩, ejectJob := true,
                                   job := { r.job with stripeFailed := true } }) ∧
    (r.state = .ejecting → r.ejectJob = false → rd s.queues n = [] →
      ∃ t, exec (.ejectDone n) s = .next t ∧ PrinterOnly n s t ∧ t.out = [] ∧
        rd t.printers n = { r with state := .empty, timer := none, ejectJob := false, reason := none }) ∧
    (∀ j js, r.state = .ejecting → r.ejectJob = false → rd s.queues n = j :: js →
      ∃ t, exec (.ejectDone n) s = .next t ∧ OtherPrintersKept n s t ∧ t.queues = s.queues ∧ t.out = [] ∧
        rd t.printers n = { r with state := .waitBook, ejectJob := false, reason := none,
                                   timer := some ⟨s.tables.params.bookWait, s.tables.params.bookWait⟩ } ∧
        rd (rd t.screens j.owner).prompts n = some .insertBook ∧ 0 ∈ (rd t.screens j.owner).dirty ∧
        (∀ p, p ≠ j.owner → rd t.screens p = rd s.screens p) ∧
        t = { s.begin with printers := t.printers, screens := t.screens }) ∧
    ∀ (w : Reason) (j : Job) (js : List Job), r.state = .ejecting → r.ejectJob = true → r.reason = some w →
      rd s.queues n = j :: js →
      ((w = .turnPage ∨ ((w = .wrongBook ∨ w = .unreadable) ∧ r.job.attempts < 3)) →
        ∃ t, exec (.ejectDone n) s = .next t ∧ OtherPrintersKept n s t ∧ t.queues = s.queues ∧ t.out = [] ∧
          rd t.printers n = { r with state := .waitBook, ejectJob := false, reason := none,
                                     timer := some ⟨s.tables.params.bookWait, s.tables.params.bookWait⟩ } ∧
          rd (rd t.screens j.owner).prompts n =
            some (if w = .turnPage then .turnToPage r.nextPage else .wrongBook) ∧
          t = { s.begin with printers := t.printers, screens := t.screens }) ∧
      ((w = .complete ∨ w = .bookFull ∨ w = .cancelled ∨
          ((w = .wrongBook ∨ w = .unreadable) ∧ 3 ≤ r.job.attempts)) →
        ∃ t, exec (.ejectDone n) s = .next t ∧ OtherPrintersKept n s t ∧ rd t.queues n = js ∧ t.out = [] ∧
          jobMarked j.account t = false ∧ (js = [] → (rd t.printers n).state = .empty) ∧
          (∀ q qs, js = q :: qs → (rd t.printers n).state = .waitBook ∧
            rd (rd t.screens q.owner).prompts n = some .insertBook) ∧
          t.line.outbound = s.line.outbound ++ (if s.line.state = .online ∧ s.line.outbound.length < 28 then
            [⟨j.owner.val, 0, .report (.printResult n j.account j.owner (.ended w) r.job.life)⟩] else []) ∧
          t = { since s t with printers := t.printers, queues := t.queues, screens := t.screens, store := t.store,
                               nv := s.nv, jc := s.jc })

/-- FAULT, PRINTER_TIMER_EXPIRY and BOOK_WAIT_EXPIRY (R139, R147, R131): a printer that faults, or whose timer runs out in a
state of Table 9-1, is OFFLINE with an empty queue and its prompt withdrawn; the job that holds the book ends with
PRINT_RESULT, each other job moves to its owner's alternate printer if that takes it and is dropped with the NO PRINTER mark
otherwise, the lines kept. A book wait that runs out removes the head job with NO_BOOK and goes on to the next. An expiry at
count 0 is the model's choice (assumption 3); the header positions of PRINTER_STATE (255) and PRINT_RESULT (the owner) are its
reading (assumption 18), and that no reason and no eject owner are left when a printer goes OFFLINE or waits its choice
(assumption 51). -/
def Obligations.PrinterFaultsAndGivesUp : Prop :=
  ∀ (n : Prn) (s : State), s.powered = true →
    let r := rd s.printers n
    (r.state ≠ .offline → ∃ t, exec (.fault n) s = .next t ∧ WentDown n .fault s t) ∧
    (r.state = .offline → exec (.fault n) s = .next s.begin) ∧
    (∀ k c, r.timer = some ⟨k, 0⟩ → faultTimer r.state = some c →
      ∃ t, exec (.printerTimerExpiry n) s = .next t ∧ WentDown n c s t) ∧
    ∀ k j js, r.state = .waitBook → r.timer = some ⟨k, 0⟩ → rd s.queues n = j :: js →
      ∃ t, exec (.bookWaitExpiry n) s = .next t ∧ OtherPrintersKept n s t ∧ rd t.queues n = js ∧ t.out = [] ∧
        jobMarked j.account t = false ∧ (js = [] → (rd t.printers n).state = .empty ∧ (rd t.printers n).timer = none) ∧
        (∀ q qs, js = q :: qs → (rd t.printers n).state = .waitBook ∧
          rd (rd t.screens q.owner).prompts n = some .insertBook) ∧
        t.line.outbound = s.line.outbound ++ (if s.line.state = .online ∧ s.line.outbound.length < 28 then
          [⟨j.owner.val, 0, .report (.printResult n j.account j.owner .noBook r.job.life)⟩] else []) ∧
        t = { since s t with printers := t.printers, queues := t.queues, screens := t.screens, store := t.store,
                             nv := s.nv, jc := s.jc }

/-! ## Transfer and RESTART -/

/-- TRANSFER_ACK (R164, R50, R163, R168): ignored when a test fails; an ACCEPT acknowledges its blocks in order, frees their
in-flight entries and, ACTIVE, offers more blocks, its timer started afresh or stopped; its final block completes the batch,
after which a FORWARD batch is followed by the awaited DAY batch or, with postings PENDING, a further FORWARD batch. A REFUSE
acknowledges the blocks before it and fails the batch, which gives way to an awaited DAY batch (R169); that it offers no block
first is the model's choice (assumption 46). The notices of the line that wait may be taken first (the command's operand,
assumption 47). -/
def Obligations.AckAcknowledgesOrFails : Prop :=
  ∀ (h : Hdr) (a : AckBody) (s : State), Takes s →
    (∃ v, RunsTo ((arrived s).engine.notices.map noticeCommand) (arrived s) v ∧
      exec (.transferAck ⟨h, true⟩ a) s = exec (.transferAck ⟨h, false⟩ a) v) ∧
    ((s.engine.state = .idle ∨ s.engine.state = .failed ∨ s.engine.batch = none ∨
        ∃ b, s.engine.batch = some b ∧ (a.batch ≠ b.number ∨ a.through ≤ b.acked ∨ b.highest < a.through)) →
      exec (.transferAck ⟨h, false⟩ a) s = .next (arrived s)) ∧
    ∀ b, WindowHeld s → s.engine.batch = some b → (s.engine.state = .active ∨ s.engine.state = .paused) →
      a.batch = b.number → b.acked < a.through → a.through ≤ b.highest →
      let e := (arrived s).engine
      let idle : Engine := { e with state := .idle, batch := none, flights := [], timer := none }
      let through : Nat → Batch := fun n => { b with
        acked := n, retries := 0, nextQueue := if b.nextQueue ≤ n then n + 1 else b.nextQueue }
      let after : Nat → List Flight := fun n => s.engine.flights.filter fun f => decide (n < f.number)
      let queued : OutBody → List OutMsg := fun m => s.line.outbound ++
        if s.line.outbound.length < 28 then [⟨255, 0, m⟩] else []
      ∃ t, exec (.transferAck ⟨h, false⟩ a) s = .next t ∧ t.out = [] ∧
        t = { since (arrived s) t with engine := t.engine, day := { s.day with completions := t.day.completions } } ∧
        (a.status = .accept → Acknowledged b a.through (arrived s) t ∧
          (b.final ≠ some a.through → t.day = s.day ∧
            (s.engine.state = .paused → t.line = (arrived s).line ∧
              t.engine = { e with batch := some (through a.through), flights := after a.through }) ∧
            (s.engine.state = .active → BlocksOffered (through a.through) (after a.through) s.line.outbound t ∧
              t.engine = { e with batch := t.engine.batch, flights := t.engine.flights, timer := t.engine.timer } ∧
              t.engine.timer = (if a.through < b.highest ∨ t.engine.flights ≠ after a.through then
                some ⟨s.tables.params.ackTimer, s.tables.params.ackTimer⟩ else none))) ∧
          (b.final = some a.through → b.kind = .day → t.engine = idle ∧
            t.day.completions = s.day.completions ++ [businessDate s] ∧
            t.line.outbound = queued (.report
              (.transferComplete .day b.number b.highest b.carried (some t.nv.control.fields.delivered)))) ∧
          (b.final = some a.through → b.kind = .forward →
            let base := queued (.report (.transferComplete .forward b.number b.highest b.carried none))
            let further := (s.day.state = .opened ∨ s.day.state = .cutoff) ∧ 0 < t.jc.pendingCount
            (s.engine.dayAwaited = true → Started .day base (arrived s) t) ∧
            (s.engine.dayAwaited = false → further → Started .forward base (arrived s) t) ∧
            (s.engine.dayAwaited = false → ¬further → t.engine = idle ∧ t.line.outbound = base ∧ t.day = s.day))) ∧
        (a.status = .refuse →
          let n := a.through - 1
          let base := queued (.report (.transferFailed b.kind b.number (.refused a.through) n))
          Acknowledged b n (arrived s) t ∧
          (b.kind = .forward → s.engine.dayAwaited = true → Started .day base (arrived s) t) ∧
          (¬(b.kind = .forward ∧ s.engine.dayAwaited = true) → t.line.outbound = base ∧ t.day = s.day ∧
            t.engine = { e with state := .failed, timer := none, flights := after n,
                                batch := some (if b.acked < n then through n else b) }))

/-- The engine's own events (R161, R163, R165 to R169): a loss pauses an ACTIVE batch; a return resumes a PAUSED one, every
outstanding block offered again from the oldest, or starts the batch the day calls for; the finish of a recovery with the line
ONLINE acts as a return in IDLE; the ack timer's expiry (at count 0, assumption 3) counts a retry and offers the outstanding
blocks again, or fails the batch past the retry limit, which gives way to an awaited DAY batch. The timer's start at a resend
rests on assumption 21. -/
def Obligations.EngineTakesNotices : Prop :=
  ∀ s : State, s.powered = true →
    let trading := s.day.state = .opened ∨ s.day.state = .cutoff
    (∀ rest, s.engine.notices = .loss :: rest →
      exec .transferLineLoss s = .next { s.begin with engine := { s.engine with
        notices := rest, state := (if s.engine.state = .active then .paused else s.engine.state),
        timer := (if s.engine.state = .active then none else s.engine.timer) } }) ∧
    (∀ rest, s.engine.notices = .back :: rest →
      let u : State := { s.begin with engine := { s.engine with notices := rest } }
      ((s.engine.state = .active ∨ s.engine.state = .failed) → exec .transferLineReturn s = .next u) ∧
      (∀ b, WindowHeld s → s.engine.state = .paused → s.engine.batch = some b →
        ∃ t, exec .transferLineReturn s = .next t ∧ EngineStep u t ∧ t.day = s.day ∧ Resumed b 0 s.line.outbound u t) ∧
      (s.engine.state = .idle → s.line.state = .online →
        (s.day.state = .closing → ∃ t, exec .transferLineReturn s = .next t ∧ EngineStep u t ∧
          Started .day s.line.outbound u t) ∧
        (trading → 0 < s.jc.pendingCount → ∃ t, exec .transferLineReturn s = .next t ∧ EngineStep u t ∧
          Started .forward s.line.outbound u t) ∧
        ((s.day.state = .recovering ∨ (∃ x, s.day.state = .closed x) ∨ (trading ∧ s.jc.pendingCount = 0)) →
          exec .transferLineReturn s = .next u))) ∧
    (s.engine.recoveryDone = true →
      let u : State := { s.begin with engine := { s.engine with recoveryDone := false } }
      ((s.line.state = .standIn ∨ s.engine.state ≠ .idle ∨ s.day.state = .recovering ∨ (∃ x, s.day.state = .closed x) ∨
          (trading ∧ s.jc.pendingCount = 0)) →
        exec .transferRecoveryFinish s = .next u) ∧
      (s.line.state = .online → s.engine.state = .idle →
        (s.day.state = .closing → ∃ t, exec .transferRecoveryFinish s = .next t ∧ EngineStep u t ∧
          Started .day s.line.outbound u t) ∧
        (trading → 0 < s.jc.pendingCount → ∃ t, exec .transferRecoveryFinish s = .next t ∧ EngineStep u t ∧
          Started .forward s.line.outbound u t))) ∧
    ∀ b k, s.engine.state = .active → s.engine.batch = some b → s.engine.timer = some ⟨k, 0⟩ →
      (b.retries < s.tables.params.retryLimit → WindowHeld s → ∃ t, exec .ackTimerExpiry s = .next t ∧
        EngineStep s.begin t ∧ t.day = s.day ∧ Resumed b (b.retries + 1) s.line.outbound s t) ∧
      (s.tables.params.retryLimit ≤ b.retries →
        let base := s.line.outbound ++ (if s.line.state = .online ∧ s.line.outbound.length < 28 then
          [⟨255, 0, .report (.transferFailed b.kind b.number .retries b.acked)⟩] else [])
        ∃ t, exec .ackTimerExpiry s = .next t ∧ EngineStep s.begin t ∧
          (b.kind = .forward → s.engine.dayAwaited = true → Started .day base s t) ∧
          (¬(b.kind = .forward ∧ s.engine.dayAwaited = true) → t.line.outbound = base ∧ t.day = s.day ∧
            t.engine = { s.engine with state := .failed, timer := none,
                                       batch := some { b with retries := b.retries + 1 } }))

/-- RESTART (R179, R107, R167): every key queue emptied and entry timer stopped, AWAITING positions READY with their entries
in doubt, every position repainted with the form of its state, every job removed and every held book ejected; an ACTIVE batch
offers its outstanding blocks again with its retries kept, a PAUSED one resumes; what R179 lists as kept is kept. The notices
of the line that wait may reach the engine first (the command's operand, assumption 47). That the ack timer starts only with a
block outstanding (assumption 21), the cursor's cell at a showing (assumption 11) and the attribute of the cells past a text's
end (assumption 48) are the model's choices. -/
def Obligations.RestartRepaintsAndKeeps : Prop :=
  ∀ (h : Hdr) (s : State), Takes s → (s.store.map (·.account)).Nodup →
    (∃ v, RunsTo ((arrived s).engine.notices.map noticeCommand) (arrived s) v ∧
      exec (.restart ⟨h, true⟩) s = exec (.restart ⟨h, false⟩) v) ∧
    ∃ t, exec (.restart ⟨h, false⟩) s = .next t ∧
      (∀ p, (rd t.keys p).queue = [] ∧ (rd t.keys p).timer = none) ∧
      (∀ p, rd t.posns p = if (rd s.posns p).state = .awaiting then leftFor .ready (rd s.posns p) else rd s.posns p) ∧
      (∀ p, (rd t.screens p).review = 0 ∧ (rd t.screens p).inFlight = false ∧ (rd t.screens p).dirty = List.range 20 ∧
        (rd t.screens p).noPrinter = (rd s.screens p).noPrinter ∧ (rd t.screens p).ring = (rd (arrived s).screens p).ring ∧
        (rd t.screens p).form =
          (if (rd s.posns p).state = .signedOff then shownForm s 0
            else if (rd s.posns p).state = .balancing then shownForm s 1 else (rd s.screens p).form.bind (shownForm s)) ∧
        (∀ n d, (rd t.screens p).form = some n → rd s.tables.forms n = some d → AreaShows s n d (rd t.screens p).area ∧
          (rd t.screens p).cursor = (firstUnprotected d.fields).bind (fun i => d.fields[i]?.map fun f => (f.row, f.col)) ∧
          rd t.keys p = ⟨[], d.fields.map presetValue, firstUnprotected d.fields, 0, none⟩) ∧
        ((rd t.screens p).form = none → (∀ r c, rd (rd (rd t.screens p).area r) c = ⟨0x20, .normal, false⟩) ∧
          (rd t.screens p).cursor = none ∧ rd t.keys p = ⟨[], [], none, 0, none⟩)) ∧
      (∀ n, rd t.queues n = []) ∧ (∀ a, jobMarked a t = false ∧ accountLines a t = accountLines a s) ∧
      (∀ n, rd s.queues n ≠ [] →
        ((rd s.printers n).holds = true → (rd t.printers n).state = .ejecting ∧ (rd t.printers n).ejectJob = false) ∧
        ((rd s.printers n).state = .waitBook → (rd t.printers n).state = .empty ∧ (rd t.printers n).timer = none)) ∧
      ((s.engine.state = .idle ∨ s.engine.state = .failed) → t.engine = (arrived s).engine ∧
        t.line = (arrived s).line) ∧
      (∀ b, WindowHeld s → s.engine.batch = some b → (s.engine.state = .active ∨ s.engine.state = .paused) →
        Resumed b (if s.engine.state = .paused then 0 else b.retries) s.line.outbound (arrived s) t) ∧
      t = { arrived s with keys := t.keys, posns := t.posns, screens := t.screens, queues := t.queues, store := t.store,
                           printers := t.printers, engine := t.engine, out := t.out,
                           line := { (arrived s).line with outbound := t.line.outbound } }

/-! ## What every step keeps -/

/-- Every step keeps the laws of R45, R125 and R128 and the sizes and ranges of R58, R94, R95, R101, R105, R109, R128 and R174:
slots used; the store's lines, records and lines of an account, no account twice; one job for an account whose mark is set and
none for any other; the queues, the clock, each screen's dirty-row set (ascending, rows 0 to 19, each at most once), its notice
column and review offset, and the forms as their loads check them (TEXT decimals 0: the model's reading, assumption 24). -/
def Obligations.StepKeepsBounds : Prop :=
  ∀ s t : State, WithinBounds s → RestsOutsideTrading s → step s = .next t → WithinBounds t

/-- Every step keeps the law of R163: no more than 4 blocks of a batch are sent and unacknowledged, and blocks are acknowledged
only in block-number order, so that the in-flight table holds, in order, the blocks after acknowledged-through. -/
def Obligations.StepKeepsWindow : Prop := ∀ s t : State, WindowHeld s → step s = .next t → WindowHeld t

/-- Every step keeps the law of R67, in every day state in which no position may be signed on: every position is
SIGNED_OFF and no printer holds a book for a job. -/
def Obligations.StepKeepsRestOutsideTrading : Prop :=
  ∀ s t : State, RestsOutsideTrading s → step s = .next t → RestsOutsideTrading t

/-- Every step keeps the law of R50, a power failure within it included: an entry is PENDING only if it is a stand-in posting;
and, but for what a power failure leaves (assumption 7), an entry becomes FORWARDED only from PENDING and only in the event that
takes a TRANSFER ACK, as a command or from inbound bytes, of a block of a FORWARD batch that carried it. -/
def Obligations.StepKeepsForwardLaw : Prop :=
  ∀ s t : State, ForwardLaw s → step s = .next t → ForwardLaw t ∧
    ∀ i e f, s.nv.entries[i]? = some e → t.nv.entries[i]? = some f → e.fwd ≠ .forwarded → f.fwd = .forwarded →
      ∃ c rest, s.pending = c :: rest ∧ ((∃ n torn, c = .powerFailure n torn) ∨ (e.fwd = .pending ∧
        ((∃ h a nf, c = .transferAck ⟨h, nf⟩ a ∧ (nf = false → ∃ b g x, s.engine.batch = some b ∧ b.kind = .forward ∧
            g ∈ s.engine.flights ∧ b.acked < g.number ∧ g.number ≤ a.through ∧ x ∈ flightEntries .forward g s ∧
            x.2.seq = i + 1)) ∨
          ∃ bytes nf rb m h a, c = .frameDiscard ⟨bytes, nf, rb⟩ ∧ .message m ∈ (runFramer s.line.framer bytes).2 ∧
            frameCommand nf rb m = .transferAck ⟨h, nf⟩ a)))
end

