-- ==== Sys2Proof/Laws/State.lean ====
section
/-! SUPPORT. What each one-place update of State leaves of every field: one lemma per field, true by rfl, so that no proof
unfolds a record update. -/

namespace Sys2Proof.Machine

/-! ### State.begin -/

@[simp] theorem State.begin_line (s : State) : s.begin.line = s.line := rfl
@[simp] theorem State.begin_tables (s : State) : s.begin.tables = s.tables := rfl
@[simp] theorem State.begin_posns (s : State) : s.begin.posns = s.posns := rfl
@[simp] theorem State.begin_screens (s : State) : s.begin.screens = s.screens := rfl
@[simp] theorem State.begin_keys (s : State) : s.begin.keys = s.keys := rfl
@[simp] theorem State.begin_drawers (s : State) : s.begin.drawers = s.drawers := rfl
@[simp] theorem State.begin_groups (s : State) : s.begin.groups = s.groups := rfl
@[simp] theorem State.begin_nv (s : State) : s.begin.nv = s.nv := rfl
@[simp] theorem State.begin_jc (s : State) : s.begin.jc = s.jc := rfl
@[simp] theorem State.begin_day (s : State) : s.begin.day = s.day := rfl
@[simp] theorem State.begin_clock (s : State) : s.begin.clock = s.clock := rfl
@[simp] theorem State.begin_store (s : State) : s.begin.store = s.store := rfl
@[simp] theorem State.begin_queues (s : State) : s.begin.queues = s.queues := rfl
@[simp] theorem State.begin_printers (s : State) : s.begin.printers = s.printers := rfl
@[simp] theorem State.begin_engine (s : State) : s.begin.engine = s.engine := rfl
@[simp] theorem State.begin_powered (s : State) : s.begin.powered = s.powered := rfl
@[simp] theorem State.begin_out (s : State) : s.begin.out = [] := rfl
@[simp] theorem State.begin_nvBefore (s : State) : s.begin.nvBefore = s.nv := rfl
@[simp] theorem State.begin_nvLog (s : State) : s.begin.nvLog = [] := rfl
@[simp] theorem State.begin_freeUsed (s : State) : s.begin.freeUsed = s.freeUsed := rfl
@[simp] theorem State.begin_pending (s : State) : s.begin.pending = s.pending := rfl

/-! ### State.updPos -/

@[simp] theorem State.updPos_line (p : Pos) (f : PosRec → PosRec) (s : State) : (s.updPos p f).line = s.line := rfl
@[simp] theorem State.updPos_tables (p : Pos) (f : PosRec → PosRec) (s : State) : (s.updPos p f).tables = s.tables := rfl
@[simp] theorem State.updPos_posns (p : Pos) (f : PosRec → PosRec) (s : State) : (s.updPos p f).posns = upd s.posns p f := rfl
@[simp] theorem State.updPos_screens (p : Pos) (f : PosRec → PosRec) (s : State) : (s.updPos p f).screens = s.screens := rfl
@[simp] theorem State.updPos_keys (p : Pos) (f : PosRec → PosRec) (s : State) : (s.updPos p f).keys = s.keys := rfl
@[simp] theorem State.updPos_drawers (p : Pos) (f : PosRec → PosRec) (s : State) : (s.updPos p f).drawers = s.drawers := rfl
@[simp] theorem State.updPos_groups (p : Pos) (f : PosRec → PosRec) (s : State) : (s.updPos p f).groups = s.groups := rfl
@[simp] theorem State.updPos_nv (p : Pos) (f : PosRec → PosRec) (s : State) : (s.updPos p f).nv = s.nv := rfl
@[simp] theorem State.updPos_jc (p : Pos) (f : PosRec → PosRec) (s : State) : (s.updPos p f).jc = s.jc := rfl
@[simp] theorem State.updPos_day (p : Pos) (f : PosRec → PosRec) (s : State) : (s.updPos p f).day = s.day := rfl
@[simp] theorem State.updPos_clock (p : Pos) (f : PosRec → PosRec) (s : State) : (s.updPos p f).clock = s.clock := rfl
@[simp] theorem State.updPos_store (p : Pos) (f : PosRec → PosRec) (s : State) : (s.updPos p f).store = s.store := rfl
@[simp] theorem State.updPos_queues (p : Pos) (f : PosRec → PosRec) (s : State) : (s.updPos p f).queues = s.queues := rfl
@[simp] theorem State.updPos_printers (p : Pos) (f : PosRec → PosRec) (s : State) : (s.updPos p f).printers = s.printers := rfl
@[simp] theorem State.updPos_engine (p : Pos) (f : PosRec → PosRec) (s : State) : (s.updPos p f).engine = s.engine := rfl
@[simp] theorem State.updPos_powered (p : Pos) (f : PosRec → PosRec) (s : State) : (s.updPos p f).powered = s.powered := rfl
@[simp] theorem State.updPos_out (p : Pos) (f : PosRec → PosRec) (s : State) : (s.updPos p f).out = s.out := rfl
@[simp] theorem State.updPos_nvBefore (p : Pos) (f : PosRec → PosRec) (s : State) : (s.updPos p f).nvBefore = s.nvBefore := rfl
@[simp] theorem State.updPos_nvLog (p : Pos) (f : PosRec → PosRec) (s : State) : (s.updPos p f).nvLog = s.nvLog := rfl
@[simp] theorem State.updPos_freeUsed (p : Pos) (f : PosRec → PosRec) (s : State) : (s.updPos p f).freeUsed = s.freeUsed := rfl
@[simp] theorem State.updPos_pending (p : Pos) (f : PosRec → PosRec) (s : State) : (s.updPos p f).pending = s.pending := rfl

/-! ### State.updScreen -/

@[simp] theorem State.updScreen_line (p : Pos) (f : Screen → Screen) (s : State) : (s.updScreen p f).line = s.line := rfl
@[simp] theorem State.updScreen_tables (p : Pos) (f : Screen → Screen) (s : State) : (s.updScreen p f).tables = s.tables := rfl
@[simp] theorem State.updScreen_posns (p : Pos) (f : Screen → Screen) (s : State) : (s.updScreen p f).posns = s.posns := rfl
@[simp] theorem State.updScreen_screens (p : Pos) (f : Screen → Screen) (s : State) : (s.updScreen p f).screens = upd s.screens p f := rfl
@[simp] theorem State.updScreen_keys (p : Pos) (f : Screen → Screen) (s : State) : (s.updScreen p f).keys = s.keys := rfl
@[simp] theorem State.updScreen_drawers (p : Pos) (f : Screen → Screen) (s : State) : (s.updScreen p f).drawers = s.drawers := rfl
@[simp] theorem State.updScreen_groups (p : Pos) (f : Screen → Screen) (s : State) : (s.updScreen p f).groups = s.groups := rfl
@[simp] theorem State.updScreen_nv (p : Pos) (f : Screen → Screen) (s : State) : (s.updScreen p f).nv = s.nv := rfl
@[simp] theorem State.updScreen_jc (p : Pos) (f : Screen → Screen) (s : State) : (s.updScreen p f).jc = s.jc := rfl
@[simp] theorem State.updScreen_day (p : Pos) (f : Screen → Screen) (s : State) : (s.updScreen p f).day = s.day := rfl
@[simp] theorem State.updScreen_clock (p : Pos) (f : Screen → Screen) (s : State) : (s.updScreen p f).clock = s.clock := rfl
@[simp] theorem State.updScreen_store (p : Pos) (f : Screen → Screen) (s : State) : (s.updScreen p f).store = s.store := rfl
@[simp] theorem State.updScreen_queues (p : Pos) (f : Screen → Screen) (s : State) : (s.updScreen p f).queues = s.queues := rfl
@[simp] theorem State.updScreen_printers (p : Pos) (f : Screen → Screen) (s : State) : (s.updScreen p f).printers = s.printers := rfl
@[simp] theorem State.updScreen_engine (p : Pos) (f : Screen → Screen) (s : State) : (s.updScreen p f).engine = s.engine := rfl
@[simp] theorem State.updScreen_powered (p : Pos) (f : Screen → Screen) (s : State) : (s.updScreen p f).powered = s.powered := rfl
@[simp] theorem State.updScreen_out (p : Pos) (f : Screen → Screen) (s : State) : (s.updScreen p f).out = s.out := rfl
@[simp] theorem State.updScreen_nvBefore (p : Pos) (f : Screen → Screen) (s : State) : (s.updScreen p f).nvBefore = s.nvBefore := rfl
@[simp] theorem State.updScreen_nvLog (p : Pos) (f : Screen → Screen) (s : State) : (s.updScreen p f).nvLog = s.nvLog := rfl
@[simp] theorem State.updScreen_freeUsed (p : Pos) (f : Screen → Screen) (s : State) : (s.updScreen p f).freeUsed = s.freeUsed := rfl
@[simp] theorem State.updScreen_pending (p : Pos) (f : Screen → Screen) (s : State) : (s.updScreen p f).pending = s.pending := rfl

/-! ### State.updKeys -/

@[simp] theorem State.updKeys_line (p : Pos) (f : KeyUnit → KeyUnit) (s : State) : (s.updKeys p f).line = s.line := rfl
@[simp] theorem State.updKeys_tables (p : Pos) (f : KeyUnit → KeyUnit) (s : State) : (s.updKeys p f).tables = s.tables := rfl
@[simp] theorem State.updKeys_posns (p : Pos) (f : KeyUnit → KeyUnit) (s : State) : (s.updKeys p f).posns = s.posns := rfl
@[simp] theorem State.updKeys_screens (p : Pos) (f : KeyUnit → KeyUnit) (s : State) : (s.updKeys p f).screens = s.screens := rfl
@[simp] theorem State.updKeys_keys (p : Pos) (f : KeyUnit → KeyUnit) (s : State) : (s.updKeys p f).keys = upd s.keys p f := rfl
@[simp] theorem State.updKeys_drawers (p : Pos) (f : KeyUnit → KeyUnit) (s : State) : (s.updKeys p f).drawers = s.drawers := rfl
@[simp] theorem State.updKeys_groups (p : Pos) (f : KeyUnit → KeyUnit) (s : State) : (s.updKeys p f).groups = s.groups := rfl
@[simp] theorem State.updKeys_nv (p : Pos) (f : KeyUnit → KeyUnit) (s : State) : (s.updKeys p f).nv = s.nv := rfl
@[simp] theorem State.updKeys_jc (p : Pos) (f : KeyUnit → KeyUnit) (s : State) : (s.updKeys p f).jc = s.jc := rfl
@[simp] theorem State.updKeys_day (p : Pos) (f : KeyUnit → KeyUnit) (s : State) : (s.updKeys p f).day = s.day := rfl
@[simp] theorem State.updKeys_clock (p : Pos) (f : KeyUnit → KeyUnit) (s : State) : (s.updKeys p f).clock = s.clock := rfl
@[simp] theorem State.updKeys_store (p : Pos) (f : KeyUnit → KeyUnit) (s : State) : (s.updKeys p f).store = s.store := rfl
@[simp] theorem State.updKeys_queues (p : Pos) (f : KeyUnit → KeyUnit) (s : State) : (s.updKeys p f).queues = s.queues := rfl
@[simp] theorem State.updKeys_printers (p : Pos) (f : KeyUnit → KeyUnit) (s : State) : (s.updKeys p f).printers = s.printers := rfl
@[simp] theorem State.updKeys_engine (p : Pos) (f : KeyUnit → KeyUnit) (s : State) : (s.updKeys p f).engine = s.engine := rfl
@[simp] theorem State.updKeys_powered (p : Pos) (f : KeyUnit → KeyUnit) (s : State) : (s.updKeys p f).powered = s.powered := rfl
@[simp] theorem State.updKeys_out (p : Pos) (f : KeyUnit → KeyUnit) (s : State) : (s.updKeys p f).out = s.out := rfl
@[simp] theorem State.updKeys_nvBefore (p : Pos) (f : KeyUnit → KeyUnit) (s : State) : (s.updKeys p f).nvBefore = s.nvBefore := rfl
@[simp] theorem State.updKeys_nvLog (p : Pos) (f : KeyUnit → KeyUnit) (s : State) : (s.updKeys p f).nvLog = s.nvLog := rfl
@[simp] theorem State.updKeys_freeUsed (p : Pos) (f : KeyUnit → KeyUnit) (s : State) : (s.updKeys p f).freeUsed = s.freeUsed := rfl
@[simp] theorem State.updKeys_pending (p : Pos) (f : KeyUnit → KeyUnit) (s : State) : (s.updKeys p f).pending = s.pending := rfl

/-! ### State.updDrawer -/

@[simp] theorem State.updDrawer_line (p : Pos) (f : Drawer → Drawer) (s : State) : (s.updDrawer p f).line = s.line := rfl
@[simp] theorem State.updDrawer_tables (p : Pos) (f : Drawer → Drawer) (s : State) : (s.updDrawer p f).tables = s.tables := rfl
@[simp] theorem State.updDrawer_posns (p : Pos) (f : Drawer → Drawer) (s : State) : (s.updDrawer p f).posns = s.posns := rfl
@[simp] theorem State.updDrawer_screens (p : Pos) (f : Drawer → Drawer) (s : State) : (s.updDrawer p f).screens = s.screens := rfl
@[simp] theorem State.updDrawer_keys (p : Pos) (f : Drawer → Drawer) (s : State) : (s.updDrawer p f).keys = s.keys := rfl
@[simp] theorem State.updDrawer_drawers (p : Pos) (f : Drawer → Drawer) (s : State) : (s.updDrawer p f).drawers = upd s.drawers p f := rfl
@[simp] theorem State.updDrawer_groups (p : Pos) (f : Drawer → Drawer) (s : State) : (s.updDrawer p f).groups = s.groups := rfl
@[simp] theorem State.updDrawer_nv (p : Pos) (f : Drawer → Drawer) (s : State) : (s.updDrawer p f).nv = s.nv := rfl
@[simp] theorem State.updDrawer_jc (p : Pos) (f : Drawer → Drawer) (s : State) : (s.updDrawer p f).jc = s.jc := rfl
@[simp] theorem State.updDrawer_day (p : Pos) (f : Drawer → Drawer) (s : State) : (s.updDrawer p f).day = s.day := rfl
@[simp] theorem State.updDrawer_clock (p : Pos) (f : Drawer → Drawer) (s : State) : (s.updDrawer p f).clock = s.clock := rfl
@[simp] theorem State.updDrawer_store (p : Pos) (f : Drawer → Drawer) (s : State) : (s.updDrawer p f).store = s.store := rfl
@[simp] theorem State.updDrawer_queues (p : Pos) (f : Drawer → Drawer) (s : State) : (s.updDrawer p f).queues = s.queues := rfl
@[simp] theorem State.updDrawer_printers (p : Pos) (f : Drawer → Drawer) (s : State) : (s.updDrawer p f).printers = s.printers := rfl
@[simp] theorem State.updDrawer_engine (p : Pos) (f : Drawer → Drawer) (s : State) : (s.updDrawer p f).engine = s.engine := rfl
@[simp] theorem State.updDrawer_powered (p : Pos) (f : Drawer → Drawer) (s : State) : (s.updDrawer p f).powered = s.powered := rfl
@[simp] theorem State.updDrawer_out (p : Pos) (f : Drawer → Drawer) (s : State) : (s.updDrawer p f).out = s.out := rfl
@[simp] theorem State.updDrawer_nvBefore (p : Pos) (f : Drawer → Drawer) (s : State) : (s.updDrawer p f).nvBefore = s.nvBefore := rfl
@[simp] theorem State.updDrawer_nvLog (p : Pos) (f : Drawer → Drawer) (s : State) : (s.updDrawer p f).nvLog = s.nvLog := rfl
@[simp] theorem State.updDrawer_freeUsed (p : Pos) (f : Drawer → Drawer) (s : State) : (s.updDrawer p f).freeUsed = s.freeUsed := rfl
@[simp] theorem State.updDrawer_pending (p : Pos) (f : Drawer → Drawer) (s : State) : (s.updDrawer p f).pending = s.pending := rfl

/-! ### State.updPrinter -/

@[simp] theorem State.updPrinter_line (n : Prn) (f : Printer → Printer) (s : State) : (s.updPrinter n f).line = s.line := rfl
@[simp] theorem State.updPrinter_tables (n : Prn) (f : Printer → Printer) (s : State) : (s.updPrinter n f).tables = s.tables := rfl
@[simp] theorem State.updPrinter_posns (n : Prn) (f : Printer → Printer) (s : State) : (s.updPrinter n f).posns = s.posns := rfl
@[simp] theorem State.updPrinter_screens (n : Prn) (f : Printer → Printer) (s : State) : (s.updPrinter n f).screens = s.screens := rfl
@[simp] theorem State.updPrinter_keys (n : Prn) (f : Printer → Printer) (s : State) : (s.updPrinter n f).keys = s.keys := rfl
@[simp] theorem State.updPrinter_drawers (n : Prn) (f : Printer → Printer) (s : State) : (s.updPrinter n f).drawers = s.drawers := rfl
@[simp] theorem State.updPrinter_groups (n : Prn) (f : Printer → Printer) (s : State) : (s.updPrinter n f).groups = s.groups := rfl
@[simp] theorem State.updPrinter_nv (n : Prn) (f : Printer → Printer) (s : State) : (s.updPrinter n f).nv = s.nv := rfl
@[simp] theorem State.updPrinter_jc (n : Prn) (f : Printer → Printer) (s : State) : (s.updPrinter n f).jc = s.jc := rfl
@[simp] theorem State.updPrinter_day (n : Prn) (f : Printer → Printer) (s : State) : (s.updPrinter n f).day = s.day := rfl
@[simp] theorem State.updPrinter_clock (n : Prn) (f : Printer → Printer) (s : State) : (s.updPrinter n f).clock = s.clock := rfl
@[simp] theorem State.updPrinter_store (n : Prn) (f : Printer → Printer) (s : State) : (s.updPrinter n f).store = s.store := rfl
@[simp] theorem State.updPrinter_queues (n : Prn) (f : Printer → Printer) (s : State) : (s.updPrinter n f).queues = s.queues := rfl
@[simp] theorem State.updPrinter_printers (n : Prn) (f : Printer → Printer) (s : State) : (s.updPrinter n f).printers = upd s.printers n f := rfl
@[simp] theorem State.updPrinter_engine (n : Prn) (f : Printer → Printer) (s : State) : (s.updPrinter n f).engine = s.engine := rfl
@[simp] theorem State.updPrinter_powered (n : Prn) (f : Printer → Printer) (s : State) : (s.updPrinter n f).powered = s.powered := rfl
@[simp] theorem State.updPrinter_out (n : Prn) (f : Printer → Printer) (s : State) : (s.updPrinter n f).out = s.out := rfl
@[simp] theorem State.updPrinter_nvBefore (n : Prn) (f : Printer → Printer) (s : State) : (s.updPrinter n f).nvBefore = s.nvBefore := rfl
@[simp] theorem State.updPrinter_nvLog (n : Prn) (f : Printer → Printer) (s : State) : (s.updPrinter n f).nvLog = s.nvLog := rfl
@[simp] theorem State.updPrinter_freeUsed (n : Prn) (f : Printer → Printer) (s : State) : (s.updPrinter n f).freeUsed = s.freeUsed := rfl
@[simp] theorem State.updPrinter_pending (n : Prn) (f : Printer → Printer) (s : State) : (s.updPrinter n f).pending = s.pending := rfl

/-! ### State.updQueue -/

@[simp] theorem State.updQueue_line (n : Prn) (f : List Job → List Job) (s : State) : (s.updQueue n f).line = s.line := rfl
@[simp] theorem State.updQueue_tables (n : Prn) (f : List Job → List Job) (s : State) : (s.updQueue n f).tables = s.tables := rfl
@[simp] theorem State.updQueue_posns (n : Prn) (f : List Job → List Job) (s : State) : (s.updQueue n f).posns = s.posns := rfl
@[simp] theorem State.updQueue_screens (n : Prn) (f : List Job → List Job) (s : State) : (s.updQueue n f).screens = s.screens := rfl
@[simp] theorem State.updQueue_keys (n : Prn) (f : List Job → List Job) (s : State) : (s.updQueue n f).keys = s.keys := rfl
@[simp] theorem State.updQueue_drawers (n : Prn) (f : List Job → List Job) (s : State) : (s.updQueue n f).drawers = s.drawers := rfl
@[simp] theorem State.updQueue_groups (n : Prn) (f : List Job → List Job) (s : State) : (s.updQueue n f).groups = s.groups := rfl
@[simp] theorem State.updQueue_nv (n : Prn) (f : List Job → List Job) (s : State) : (s.updQueue n f).nv = s.nv := rfl
@[simp] theorem State.updQueue_jc (n : Prn) (f : List Job → List Job) (s : State) : (s.updQueue n f).jc = s.jc := rfl
@[simp] theorem State.updQueue_day (n : Prn) (f : List Job → List Job) (s : State) : (s.updQueue n f).day = s.day := rfl
@[simp] theorem State.updQueue_clock (n : Prn) (f : List Job → List Job) (s : State) : (s.updQueue n f).clock = s.clock := rfl
@[simp] theorem State.updQueue_store (n : Prn) (f : List Job → List Job) (s : State) : (s.updQueue n f).store = s.store := rfl
@[simp] theorem State.updQueue_queues (n : Prn) (f : List Job → List Job) (s : State) : (s.updQueue n f).queues = upd s.queues n f := rfl
@[simp] theorem State.updQueue_printers (n : Prn) (f : List Job → List Job) (s : State) : (s.updQueue n f).printers = s.printers := rfl
@[simp] theorem State.updQueue_engine (n : Prn) (f : List Job → List Job) (s : State) : (s.updQueue n f).engine = s.engine := rfl
@[simp] theorem State.updQueue_powered (n : Prn) (f : List Job → List Job) (s : State) : (s.updQueue n f).powered = s.powered := rfl
@[simp] theorem State.updQueue_out (n : Prn) (f : List Job → List Job) (s : State) : (s.updQueue n f).out = s.out := rfl
@[simp] theorem State.updQueue_nvBefore (n : Prn) (f : List Job → List Job) (s : State) : (s.updQueue n f).nvBefore = s.nvBefore := rfl
@[simp] theorem State.updQueue_nvLog (n : Prn) (f : List Job → List Job) (s : State) : (s.updQueue n f).nvLog = s.nvLog := rfl
@[simp] theorem State.updQueue_freeUsed (n : Prn) (f : List Job → List Job) (s : State) : (s.updQueue n f).freeUsed = s.freeUsed := rfl
@[simp] theorem State.updQueue_pending (n : Prn) (f : List Job → List Job) (s : State) : (s.updQueue n f).pending = s.pending := rfl

/-! ### State.updEngine -/

@[simp] theorem State.updEngine_line (f : Engine → Engine) (s : State) : (s.updEngine f).line = s.line := rfl
@[simp] theorem State.updEngine_tables (f : Engine → Engine) (s : State) : (s.updEngine f).tables = s.tables := rfl
@[simp] theorem State.updEngine_posns (f : Engine → Engine) (s : State) : (s.updEngine f).posns = s.posns := rfl
@[simp] theorem State.updEngine_screens (f : Engine → Engine) (s : State) : (s.updEngine f).screens = s.screens := rfl
@[simp] theorem State.updEngine_keys (f : Engine → Engine) (s : State) : (s.updEngine f).keys = s.keys := rfl
@[simp] theorem State.updEngine_drawers (f : Engine → Engine) (s : State) : (s.updEngine f).drawers = s.drawers := rfl
@[simp] theorem State.updEngine_groups (f : Engine → Engine) (s : State) : (s.updEngine f).groups = s.groups := rfl
@[simp] theorem State.updEngine_nv (f : Engine → Engine) (s : State) : (s.updEngine f).nv = s.nv := rfl
@[simp] theorem State.updEngine_jc (f : Engine → Engine) (s : State) : (s.updEngine f).jc = s.jc := rfl
@[simp] theorem State.updEngine_day (f : Engine → Engine) (s : State) : (s.updEngine f).day = s.day := rfl
@[simp] theorem State.updEngine_clock (f : Engine → Engine) (s : State) : (s.updEngine f).clock = s.clock := rfl
@[simp] theorem State.updEngine_store (f : Engine → Engine) (s : State) : (s.updEngine f).store = s.store := rfl
@[simp] theorem State.updEngine_queues (f : Engine → Engine) (s : State) : (s.updEngine f).queues = s.queues := rfl
@[simp] theorem State.updEngine_printers (f : Engine → Engine) (s : State) : (s.updEngine f).printers = s.printers := rfl
@[simp] theorem State.updEngine_engine (f : Engine → Engine) (s : State) : (s.updEngine f).engine = f s.engine := rfl
@[simp] theorem State.updEngine_powered (f : Engine → Engine) (s : State) : (s.updEngine f).powered = s.powered := rfl
@[simp] theorem State.updEngine_out (f : Engine → Engine) (s : State) : (s.updEngine f).out = s.out := rfl
@[simp] theorem State.updEngine_nvBefore (f : Engine → Engine) (s : State) : (s.updEngine f).nvBefore = s.nvBefore := rfl
@[simp] theorem State.updEngine_nvLog (f : Engine → Engine) (s : State) : (s.updEngine f).nvLog = s.nvLog := rfl
@[simp] theorem State.updEngine_freeUsed (f : Engine → Engine) (s : State) : (s.updEngine f).freeUsed = s.freeUsed := rfl
@[simp] theorem State.updEngine_pending (f : Engine → Engine) (s : State) : (s.updEngine f).pending = s.pending := rfl

/-! ### State.updLine -/

@[simp] theorem State.updLine_line (f : LineIf → LineIf) (s : State) : (s.updLine f).line = f s.line := rfl
@[simp] theorem State.updLine_tables (f : LineIf → LineIf) (s : State) : (s.updLine f).tables = s.tables := rfl
@[simp] theorem State.updLine_posns (f : LineIf → LineIf) (s : State) : (s.updLine f).posns = s.posns := rfl
@[simp] theorem State.updLine_screens (f : LineIf → LineIf) (s : State) : (s.updLine f).screens = s.screens := rfl
@[simp] theorem State.updLine_keys (f : LineIf → LineIf) (s : State) : (s.updLine f).keys = s.keys := rfl
@[simp] theorem State.updLine_drawers (f : LineIf → LineIf) (s : State) : (s.updLine f).drawers = s.drawers := rfl
@[simp] theorem State.updLine_groups (f : LineIf → LineIf) (s : State) : (s.updLine f).groups = s.groups := rfl
@[simp] theorem State.updLine_nv (f : LineIf → LineIf) (s : State) : (s.updLine f).nv = s.nv := rfl
@[simp] theorem State.updLine_jc (f : LineIf → LineIf) (s : State) : (s.updLine f).jc = s.jc := rfl
@[simp] theorem State.updLine_day (f : LineIf → LineIf) (s : State) : (s.updLine f).day = s.day := rfl
@[simp] theorem State.updLine_clock (f : LineIf → LineIf) (s : State) : (s.updLine f).clock = s.clock := rfl
@[simp] theorem State.updLine_store (f : LineIf → LineIf) (s : State) : (s.updLine f).store = s.store := rfl
@[simp] theorem State.updLine_queues (f : LineIf → LineIf) (s : State) : (s.updLine f).queues = s.queues := rfl
@[simp] theorem State.updLine_printers (f : LineIf → LineIf) (s : State) : (s.updLine f).printers = s.printers := rfl
@[simp] theorem State.updLine_engine (f : LineIf → LineIf) (s : State) : (s.updLine f).engine = s.engine := rfl
@[simp] theorem State.updLine_powered (f : LineIf → LineIf) (s : State) : (s.updLine f).powered = s.powered := rfl
@[simp] theorem State.updLine_out (f : LineIf → LineIf) (s : State) : (s.updLine f).out = s.out := rfl
@[simp] theorem State.updLine_nvBefore (f : LineIf → LineIf) (s : State) : (s.updLine f).nvBefore = s.nvBefore := rfl
@[simp] theorem State.updLine_nvLog (f : LineIf → LineIf) (s : State) : (s.updLine f).nvLog = s.nvLog := rfl
@[simp] theorem State.updLine_freeUsed (f : LineIf → LineIf) (s : State) : (s.updLine f).freeUsed = s.freeUsed := rfl
@[simp] theorem State.updLine_pending (f : LineIf → LineIf) (s : State) : (s.updLine f).pending = s.pending := rfl

/-! ### State.updDay -/

@[simp] theorem State.updDay_line (f : DayCtl → DayCtl) (s : State) : (s.updDay f).line = s.line := rfl
@[simp] theorem State.updDay_tables (f : DayCtl → DayCtl) (s : State) : (s.updDay f).tables = s.tables := rfl
@[simp] theorem State.updDay_posns (f : DayCtl → DayCtl) (s : State) : (s.updDay f).posns = s.posns := rfl
@[simp] theorem State.updDay_screens (f : DayCtl → DayCtl) (s : State) : (s.updDay f).screens = s.screens := rfl
@[simp] theorem State.updDay_keys (f : DayCtl → DayCtl) (s : State) : (s.updDay f).keys = s.keys := rfl
@[simp] theorem State.updDay_drawers (f : DayCtl → DayCtl) (s : State) : (s.updDay f).drawers = s.drawers := rfl
@[simp] theorem State.updDay_groups (f : DayCtl → DayCtl) (s : State) : (s.updDay f).groups = s.groups := rfl
@[simp] theorem State.updDay_nv (f : DayCtl → DayCtl) (s : State) : (s.updDay f).nv = s.nv := rfl
@[simp] theorem State.updDay_jc (f : DayCtl → DayCtl) (s : State) : (s.updDay f).jc = s.jc := rfl
@[simp] theorem State.updDay_day (f : DayCtl → DayCtl) (s : State) : (s.updDay f).day = f s.day := rfl
@[simp] theorem State.updDay_clock (f : DayCtl → DayCtl) (s : State) : (s.updDay f).clock = s.clock := rfl
@[simp] theorem State.updDay_store (f : DayCtl → DayCtl) (s : State) : (s.updDay f).store = s.store := rfl
@[simp] theorem State.updDay_queues (f : DayCtl → DayCtl) (s : State) : (s.updDay f).queues = s.queues := rfl
@[simp] theorem State.updDay_printers (f : DayCtl → DayCtl) (s : State) : (s.updDay f).printers = s.printers := rfl
@[simp] theorem State.updDay_engine (f : DayCtl → DayCtl) (s : State) : (s.updDay f).engine = s.engine := rfl
@[simp] theorem State.updDay_powered (f : DayCtl → DayCtl) (s : State) : (s.updDay f).powered = s.powered := rfl
@[simp] theorem State.updDay_out (f : DayCtl → DayCtl) (s : State) : (s.updDay f).out = s.out := rfl
@[simp] theorem State.updDay_nvBefore (f : DayCtl → DayCtl) (s : State) : (s.updDay f).nvBefore = s.nvBefore := rfl
@[simp] theorem State.updDay_nvLog (f : DayCtl → DayCtl) (s : State) : (s.updDay f).nvLog = s.nvLog := rfl
@[simp] theorem State.updDay_freeUsed (f : DayCtl → DayCtl) (s : State) : (s.updDay f).freeUsed = s.freeUsed := rfl
@[simp] theorem State.updDay_pending (f : DayCtl → DayCtl) (s : State) : (s.updDay f).pending = s.pending := rfl

/-! ### State.updTables -/

@[simp] theorem State.updTables_line (f : Tables → Tables) (s : State) : (s.updTables f).line = s.line := rfl
@[simp] theorem State.updTables_tables (f : Tables → Tables) (s : State) : (s.updTables f).tables = f s.tables := rfl
@[simp] theorem State.updTables_posns (f : Tables → Tables) (s : State) : (s.updTables f).posns = s.posns := rfl
@[simp] theorem State.updTables_screens (f : Tables → Tables) (s : State) : (s.updTables f).screens = s.screens := rfl
@[simp] theorem State.updTables_keys (f : Tables → Tables) (s : State) : (s.updTables f).keys = s.keys := rfl
@[simp] theorem State.updTables_drawers (f : Tables → Tables) (s : State) : (s.updTables f).drawers = s.drawers := rfl
@[simp] theorem State.updTables_groups (f : Tables → Tables) (s : State) : (s.updTables f).groups = s.groups := rfl
@[simp] theorem State.updTables_nv (f : Tables → Tables) (s : State) : (s.updTables f).nv = s.nv := rfl
@[simp] theorem State.updTables_jc (f : Tables → Tables) (s : State) : (s.updTables f).jc = s.jc := rfl
@[simp] theorem State.updTables_day (f : Tables → Tables) (s : State) : (s.updTables f).day = s.day := rfl
@[simp] theorem State.updTables_clock (f : Tables → Tables) (s : State) : (s.updTables f).clock = s.clock := rfl
@[simp] theorem State.updTables_store (f : Tables → Tables) (s : State) : (s.updTables f).store = s.store := rfl
@[simp] theorem State.updTables_queues (f : Tables → Tables) (s : State) : (s.updTables f).queues = s.queues := rfl
@[simp] theorem State.updTables_printers (f : Tables → Tables) (s : State) : (s.updTables f).printers = s.printers := rfl
@[simp] theorem State.updTables_engine (f : Tables → Tables) (s : State) : (s.updTables f).engine = s.engine := rfl
@[simp] theorem State.updTables_powered (f : Tables → Tables) (s : State) : (s.updTables f).powered = s.powered := rfl
@[simp] theorem State.updTables_out (f : Tables → Tables) (s : State) : (s.updTables f).out = s.out := rfl
@[simp] theorem State.updTables_nvBefore (f : Tables → Tables) (s : State) : (s.updTables f).nvBefore = s.nvBefore := rfl
@[simp] theorem State.updTables_nvLog (f : Tables → Tables) (s : State) : (s.updTables f).nvLog = s.nvLog := rfl
@[simp] theorem State.updTables_freeUsed (f : Tables → Tables) (s : State) : (s.updTables f).freeUsed = s.freeUsed := rfl
@[simp] theorem State.updTables_pending (f : Tables → Tables) (s : State) : (s.updTables f).pending = s.pending := rfl

/-! ### emit -/

@[simp] theorem emit_line (o : Output) (s : State) : (emit o s).line = s.line := rfl
@[simp] theorem emit_tables (o : Output) (s : State) : (emit o s).tables = s.tables := rfl
@[simp] theorem emit_posns (o : Output) (s : State) : (emit o s).posns = s.posns := rfl
@[simp] theorem emit_screens (o : Output) (s : State) : (emit o s).screens = s.screens := rfl
@[simp] theorem emit_keys (o : Output) (s : State) : (emit o s).keys = s.keys := rfl
@[simp] theorem emit_drawers (o : Output) (s : State) : (emit o s).drawers = s.drawers := rfl
@[simp] theorem emit_groups (o : Output) (s : State) : (emit o s).groups = s.groups := rfl
@[simp] theorem emit_nv (o : Output) (s : State) : (emit o s).nv = s.nv := rfl
@[simp] theorem emit_jc (o : Output) (s : State) : (emit o s).jc = s.jc := rfl
@[simp] theorem emit_day (o : Output) (s : State) : (emit o s).day = s.day := rfl
@[simp] theorem emit_clock (o : Output) (s : State) : (emit o s).clock = s.clock := rfl
@[simp] theorem emit_store (o : Output) (s : State) : (emit o s).store = s.store := rfl
@[simp] theorem emit_queues (o : Output) (s : State) : (emit o s).queues = s.queues := rfl
@[simp] theorem emit_printers (o : Output) (s : State) : (emit o s).printers = s.printers := rfl
@[simp] theorem emit_engine (o : Output) (s : State) : (emit o s).engine = s.engine := rfl
@[simp] theorem emit_powered (o : Output) (s : State) : (emit o s).powered = s.powered := rfl
@[simp] theorem emit_out (o : Output) (s : State) : (emit o s).out = s.out ++ [o] := rfl
@[simp] theorem emit_nvBefore (o : Output) (s : State) : (emit o s).nvBefore = s.nvBefore := rfl
@[simp] theorem emit_nvLog (o : Output) (s : State) : (emit o s).nvLog = s.nvLog := rfl
@[simp] theorem emit_freeUsed (o : Output) (s : State) : (emit o s).freeUsed = s.freeUsed := rfl
@[simp] theorem emit_pending (o : Output) (s : State) : (emit o s).pending = s.pending := rfl

/-! ### command -/

@[simp] theorem command_line (n : Prn) (c : PrnCmd) (s : State) : (command n c s).line = s.line := rfl
@[simp] theorem command_tables (n : Prn) (c : PrnCmd) (s : State) : (command n c s).tables = s.tables := rfl
@[simp] theorem command_posns (n : Prn) (c : PrnCmd) (s : State) : (command n c s).posns = s.posns := rfl
@[simp] theorem command_screens (n : Prn) (c : PrnCmd) (s : State) : (command n c s).screens = s.screens := rfl
@[simp] theorem command_keys (n : Prn) (c : PrnCmd) (s : State) : (command n c s).keys = s.keys := rfl
@[simp] theorem command_drawers (n : Prn) (c : PrnCmd) (s : State) : (command n c s).drawers = s.drawers := rfl
@[simp] theorem command_groups (n : Prn) (c : PrnCmd) (s : State) : (command n c s).groups = s.groups := rfl
@[simp] theorem command_nv (n : Prn) (c : PrnCmd) (s : State) : (command n c s).nv = s.nv := rfl
@[simp] theorem command_jc (n : Prn) (c : PrnCmd) (s : State) : (command n c s).jc = s.jc := rfl
@[simp] theorem command_day (n : Prn) (c : PrnCmd) (s : State) : (command n c s).day = s.day := rfl
@[simp] theorem command_clock (n : Prn) (c : PrnCmd) (s : State) : (command n c s).clock = s.clock := rfl
@[simp] theorem command_store (n : Prn) (c : PrnCmd) (s : State) : (command n c s).store = s.store := rfl
@[simp] theorem command_queues (n : Prn) (c : PrnCmd) (s : State) : (command n c s).queues = s.queues := rfl
@[simp] theorem command_printers (n : Prn) (c : PrnCmd) (s : State) : (command n c s).printers = s.printers := rfl
@[simp] theorem command_engine (n : Prn) (c : PrnCmd) (s : State) : (command n c s).engine = s.engine := rfl
@[simp] theorem command_powered (n : Prn) (c : PrnCmd) (s : State) : (command n c s).powered = s.powered := rfl
@[simp] theorem command_out (n : Prn) (c : PrnCmd) (s : State) : (command n c s).out = s.out ++ [.printer n c] := rfl
@[simp] theorem command_nvBefore (n : Prn) (c : PrnCmd) (s : State) : (command n c s).nvBefore = s.nvBefore := rfl
@[simp] theorem command_nvLog (n : Prn) (c : PrnCmd) (s : State) : (command n c s).nvLog = s.nvLog := rfl
@[simp] theorem command_freeUsed (n : Prn) (c : PrnCmd) (s : State) : (command n c s).freeUsed = s.freeUsed := rfl
@[simp] theorem command_pending (n : Prn) (c : PrnCmd) (s : State) : (command n c s).pending = s.pending := rfl

/-! ### enqueue -/

@[simp] theorem enqueue_line (m : OutMsg) (s : State) : (enqueue m s).line = { s.line with outbound := s.line.outbound ++ [m] } := rfl
@[simp] theorem enqueue_tables (m : OutMsg) (s : State) : (enqueue m s).tables = s.tables := rfl
@[simp] theorem enqueue_posns (m : OutMsg) (s : State) : (enqueue m s).posns = s.posns := rfl
@[simp] theorem enqueue_screens (m : OutMsg) (s : State) : (enqueue m s).screens = s.screens := rfl
@[simp] theorem enqueue_keys (m : OutMsg) (s : State) : (enqueue m s).keys = s.keys := rfl
@[simp] theorem enqueue_drawers (m : OutMsg) (s : State) : (enqueue m s).drawers = s.drawers := rfl
@[simp] theorem enqueue_groups (m : OutMsg) (s : State) : (enqueue m s).groups = s.groups := rfl
@[simp] theorem enqueue_nv (m : OutMsg) (s : State) : (enqueue m s).nv = s.nv := rfl
@[simp] theorem enqueue_jc (m : OutMsg) (s : State) : (enqueue m s).jc = s.jc := rfl
@[simp] theorem enqueue_day (m : OutMsg) (s : State) : (enqueue m s).day = s.day := rfl
@[simp] theorem enqueue_clock (m : OutMsg) (s : State) : (enqueue m s).clock = s.clock := rfl
@[simp] theorem enqueue_store (m : OutMsg) (s : State) : (enqueue m s).store = s.store := rfl
@[simp] theorem enqueue_queues (m : OutMsg) (s : State) : (enqueue m s).queues = s.queues := rfl
@[simp] theorem enqueue_printers (m : OutMsg) (s : State) : (enqueue m s).printers = s.printers := rfl
@[simp] theorem enqueue_engine (m : OutMsg) (s : State) : (enqueue m s).engine = s.engine := rfl
@[simp] theorem enqueue_powered (m : OutMsg) (s : State) : (enqueue m s).powered = s.powered := rfl
@[simp] theorem enqueue_out (m : OutMsg) (s : State) : (enqueue m s).out = s.out := rfl
@[simp] theorem enqueue_nvBefore (m : OutMsg) (s : State) : (enqueue m s).nvBefore = s.nvBefore := rfl
@[simp] theorem enqueue_nvLog (m : OutMsg) (s : State) : (enqueue m s).nvLog = s.nvLog := rfl
@[simp] theorem enqueue_freeUsed (m : OutMsg) (s : State) : (enqueue m s).freeUsed = s.freeUsed := rfl
@[simp] theorem enqueue_pending (m : OutMsg) (s : State) : (enqueue m s).pending = s.pending := rfl

/-! ### nvWrite -/

@[simp] theorem nvWrite_line (w : NvWrite) (s : State) : (nvWrite w s).line = s.line := rfl
@[simp] theorem nvWrite_tables (w : NvWrite) (s : State) : (nvWrite w s).tables = s.tables := rfl
@[simp] theorem nvWrite_posns (w : NvWrite) (s : State) : (nvWrite w s).posns = s.posns := rfl
@[simp] theorem nvWrite_screens (w : NvWrite) (s : State) : (nvWrite w s).screens = s.screens := rfl
@[simp] theorem nvWrite_keys (w : NvWrite) (s : State) : (nvWrite w s).keys = s.keys := rfl
@[simp] theorem nvWrite_drawers (w : NvWrite) (s : State) : (nvWrite w s).drawers = s.drawers := rfl
@[simp] theorem nvWrite_groups (w : NvWrite) (s : State) : (nvWrite w s).groups = s.groups := rfl
@[simp] theorem nvWrite_nv (w : NvWrite) (s : State) : (nvWrite w s).nv = s.nv.write w := rfl
@[simp] theorem nvWrite_jc (w : NvWrite) (s : State) : (nvWrite w s).jc = s.jc := rfl
@[simp] theorem nvWrite_day (w : NvWrite) (s : State) : (nvWrite w s).day = s.day := rfl
@[simp] theorem nvWrite_clock (w : NvWrite) (s : State) : (nvWrite w s).clock = s.clock := rfl
@[simp] theorem nvWrite_store (w : NvWrite) (s : State) : (nvWrite w s).store = s.store := rfl
@[simp] theorem nvWrite_queues (w : NvWrite) (s : State) : (nvWrite w s).queues = s.queues := rfl
@[simp] theorem nvWrite_printers (w : NvWrite) (s : State) : (nvWrite w s).printers = s.printers := rfl
@[simp] theorem nvWrite_engine (w : NvWrite) (s : State) : (nvWrite w s).engine = s.engine := rfl
@[simp] theorem nvWrite_powered (w : NvWrite) (s : State) : (nvWrite w s).powered = s.powered := rfl
@[simp] theorem nvWrite_out (w : NvWrite) (s : State) : (nvWrite w s).out = s.out := rfl
@[simp] theorem nvWrite_nvBefore (w : NvWrite) (s : State) : (nvWrite w s).nvBefore = s.nvBefore := rfl
@[simp] theorem nvWrite_nvLog (w : NvWrite) (s : State) : (nvWrite w s).nvLog = s.nvLog ++ [w] := rfl
@[simp] theorem nvWrite_freeUsed (w : NvWrite) (s : State) : (nvWrite w s).freeUsed = s.freeUsed := rfl
@[simp] theorem nvWrite_pending (w : NvWrite) (s : State) : (nvWrite w s).pending = s.pending := rfl

/-! ### markRow0 -/

@[simp] theorem markRow0_line (p : Pos) (s : State) : (markRow0 p s).line = s.line := rfl
@[simp] theorem markRow0_tables (p : Pos) (s : State) : (markRow0 p s).tables = s.tables := rfl
@[simp] theorem markRow0_posns (p : Pos) (s : State) : (markRow0 p s).posns = s.posns := rfl
@[simp] theorem markRow0_screens (p : Pos) (s : State) : (markRow0 p s).screens = upd s.screens p (Screen.mark 0) := rfl
@[simp] theorem markRow0_keys (p : Pos) (s : State) : (markRow0 p s).keys = s.keys := rfl
@[simp] theorem markRow0_drawers (p : Pos) (s : State) : (markRow0 p s).drawers = s.drawers := rfl
@[simp] theorem markRow0_groups (p : Pos) (s : State) : (markRow0 p s).groups = s.groups := rfl
@[simp] theorem markRow0_nv (p : Pos) (s : State) : (markRow0 p s).nv = s.nv := rfl
@[simp] theorem markRow0_jc (p : Pos) (s : State) : (markRow0 p s).jc = s.jc := rfl
@[simp] theorem markRow0_day (p : Pos) (s : State) : (markRow0 p s).day = s.day := rfl
@[simp] theorem markRow0_clock (p : Pos) (s : State) : (markRow0 p s).clock = s.clock := rfl
@[simp] theorem markRow0_store (p : Pos) (s : State) : (markRow0 p s).store = s.store := rfl
@[simp] theorem markRow0_queues (p : Pos) (s : State) : (markRow0 p s).queues = s.queues := rfl
@[simp] theorem markRow0_printers (p : Pos) (s : State) : (markRow0 p s).printers = s.printers := rfl
@[simp] theorem markRow0_engine (p : Pos) (s : State) : (markRow0 p s).engine = s.engine := rfl
@[simp] theorem markRow0_powered (p : Pos) (s : State) : (markRow0 p s).powered = s.powered := rfl
@[simp] theorem markRow0_out (p : Pos) (s : State) : (markRow0 p s).out = s.out := rfl
@[simp] theorem markRow0_nvBefore (p : Pos) (s : State) : (markRow0 p s).nvBefore = s.nvBefore := rfl
@[simp] theorem markRow0_nvLog (p : Pos) (s : State) : (markRow0 p s).nvLog = s.nvLog := rfl
@[simp] theorem markRow0_freeUsed (p : Pos) (s : State) : (markRow0 p s).freeUsed = s.freeUsed := rfl
@[simp] theorem markRow0_pending (p : Pos) (s : State) : (markRow0 p s).pending = s.pending := rfl

/-! ### markRow0All -/

@[simp] theorem markRow0All_line (s : State) : (markRow0All s).line = s.line := rfl
@[simp] theorem markRow0All_tables (s : State) : (markRow0All s).tables = s.tables := rfl
@[simp] theorem markRow0All_posns (s : State) : (markRow0All s).posns = s.posns := rfl
@[simp] theorem markRow0All_screens (s : State) : (markRow0All s).screens = mapV s.screens (Screen.mark 0) := rfl
@[simp] theorem markRow0All_keys (s : State) : (markRow0All s).keys = s.keys := rfl
@[simp] theorem markRow0All_drawers (s : State) : (markRow0All s).drawers = s.drawers := rfl
@[simp] theorem markRow0All_groups (s : State) : (markRow0All s).groups = s.groups := rfl
@[simp] theorem markRow0All_nv (s : State) : (markRow0All s).nv = s.nv := rfl
@[simp] theorem markRow0All_jc (s : State) : (markRow0All s).jc = s.jc := rfl
@[simp] theorem markRow0All_day (s : State) : (markRow0All s).day = s.day := rfl
@[simp] theorem markRow0All_clock (s : State) : (markRow0All s).clock = s.clock := rfl
@[simp] theorem markRow0All_store (s : State) : (markRow0All s).store = s.store := rfl
@[simp] theorem markRow0All_queues (s : State) : (markRow0All s).queues = s.queues := rfl
@[simp] theorem markRow0All_printers (s : State) : (markRow0All s).printers = s.printers := rfl
@[simp] theorem markRow0All_engine (s : State) : (markRow0All s).engine = s.engine := rfl
@[simp] theorem markRow0All_powered (s : State) : (markRow0All s).powered = s.powered := rfl
@[simp] theorem markRow0All_out (s : State) : (markRow0All s).out = s.out := rfl
@[simp] theorem markRow0All_nvBefore (s : State) : (markRow0All s).nvBefore = s.nvBefore := rfl
@[simp] theorem markRow0All_nvLog (s : State) : (markRow0All s).nvLog = s.nvLog := rfl
@[simp] theorem markRow0All_freeUsed (s : State) : (markRow0All s).freeUsed = s.freeUsed := rfl
@[simp] theorem markRow0All_pending (s : State) : (markRow0All s).pending = s.pending := rfl

/-! ### notice -/

@[simp] theorem notice_line (p : Pos) (t : List Byte) (s : State) : (notice p t s).line = s.line := rfl
@[simp] theorem notice_tables (p : Pos) (t : List Byte) (s : State) : (notice p t s).tables = s.tables := rfl
@[simp] theorem notice_posns (p : Pos) (t : List Byte) (s : State) : (notice p t s).posns = s.posns := rfl
@[simp] theorem notice_screens (p : Pos) (t : List Byte) (s : State) : (notice p t s).screens = upd s.screens p (Screen.partNotice t) := rfl
@[simp] theorem notice_keys (p : Pos) (t : List Byte) (s : State) : (notice p t s).keys = s.keys := rfl
@[simp] theorem notice_drawers (p : Pos) (t : List Byte) (s : State) : (notice p t s).drawers = s.drawers := rfl
@[simp] theorem notice_groups (p : Pos) (t : List Byte) (s : State) : (notice p t s).groups = s.groups := rfl
@[simp] theorem notice_nv (p : Pos) (t : List Byte) (s : State) : (notice p t s).nv = s.nv := rfl
@[simp] theorem notice_jc (p : Pos) (t : List Byte) (s : State) : (notice p t s).jc = s.jc := rfl
@[simp] theorem notice_day (p : Pos) (t : List Byte) (s : State) : (notice p t s).day = s.day := rfl
@[simp] theorem notice_clock (p : Pos) (t : List Byte) (s : State) : (notice p t s).clock = s.clock := rfl
@[simp] theorem notice_store (p : Pos) (t : List Byte) (s : State) : (notice p t s).store = s.store := rfl
@[simp] theorem notice_queues (p : Pos) (t : List Byte) (s : State) : (notice p t s).queues = s.queues := rfl
@[simp] theorem notice_printers (p : Pos) (t : List Byte) (s : State) : (notice p t s).printers = s.printers := rfl
@[simp] theorem notice_engine (p : Pos) (t : List Byte) (s : State) : (notice p t s).engine = s.engine := rfl
@[simp] theorem notice_powered (p : Pos) (t : List Byte) (s : State) : (notice p t s).powered = s.powered := rfl
@[simp] theorem notice_out (p : Pos) (t : List Byte) (s : State) : (notice p t s).out = s.out := rfl
@[simp] theorem notice_nvBefore (p : Pos) (t : List Byte) (s : State) : (notice p t s).nvBefore = s.nvBefore := rfl
@[simp] theorem notice_nvLog (p : Pos) (t : List Byte) (s : State) : (notice p t s).nvLog = s.nvLog := rfl
@[simp] theorem notice_freeUsed (p : Pos) (t : List Byte) (s : State) : (notice p t s).freeUsed = s.freeUsed := rfl
@[simp] theorem notice_pending (p : Pos) (t : List Byte) (s : State) : (notice p t s).pending = s.pending := rfl

/-! ### noticeAll -/

@[simp] theorem noticeAll_line (t : List Byte) (s : State) : (noticeAll t s).line = s.line := rfl
@[simp] theorem noticeAll_tables (t : List Byte) (s : State) : (noticeAll t s).tables = s.tables := rfl
@[simp] theorem noticeAll_posns (t : List Byte) (s : State) : (noticeAll t s).posns = s.posns := rfl
@[simp] theorem noticeAll_screens (t : List Byte) (s : State) : (noticeAll t s).screens = mapV s.screens (Screen.partNotice t) := rfl
@[simp] theorem noticeAll_keys (t : List Byte) (s : State) : (noticeAll t s).keys = s.keys := rfl
@[simp] theorem noticeAll_drawers (t : List Byte) (s : State) : (noticeAll t s).drawers = s.drawers := rfl
@[simp] theorem noticeAll_groups (t : List Byte) (s : State) : (noticeAll t s).groups = s.groups := rfl
@[simp] theorem noticeAll_nv (t : List Byte) (s : State) : (noticeAll t s).nv = s.nv := rfl
@[simp] theorem noticeAll_jc (t : List Byte) (s : State) : (noticeAll t s).jc = s.jc := rfl
@[simp] theorem noticeAll_day (t : List Byte) (s : State) : (noticeAll t s).day = s.day := rfl
@[simp] theorem noticeAll_clock (t : List Byte) (s : State) : (noticeAll t s).clock = s.clock := rfl
@[simp] theorem noticeAll_store (t : List Byte) (s : State) : (noticeAll t s).store = s.store := rfl
@[simp] theorem noticeAll_queues (t : List Byte) (s : State) : (noticeAll t s).queues = s.queues := rfl
@[simp] theorem noticeAll_printers (t : List Byte) (s : State) : (noticeAll t s).printers = s.printers := rfl
@[simp] theorem noticeAll_engine (t : List Byte) (s : State) : (noticeAll t s).engine = s.engine := rfl
@[simp] theorem noticeAll_powered (t : List Byte) (s : State) : (noticeAll t s).powered = s.powered := rfl
@[simp] theorem noticeAll_out (t : List Byte) (s : State) : (noticeAll t s).out = s.out := rfl
@[simp] theorem noticeAll_nvBefore (t : List Byte) (s : State) : (noticeAll t s).nvBefore = s.nvBefore := rfl
@[simp] theorem noticeAll_nvLog (t : List Byte) (s : State) : (noticeAll t s).nvLog = s.nvLog := rfl
@[simp] theorem noticeAll_freeUsed (t : List Byte) (s : State) : (noticeAll t s).freeUsed = s.freeUsed := rfl
@[simp] theorem noticeAll_pending (t : List Byte) (s : State) : (noticeAll t s).pending = s.pending := rfl

/-! ### setPrompt -/

@[simp] theorem setPrompt_line (p : Pos) (n : Prn) (pr : Prompt) (s : State) : (setPrompt p n pr s).line = s.line := rfl
@[simp] theorem setPrompt_tables (p : Pos) (n : Prn) (pr : Prompt) (s : State) : (setPrompt p n pr s).tables = s.tables := rfl
@[simp] theorem setPrompt_posns (p : Pos) (n : Prn) (pr : Prompt) (s : State) : (setPrompt p n pr s).posns = s.posns := rfl
@[simp] theorem setPrompt_screens (p : Pos) (n : Prn) (pr : Prompt) (s : State) : (setPrompt p n pr s).screens = upd s.screens p (Screen.setPrompt n pr) := rfl
@[simp] theorem setPrompt_keys (p : Pos) (n : Prn) (pr : Prompt) (s : State) : (setPrompt p n pr s).keys = s.keys := rfl
@[simp] theorem setPrompt_drawers (p : Pos) (n : Prn) (pr : Prompt) (s : State) : (setPrompt p n pr s).drawers = s.drawers := rfl
@[simp] theorem setPrompt_groups (p : Pos) (n : Prn) (pr : Prompt) (s : State) : (setPrompt p n pr s).groups = s.groups := rfl
@[simp] theorem setPrompt_nv (p : Pos) (n : Prn) (pr : Prompt) (s : State) : (setPrompt p n pr s).nv = s.nv := rfl
@[simp] theorem setPrompt_jc (p : Pos) (n : Prn) (pr : Prompt) (s : State) : (setPrompt p n pr s).jc = s.jc := rfl
@[simp] theorem setPrompt_day (p : Pos) (n : Prn) (pr : Prompt) (s : State) : (setPrompt p n pr s).day = s.day := rfl
@[simp] theorem setPrompt_clock (p : Pos) (n : Prn) (pr : Prompt) (s : State) : (setPrompt p n pr s).clock = s.clock := rfl
@[simp] theorem setPrompt_store (p : Pos) (n : Prn) (pr : Prompt) (s : State) : (setPrompt p n pr s).store = s.store := rfl
@[simp] theorem setPrompt_queues (p : Pos) (n : Prn) (pr : Prompt) (s : State) : (setPrompt p n pr s).queues = s.queues := rfl
@[simp] theorem setPrompt_printers (p : Pos) (n : Prn) (pr : Prompt) (s : State) : (setPrompt p n pr s).printers = s.printers := rfl
@[simp] theorem setPrompt_engine (p : Pos) (n : Prn) (pr : Prompt) (s : State) : (setPrompt p n pr s).engine = s.engine := rfl
@[simp] theorem setPrompt_powered (p : Pos) (n : Prn) (pr : Prompt) (s : State) : (setPrompt p n pr s).powered = s.powered := rfl
@[simp] theorem setPrompt_out (p : Pos) (n : Prn) (pr : Prompt) (s : State) : (setPrompt p n pr s).out = s.out := rfl
@[simp] theorem setPrompt_nvBefore (p : Pos) (n : Prn) (pr : Prompt) (s : State) : (setPrompt p n pr s).nvBefore = s.nvBefore := rfl
@[simp] theorem setPrompt_nvLog (p : Pos) (n : Prn) (pr : Prompt) (s : State) : (setPrompt p n pr s).nvLog = s.nvLog := rfl
@[simp] theorem setPrompt_freeUsed (p : Pos) (n : Prn) (pr : Prompt) (s : State) : (setPrompt p n pr s).freeUsed = s.freeUsed := rfl
@[simp] theorem setPrompt_pending (p : Pos) (n : Prn) (pr : Prompt) (s : State) : (setPrompt p n pr s).pending = s.pending := rfl

/-! ### withdrawPrompt -/

@[simp] theorem withdrawPrompt_line (n : Prn) (s : State) : (withdrawPrompt n s).line = s.line := rfl
@[simp] theorem withdrawPrompt_tables (n : Prn) (s : State) : (withdrawPrompt n s).tables = s.tables := rfl
@[simp] theorem withdrawPrompt_posns (n : Prn) (s : State) : (withdrawPrompt n s).posns = s.posns := rfl
@[simp] theorem withdrawPrompt_screens (n : Prn) (s : State) : (withdrawPrompt n s).screens = mapV s.screens (Screen.dropPrompt n) := rfl
@[simp] theorem withdrawPrompt_keys (n : Prn) (s : State) : (withdrawPrompt n s).keys = s.keys := rfl
@[simp] theorem withdrawPrompt_drawers (n : Prn) (s : State) : (withdrawPrompt n s).drawers = s.drawers := rfl
@[simp] theorem withdrawPrompt_groups (n : Prn) (s : State) : (withdrawPrompt n s).groups = s.groups := rfl
@[simp] theorem withdrawPrompt_nv (n : Prn) (s : State) : (withdrawPrompt n s).nv = s.nv := rfl
@[simp] theorem withdrawPrompt_jc (n : Prn) (s : State) : (withdrawPrompt n s).jc = s.jc := rfl
@[simp] theorem withdrawPrompt_day (n : Prn) (s : State) : (withdrawPrompt n s).day = s.day := rfl
@[simp] theorem withdrawPrompt_clock (n : Prn) (s : State) : (withdrawPrompt n s).clock = s.clock := rfl
@[simp] theorem withdrawPrompt_store (n : Prn) (s : State) : (withdrawPrompt n s).store = s.store := rfl
@[simp] theorem withdrawPrompt_queues (n : Prn) (s : State) : (withdrawPrompt n s).queues = s.queues := rfl
@[simp] theorem withdrawPrompt_printers (n : Prn) (s : State) : (withdrawPrompt n s).printers = s.printers := rfl
@[simp] theorem withdrawPrompt_engine (n : Prn) (s : State) : (withdrawPrompt n s).engine = s.engine := rfl
@[simp] theorem withdrawPrompt_powered (n : Prn) (s : State) : (withdrawPrompt n s).powered = s.powered := rfl
@[simp] theorem withdrawPrompt_out (n : Prn) (s : State) : (withdrawPrompt n s).out = s.out := rfl
@[simp] theorem withdrawPrompt_nvBefore (n : Prn) (s : State) : (withdrawPrompt n s).nvBefore = s.nvBefore := rfl
@[simp] theorem withdrawPrompt_nvLog (n : Prn) (s : State) : (withdrawPrompt n s).nvLog = s.nvLog := rfl
@[simp] theorem withdrawPrompt_freeUsed (n : Prn) (s : State) : (withdrawPrompt n s).freeUsed = s.freeUsed := rfl
@[simp] theorem withdrawPrompt_pending (n : Prn) (s : State) : (withdrawPrompt n s).pending = s.pending := rfl

/-! ### setNoPrinter -/

@[simp] theorem setNoPrinter_line (p : Pos) (b : Bool) (s : State) : (setNoPrinter p b s).line = s.line := rfl
@[simp] theorem setNoPrinter_tables (p : Pos) (b : Bool) (s : State) : (setNoPrinter p b s).tables = s.tables := rfl
@[simp] theorem setNoPrinter_posns (p : Pos) (b : Bool) (s : State) : (setNoPrinter p b s).posns = s.posns := rfl
@[simp] theorem setNoPrinter_screens (p : Pos) (b : Bool) (s : State) : (setNoPrinter p b s).screens = upd s.screens p (Screen.markNoPrinter b) := rfl
@[simp] theorem setNoPrinter_keys (p : Pos) (b : Bool) (s : State) : (setNoPrinter p b s).keys = s.keys := rfl
@[simp] theorem setNoPrinter_drawers (p : Pos) (b : Bool) (s : State) : (setNoPrinter p b s).drawers = s.drawers := rfl
@[simp] theorem setNoPrinter_groups (p : Pos) (b : Bool) (s : State) : (setNoPrinter p b s).groups = s.groups := rfl
@[simp] theorem setNoPrinter_nv (p : Pos) (b : Bool) (s : State) : (setNoPrinter p b s).nv = s.nv := rfl
@[simp] theorem setNoPrinter_jc (p : Pos) (b : Bool) (s : State) : (setNoPrinter p b s).jc = s.jc := rfl
@[simp] theorem setNoPrinter_day (p : Pos) (b : Bool) (s : State) : (setNoPrinter p b s).day = s.day := rfl
@[simp] theorem setNoPrinter_clock (p : Pos) (b : Bool) (s : State) : (setNoPrinter p b s).clock = s.clock := rfl
@[simp] theorem setNoPrinter_store (p : Pos) (b : Bool) (s : State) : (setNoPrinter p b s).store = s.store := rfl
@[simp] theorem setNoPrinter_queues (p : Pos) (b : Bool) (s : State) : (setNoPrinter p b s).queues = s.queues := rfl
@[simp] theorem setNoPrinter_printers (p : Pos) (b : Bool) (s : State) : (setNoPrinter p b s).printers = s.printers := rfl
@[simp] theorem setNoPrinter_engine (p : Pos) (b : Bool) (s : State) : (setNoPrinter p b s).engine = s.engine := rfl
@[simp] theorem setNoPrinter_powered (p : Pos) (b : Bool) (s : State) : (setNoPrinter p b s).powered = s.powered := rfl
@[simp] theorem setNoPrinter_out (p : Pos) (b : Bool) (s : State) : (setNoPrinter p b s).out = s.out := rfl
@[simp] theorem setNoPrinter_nvBefore (p : Pos) (b : Bool) (s : State) : (setNoPrinter p b s).nvBefore = s.nvBefore := rfl
@[simp] theorem setNoPrinter_nvLog (p : Pos) (b : Bool) (s : State) : (setNoPrinter p b s).nvLog = s.nvLog := rfl
@[simp] theorem setNoPrinter_freeUsed (p : Pos) (b : Bool) (s : State) : (setNoPrinter p b s).freeUsed = s.freeUsed := rfl
@[simp] theorem setNoPrinter_pending (p : Pos) (b : Bool) (s : State) : (setNoPrinter p b s).pending = s.pending := rfl

/-! ### updAccount -/

@[simp] theorem updAccount_line (a : Account) (f : AccountRec → AccountRec) (s : State) : (updAccount a f s).line = s.line := rfl
@[simp] theorem updAccount_tables (a : Account) (f : AccountRec → AccountRec) (s : State) : (updAccount a f s).tables = s.tables := rfl
@[simp] theorem updAccount_posns (a : Account) (f : AccountRec → AccountRec) (s : State) : (updAccount a f s).posns = s.posns := rfl
@[simp] theorem updAccount_screens (a : Account) (f : AccountRec → AccountRec) (s : State) : (updAccount a f s).screens = s.screens := rfl
@[simp] theorem updAccount_keys (a : Account) (f : AccountRec → AccountRec) (s : State) : (updAccount a f s).keys = s.keys := rfl
@[simp] theorem updAccount_drawers (a : Account) (f : AccountRec → AccountRec) (s : State) : (updAccount a f s).drawers = s.drawers := rfl
@[simp] theorem updAccount_groups (a : Account) (f : AccountRec → AccountRec) (s : State) : (updAccount a f s).groups = s.groups := rfl
@[simp] theorem updAccount_nv (a : Account) (f : AccountRec → AccountRec) (s : State) : (updAccount a f s).nv = s.nv := rfl
@[simp] theorem updAccount_jc (a : Account) (f : AccountRec → AccountRec) (s : State) : (updAccount a f s).jc = s.jc := rfl
@[simp] theorem updAccount_day (a : Account) (f : AccountRec → AccountRec) (s : State) : (updAccount a f s).day = s.day := rfl
@[simp] theorem updAccount_clock (a : Account) (f : AccountRec → AccountRec) (s : State) : (updAccount a f s).clock = s.clock := rfl
@[simp] theorem updAccount_store (a : Account) (f : AccountRec → AccountRec) (s : State) : (updAccount a f s).store = s.store.map fun r => if r.account == a then f r else r := rfl
@[simp] theorem updAccount_queues (a : Account) (f : AccountRec → AccountRec) (s : State) : (updAccount a f s).queues = s.queues := rfl
@[simp] theorem updAccount_printers (a : Account) (f : AccountRec → AccountRec) (s : State) : (updAccount a f s).printers = s.printers := rfl
@[simp] theorem updAccount_engine (a : Account) (f : AccountRec → AccountRec) (s : State) : (updAccount a f s).engine = s.engine := rfl
@[simp] theorem updAccount_powered (a : Account) (f : AccountRec → AccountRec) (s : State) : (updAccount a f s).powered = s.powered := rfl
@[simp] theorem updAccount_out (a : Account) (f : AccountRec → AccountRec) (s : State) : (updAccount a f s).out = s.out := rfl
@[simp] theorem updAccount_nvBefore (a : Account) (f : AccountRec → AccountRec) (s : State) : (updAccount a f s).nvBefore = s.nvBefore := rfl
@[simp] theorem updAccount_nvLog (a : Account) (f : AccountRec → AccountRec) (s : State) : (updAccount a f s).nvLog = s.nvLog := rfl
@[simp] theorem updAccount_freeUsed (a : Account) (f : AccountRec → AccountRec) (s : State) : (updAccount a f s).freeUsed = s.freeUsed := rfl
@[simp] theorem updAccount_pending (a : Account) (f : AccountRec → AccountRec) (s : State) : (updAccount a f s).pending = s.pending := rfl

/-! ### dropEmpty -/

@[simp] theorem dropEmpty_line (s : State) : (dropEmpty s).line = s.line := rfl
@[simp] theorem dropEmpty_tables (s : State) : (dropEmpty s).tables = s.tables := rfl
@[simp] theorem dropEmpty_posns (s : State) : (dropEmpty s).posns = s.posns := rfl
@[simp] theorem dropEmpty_screens (s : State) : (dropEmpty s).screens = s.screens := rfl
@[simp] theorem dropEmpty_keys (s : State) : (dropEmpty s).keys = s.keys := rfl
@[simp] theorem dropEmpty_drawers (s : State) : (dropEmpty s).drawers = s.drawers := rfl
@[simp] theorem dropEmpty_groups (s : State) : (dropEmpty s).groups = s.groups := rfl
@[simp] theorem dropEmpty_nv (s : State) : (dropEmpty s).nv = s.nv := rfl
@[simp] theorem dropEmpty_jc (s : State) : (dropEmpty s).jc = s.jc := rfl
@[simp] theorem dropEmpty_day (s : State) : (dropEmpty s).day = s.day := rfl
@[simp] theorem dropEmpty_clock (s : State) : (dropEmpty s).clock = s.clock := rfl
@[simp] theorem dropEmpty_store (s : State) : (dropEmpty s).store = s.store.filter fun r => r.jobMark || !r.lines.isEmpty := rfl
@[simp] theorem dropEmpty_queues (s : State) : (dropEmpty s).queues = s.queues := rfl
@[simp] theorem dropEmpty_printers (s : State) : (dropEmpty s).printers = s.printers := rfl
@[simp] theorem dropEmpty_engine (s : State) : (dropEmpty s).engine = s.engine := rfl
@[simp] theorem dropEmpty_powered (s : State) : (dropEmpty s).powered = s.powered := rfl
@[simp] theorem dropEmpty_out (s : State) : (dropEmpty s).out = s.out := rfl
@[simp] theorem dropEmpty_nvBefore (s : State) : (dropEmpty s).nvBefore = s.nvBefore := rfl
@[simp] theorem dropEmpty_nvLog (s : State) : (dropEmpty s).nvLog = s.nvLog := rfl
@[simp] theorem dropEmpty_freeUsed (s : State) : (dropEmpty s).freeUsed = s.freeUsed := rfl
@[simp] theorem dropEmpty_pending (s : State) : (dropEmpty s).pending = s.pending := rfl

/-! ### updBatch -/

@[simp] theorem updBatch_line (f : Batch → Batch) (s : State) : (updBatch f s).line = s.line := rfl
@[simp] theorem updBatch_tables (f : Batch → Batch) (s : State) : (updBatch f s).tables = s.tables := rfl
@[simp] theorem updBatch_posns (f : Batch → Batch) (s : State) : (updBatch f s).posns = s.posns := rfl
@[simp] theorem updBatch_screens (f : Batch → Batch) (s : State) : (updBatch f s).screens = s.screens := rfl
@[simp] theorem updBatch_keys (f : Batch → Batch) (s : State) : (updBatch f s).keys = s.keys := rfl
@[simp] theorem updBatch_drawers (f : Batch → Batch) (s : State) : (updBatch f s).drawers = s.drawers := rfl
@[simp] theorem updBatch_groups (f : Batch → Batch) (s : State) : (updBatch f s).groups = s.groups := rfl
@[simp] theorem updBatch_nv (f : Batch → Batch) (s : State) : (updBatch f s).nv = s.nv := rfl
@[simp] theorem updBatch_jc (f : Batch → Batch) (s : State) : (updBatch f s).jc = s.jc := rfl
@[simp] theorem updBatch_day (f : Batch → Batch) (s : State) : (updBatch f s).day = s.day := rfl
@[simp] theorem updBatch_clock (f : Batch → Batch) (s : State) : (updBatch f s).clock = s.clock := rfl
@[simp] theorem updBatch_store (f : Batch → Batch) (s : State) : (updBatch f s).store = s.store := rfl
@[simp] theorem updBatch_queues (f : Batch → Batch) (s : State) : (updBatch f s).queues = s.queues := rfl
@[simp] theorem updBatch_printers (f : Batch → Batch) (s : State) : (updBatch f s).printers = s.printers := rfl
@[simp] theorem updBatch_engine (f : Batch → Batch) (s : State) : (updBatch f s).engine = { s.engine with batch := s.engine.batch.map f } := rfl
@[simp] theorem updBatch_powered (f : Batch → Batch) (s : State) : (updBatch f s).powered = s.powered := rfl
@[simp] theorem updBatch_out (f : Batch → Batch) (s : State) : (updBatch f s).out = s.out := rfl
@[simp] theorem updBatch_nvBefore (f : Batch → Batch) (s : State) : (updBatch f s).nvBefore = s.nvBefore := rfl
@[simp] theorem updBatch_nvLog (f : Batch → Batch) (s : State) : (updBatch f s).nvLog = s.nvLog := rfl
@[simp] theorem updBatch_freeUsed (f : Batch → Batch) (s : State) : (updBatch f s).freeUsed = s.freeUsed := rfl
@[simp] theorem updBatch_pending (f : Batch → Batch) (s : State) : (updBatch f s).pending = s.pending := rfl

/-! ### applyLeg -/

@[simp] theorem applyLeg_line (g : Leg) (s : State) : (applyLeg g s).line = s.line := rfl
@[simp] theorem applyLeg_tables (g : Leg) (s : State) : (applyLeg g s).tables = s.tables := rfl
@[simp] theorem applyLeg_posns (g : Leg) (s : State) : (applyLeg g s).posns = s.posns := rfl
@[simp] theorem applyLeg_screens (g : Leg) (s : State) : (applyLeg g s).screens = s.screens := rfl
@[simp] theorem applyLeg_keys (g : Leg) (s : State) : (applyLeg g s).keys = s.keys := rfl
@[simp] theorem applyLeg_drawers (g : Leg) (s : State) : (applyLeg g s).drawers = upd s.drawers g.pos fun d => { d with lines := upd d.lines g.line (applyToLine g.amount) } := rfl
@[simp] theorem applyLeg_groups (g : Leg) (s : State) : (applyLeg g s).groups = s.groups := rfl
@[simp] theorem applyLeg_nv (g : Leg) (s : State) : (applyLeg g s).nv = s.nv := rfl
@[simp] theorem applyLeg_jc (g : Leg) (s : State) : (applyLeg g s).jc = s.jc := rfl
@[simp] theorem applyLeg_day (g : Leg) (s : State) : (applyLeg g s).day = s.day := rfl
@[simp] theorem applyLeg_clock (g : Leg) (s : State) : (applyLeg g s).clock = s.clock := rfl
@[simp] theorem applyLeg_store (g : Leg) (s : State) : (applyLeg g s).store = s.store := rfl
@[simp] theorem applyLeg_queues (g : Leg) (s : State) : (applyLeg g s).queues = s.queues := rfl
@[simp] theorem applyLeg_printers (g : Leg) (s : State) : (applyLeg g s).printers = s.printers := rfl
@[simp] theorem applyLeg_engine (g : Leg) (s : State) : (applyLeg g s).engine = s.engine := rfl
@[simp] theorem applyLeg_powered (g : Leg) (s : State) : (applyLeg g s).powered = s.powered := rfl
@[simp] theorem applyLeg_out (g : Leg) (s : State) : (applyLeg g s).out = s.out := rfl
@[simp] theorem applyLeg_nvBefore (g : Leg) (s : State) : (applyLeg g s).nvBefore = s.nvBefore := rfl
@[simp] theorem applyLeg_nvLog (g : Leg) (s : State) : (applyLeg g s).nvLog = s.nvLog := rfl
@[simp] theorem applyLeg_freeUsed (g : Leg) (s : State) : (applyLeg g s).freeUsed = s.freeUsed := rfl
@[simp] theorem applyLeg_pending (g : Leg) (s : State) : (applyLeg g s).pending = s.pending := rfl

end Sys2Proof.Machine
end

