-- ==== Sys2Proof/Laws/Frames.lean ====
section
/-! SUPPORT. What each shared operation leaves as it was, one lemma for each operation: the fields of State it does not touch,
and of a block it touches in part the rest. -/


namespace Sys2Proof.Machine

/-- A fold whose every step keeps a view of the state keeps it. -/
theorem foldl_keeps {α β γ : Type} (v : β → γ) (f : β → α → β) (h : ∀ s a, v (f s a) = v s) (l : List α) (s : β) :
    v (l.foldl f s) = v s := by
  induction l generalizing s with
  | nil => rfl
  | cons a l ih => exact (ih _).trans (h s a)

@[simp] theorem tone_frame (p : Pos) (s : State) :
    (tone p s).line = s.line ∧ (tone p s).tables = s.tables ∧ (tone p s).posns = s.posns ∧
    (tone p s).screens = s.screens ∧ (tone p s).keys = s.keys ∧ (tone p s).drawers = s.drawers ∧
    (tone p s).groups = s.groups ∧ (tone p s).nv = s.nv ∧ (tone p s).jc = s.jc ∧ (tone p s).day = s.day ∧
    (tone p s).clock = s.clock ∧ (tone p s).store = s.store ∧ (tone p s).queues = s.queues ∧
    (tone p s).printers = s.printers ∧ (tone p s).engine = s.engine ∧ (tone p s).powered = s.powered ∧
    (tone p s).nvBefore = s.nvBefore ∧ (tone p s).nvLog = s.nvLog ∧ (tone p s).freeUsed = s.freeUsed ∧
    (tone p s).pending = s.pending := by
  unfold tone; (repeat' split) <;> simp

@[simp] theorem replyWith_frame (h : Hdr) (st : Status) (x : Extra) (s : State) :
    (replyWith h st x s).line.state = s.line.state ∧ (replyWith h st x s).line.timer = s.line.timer ∧
    (replyWith h st x s).line.framer = s.line.framer ∧ (replyWith h st x s).line.sending = s.line.sending ∧
    (replyWith h st x s).tables = s.tables ∧ (replyWith h st x s).posns = s.posns ∧
    (replyWith h st x s).screens = s.screens ∧ (replyWith h st x s).keys = s.keys ∧
    (replyWith h st x s).drawers = s.drawers ∧ (replyWith h st x s).groups = s.groups ∧
    (replyWith h st x s).nv = s.nv ∧ (replyWith h st x s).jc = s.jc ∧ (replyWith h st x s).day = s.day ∧
    (replyWith h st x s).clock = s.clock ∧ (replyWith h st x s).store = s.store ∧
    (replyWith h st x s).queues = s.queues ∧ (replyWith h st x s).printers = s.printers ∧
    (replyWith h st x s).engine = s.engine ∧ (replyWith h st x s).powered = s.powered ∧
    (replyWith h st x s).out = s.out ∧ (replyWith h st x s).nvBefore = s.nvBefore ∧
    (replyWith h st x s).nvLog = s.nvLog ∧ (replyWith h st x s).freeUsed = s.freeUsed ∧
    (replyWith h st x s).pending = s.pending := by
  unfold replyWith; (repeat' split) <;> simp

@[simp] theorem reply_frame (h : Hdr) (st : Status) (s : State) :
    (reply h st s).line.state = s.line.state ∧ (reply h st s).line.timer = s.line.timer ∧
    (reply h st s).line.framer = s.line.framer ∧ (reply h st s).line.sending = s.line.sending ∧
    (reply h st s).tables = s.tables ∧ (reply h st s).posns = s.posns ∧ (reply h st s).screens = s.screens ∧
    (reply h st s).keys = s.keys ∧ (reply h st s).drawers = s.drawers ∧ (reply h st s).groups = s.groups ∧
    (reply h st s).nv = s.nv ∧ (reply h st s).jc = s.jc ∧ (reply h st s).day = s.day ∧
    (reply h st s).clock = s.clock ∧ (reply h st s).store = s.store ∧ (reply h st s).queues = s.queues ∧
    (reply h st s).printers = s.printers ∧ (reply h st s).engine = s.engine ∧ (reply h st s).powered = s.powered ∧
    (reply h st s).out = s.out ∧ (reply h st s).nvBefore = s.nvBefore ∧ (reply h st s).nvLog = s.nvLog ∧
    (reply h st s).freeUsed = s.freeUsed ∧ (reply h st s).pending = s.pending := by
  simp [reply]

@[simp] theorem report_frame (p : Nat) (r : Report) (s : State) :
    (report p r s).line.state = s.line.state ∧ (report p r s).line.timer = s.line.timer ∧
    (report p r s).line.framer = s.line.framer ∧ (report p r s).line.sending = s.line.sending ∧
    (report p r s).tables = s.tables ∧ (report p r s).posns = s.posns ∧ (report p r s).screens = s.screens ∧
    (report p r s).keys = s.keys ∧ (report p r s).drawers = s.drawers ∧ (report p r s).groups = s.groups ∧
    (report p r s).nv = s.nv ∧ (report p r s).jc = s.jc ∧ (report p r s).day = s.day ∧
    (report p r s).clock = s.clock ∧ (report p r s).store = s.store ∧ (report p r s).queues = s.queues ∧
    (report p r s).printers = s.printers ∧ (report p r s).engine = s.engine ∧ (report p r s).powered = s.powered ∧
    (report p r s).out = s.out ∧ (report p r s).nvBefore = s.nvBefore ∧ (report p r s).nvLog = s.nvLog ∧
    (report p r s).freeUsed = s.freeUsed ∧ (report p r s).pending = s.pending := by
  unfold report; (repeat' split) <;> simp

@[simp] theorem writeControl_frame (f : ControlFields → ControlFields) (s : State) :
    (writeControl f s).line = s.line ∧ (writeControl f s).tables = s.tables ∧ (writeControl f s).posns = s.posns ∧
    (writeControl f s).screens = s.screens ∧ (writeControl f s).keys = s.keys ∧
    (writeControl f s).drawers = s.drawers ∧ (writeControl f s).groups = s.groups ∧ (writeControl f s).jc = s.jc ∧
    (writeControl f s).day = s.day ∧ (writeControl f s).clock = s.clock ∧ (writeControl f s).store = s.store ∧
    (writeControl f s).queues = s.queues ∧ (writeControl f s).printers = s.printers ∧
    (writeControl f s).engine = s.engine ∧ (writeControl f s).powered = s.powered ∧ (writeControl f s).out = s.out ∧
    (writeControl f s).nvBefore = s.nvBefore ∧ (writeControl f s).freeUsed = s.freeUsed ∧
    (writeControl f s).pending = s.pending := by
  simp [writeControl]

@[simp] theorem lowSpaceCheck_frame (s : State) :
    (lowSpaceCheck s).line.state = s.line.state ∧ (lowSpaceCheck s).line.timer = s.line.timer ∧
    (lowSpaceCheck s).line.framer = s.line.framer ∧ (lowSpaceCheck s).line.sending = s.line.sending ∧
    (lowSpaceCheck s).tables = s.tables ∧ (lowSpaceCheck s).posns = s.posns ∧ (lowSpaceCheck s).screens = s.screens ∧
    (lowSpaceCheck s).keys = s.keys ∧ (lowSpaceCheck s).drawers = s.drawers ∧ (lowSpaceCheck s).groups = s.groups ∧
    (lowSpaceCheck s).nv = s.nv ∧ (lowSpaceCheck s).jc.unreadable = s.jc.unreadable ∧
    (lowSpaceCheck s).jc.replay = s.jc.replay ∧ (lowSpaceCheck s).day = s.day ∧ (lowSpaceCheck s).clock = s.clock ∧
    (lowSpaceCheck s).store = s.store ∧ (lowSpaceCheck s).queues = s.queues ∧
    (lowSpaceCheck s).printers = s.printers ∧ (lowSpaceCheck s).engine = s.engine ∧
    (lowSpaceCheck s).powered = s.powered ∧ (lowSpaceCheck s).out = s.out ∧ (lowSpaceCheck s).nvBefore = s.nvBefore ∧
    (lowSpaceCheck s).nvLog = s.nvLog ∧ (lowSpaceCheck s).freeUsed = s.freeUsed ∧
    (lowSpaceCheck s).pending = s.pending := by
  unfold lowSpaceCheck; (repeat' split) <;> simp

@[simp] theorem appendWith_frame (m : ControlFields → ControlFields) (b : EntryBody) (s : State) :
    (appendWith m b s).line.state = s.line.state ∧ (appendWith m b s).line.timer = s.line.timer ∧
    (appendWith m b s).line.framer = s.line.framer ∧ (appendWith m b s).line.sending = s.line.sending ∧
    (appendWith m b s).tables = s.tables ∧ (appendWith m b s).posns = s.posns ∧
    (appendWith m b s).screens = s.screens ∧ (appendWith m b s).keys = s.keys ∧
    (appendWith m b s).drawers = s.drawers ∧ (appendWith m b s).groups = s.groups ∧
    (appendWith m b s).jc.unreadable = s.jc.unreadable ∧ (appendWith m b s).jc.replay = s.jc.replay ∧
    (appendWith m b s).day = s.day ∧ (appendWith m b s).clock = s.clock ∧ (appendWith m b s).store = s.store ∧
    (appendWith m b s).queues = s.queues ∧ (appendWith m b s).printers = s.printers ∧
    (appendWith m b s).engine = s.engine ∧ (appendWith m b s).powered = s.powered ∧ (appendWith m b s).out = s.out ∧
    (appendWith m b s).nvBefore = s.nvBefore ∧ (appendWith m b s).freeUsed = s.freeUsed ∧
    (appendWith m b s).pending = s.pending := by
  unfold appendWith; dsimp only; split <;> simp

@[simp] theorem append_frame (b : EntryBody) (s : State) :
    (append b s).line.state = s.line.state ∧ (append b s).line.timer = s.line.timer ∧
    (append b s).line.framer = s.line.framer ∧ (append b s).line.sending = s.line.sending ∧
    (append b s).tables = s.tables ∧ (append b s).posns = s.posns ∧ (append b s).screens = s.screens ∧
    (append b s).keys = s.keys ∧ (append b s).drawers = s.drawers ∧ (append b s).groups = s.groups ∧
    (append b s).jc.unreadable = s.jc.unreadable ∧ (append b s).jc.replay = s.jc.replay ∧ (append b s).day = s.day ∧
    (append b s).clock = s.clock ∧ (append b s).store = s.store ∧ (append b s).queues = s.queues ∧
    (append b s).printers = s.printers ∧ (append b s).engine = s.engine ∧ (append b s).powered = s.powered ∧
    (append b s).out = s.out ∧ (append b s).nvBefore = s.nvBefore ∧ (append b s).freeUsed = s.freeUsed ∧
    (append b s).pending = s.pending := by
  simp [append]

@[simp] theorem appendAll_frame (bs : List EntryBody) (s : State) :
    (appendAll bs s).line.state = s.line.state ∧ (appendAll bs s).line.timer = s.line.timer ∧
    (appendAll bs s).line.framer = s.line.framer ∧ (appendAll bs s).line.sending = s.line.sending ∧
    (appendAll bs s).tables = s.tables ∧ (appendAll bs s).posns = s.posns ∧ (appendAll bs s).screens = s.screens ∧
    (appendAll bs s).keys = s.keys ∧ (appendAll bs s).drawers = s.drawers ∧ (appendAll bs s).groups = s.groups ∧
    (appendAll bs s).jc.unreadable = s.jc.unreadable ∧ (appendAll bs s).jc.replay = s.jc.replay ∧
    (appendAll bs s).day = s.day ∧ (appendAll bs s).clock = s.clock ∧ (appendAll bs s).store = s.store ∧
    (appendAll bs s).queues = s.queues ∧ (appendAll bs s).printers = s.printers ∧ (appendAll bs s).engine = s.engine ∧
    (appendAll bs s).powered = s.powered ∧ (appendAll bs s).out = s.out ∧ (appendAll bs s).nvBefore = s.nvBefore ∧
    (appendAll bs s).freeUsed = s.freeUsed ∧ (appendAll bs s).pending = s.pending := by
  unfold appendAll
  simpa using foldl_keeps (fun x : State => (x.line.state, x.line.timer, x.line.framer, x.line.sending, x.tables, x.posns, x.screens, x.keys,
      x.drawers, x.groups, x.jc.unreadable, x.jc.replay, x.day, x.clock, x.store, x.queues, x.printers,
      x.engine, x.powered, x.out, x.nvBefore, x.freeUsed, x.pending))
      (fun s b => append b s) (by intros; simp) bs s

@[simp] theorem placeMidnight_frame (c : CapClass) (s : State) :
    (placeMidnight c s).line.state = s.line.state ∧ (placeMidnight c s).line.timer = s.line.timer ∧
    (placeMidnight c s).line.framer = s.line.framer ∧ (placeMidnight c s).line.sending = s.line.sending ∧
    (placeMidnight c s).tables = s.tables ∧ (placeMidnight c s).posns = s.posns ∧
    (placeMidnight c s).screens = s.screens ∧ (placeMidnight c s).keys = s.keys ∧
    (placeMidnight c s).drawers = s.drawers ∧ (placeMidnight c s).groups = s.groups ∧
    (placeMidnight c s).jc.unreadable = s.jc.unreadable ∧ (placeMidnight c s).jc.replay = s.jc.replay ∧
    (placeMidnight c s).day = s.day ∧ (placeMidnight c s).clock.time = s.clock.time ∧
    (placeMidnight c s).clock.isSet = s.clock.isSet ∧ (placeMidnight c s).store = s.store ∧
    (placeMidnight c s).queues = s.queues ∧ (placeMidnight c s).printers = s.printers ∧
    (placeMidnight c s).engine = s.engine ∧ (placeMidnight c s).powered = s.powered ∧
    (placeMidnight c s).out = s.out ∧ (placeMidnight c s).nvBefore = s.nvBefore ∧
    (placeMidnight c s).freeUsed = s.freeUsed ∧ (placeMidnight c s).pending = s.pending := by
  unfold placeMidnight; (repeat' split) <;> simp

@[simp] theorem changePrint_frame (q : Nat) (n : PrintState) (s : State) :
    (changePrint q n s).line = s.line ∧ (changePrint q n s).tables = s.tables ∧ (changePrint q n s).posns = s.posns ∧
    (changePrint q n s).screens = s.screens ∧ (changePrint q n s).keys = s.keys ∧
    (changePrint q n s).drawers = s.drawers ∧ (changePrint q n s).groups = s.groups ∧ (changePrint q n s).jc = s.jc ∧
    (changePrint q n s).day = s.day ∧ (changePrint q n s).clock = s.clock ∧ (changePrint q n s).store = s.store ∧
    (changePrint q n s).queues = s.queues ∧ (changePrint q n s).printers = s.printers ∧
    (changePrint q n s).engine = s.engine ∧ (changePrint q n s).powered = s.powered ∧
    (changePrint q n s).out = s.out ∧ (changePrint q n s).nvBefore = s.nvBefore ∧
    (changePrint q n s).freeUsed = s.freeUsed ∧ (changePrint q n s).pending = s.pending := by
  unfold changePrint; (repeat' split) <;> simp

@[simp] theorem changeForward_frame (q : Nat) (s : State) :
    (changeForward q s).line = s.line ∧ (changeForward q s).tables = s.tables ∧ (changeForward q s).posns = s.posns ∧
    (changeForward q s).screens = s.screens ∧ (changeForward q s).keys = s.keys ∧
    (changeForward q s).drawers = s.drawers ∧ (changeForward q s).groups = s.groups ∧
    (changeForward q s).jc.unreadable = s.jc.unreadable ∧ (changeForward q s).jc.replay = s.jc.replay ∧
    (changeForward q s).day = s.day ∧ (changeForward q s).clock = s.clock ∧ (changeForward q s).store = s.store ∧
    (changeForward q s).queues = s.queues ∧ (changeForward q s).printers = s.printers ∧
    (changeForward q s).engine = s.engine ∧ (changeForward q s).powered = s.powered ∧
    (changeForward q s).out = s.out ∧ (changeForward q s).nvBefore = s.nvBefore ∧
    (changeForward q s).freeUsed = s.freeUsed ∧ (changeForward q s).pending = s.pending := by
  unfold changeForward; (repeat' split) <;> simp

@[simp] theorem setDelivered_frame (n : Nat) (s : State) :
    (setDelivered n s).line = s.line ∧ (setDelivered n s).tables = s.tables ∧ (setDelivered n s).posns = s.posns ∧
    (setDelivered n s).screens = s.screens ∧ (setDelivered n s).keys = s.keys ∧
    (setDelivered n s).drawers = s.drawers ∧ (setDelivered n s).groups = s.groups ∧ (setDelivered n s).jc = s.jc ∧
    (setDelivered n s).day = s.day ∧ (setDelivered n s).clock = s.clock ∧ (setDelivered n s).store = s.store ∧
    (setDelivered n s).queues = s.queues ∧ (setDelivered n s).printers = s.printers ∧
    (setDelivered n s).engine = s.engine ∧ (setDelivered n s).powered = s.powered ∧ (setDelivered n s).out = s.out ∧
    (setDelivered n s).nvBefore = s.nvBefore ∧ (setDelivered n s).freeUsed = s.freeUsed ∧
    (setDelivered n s).pending = s.pending := by
  unfold setDelivered; dsimp only; split <;> simp

@[simp] theorem makeInDoubt_frame (p : Pos) (st : PState) (s : State) :
    (makeInDoubt p st s).line = s.line ∧ (makeInDoubt p st s).tables = s.tables ∧
    (makeInDoubt p st s).drawers = s.drawers ∧ (makeInDoubt p st s).groups = s.groups ∧
    (makeInDoubt p st s).nv = s.nv ∧ (makeInDoubt p st s).jc = s.jc ∧ (makeInDoubt p st s).day = s.day ∧
    (makeInDoubt p st s).clock = s.clock ∧ (makeInDoubt p st s).store = s.store ∧
    (makeInDoubt p st s).queues = s.queues ∧ (makeInDoubt p st s).printers = s.printers ∧
    (makeInDoubt p st s).engine = s.engine ∧ (makeInDoubt p st s).powered = s.powered ∧
    (makeInDoubt p st s).out = s.out ∧ (makeInDoubt p st s).nvBefore = s.nvBefore ∧
    (makeInDoubt p st s).nvLog = s.nvLog ∧ (makeInDoubt p st s).freeUsed = s.freeUsed ∧
    (makeInDoubt p st s).pending = s.pending := by
  simp [makeInDoubt]

@[simp] theorem release_frame (p : Pos) (s : State) :
    (release p s).line = s.line ∧ (release p s).tables = s.tables ∧ (release p s).drawers = s.drawers ∧
    (release p s).groups = s.groups ∧ (release p s).nv = s.nv ∧ (release p s).jc = s.jc ∧ (release p s).day = s.day ∧
    (release p s).clock = s.clock ∧ (release p s).store = s.store ∧ (release p s).queues = s.queues ∧
    (release p s).printers = s.printers ∧ (release p s).engine = s.engine ∧ (release p s).powered = s.powered ∧
    (release p s).out = s.out ∧ (release p s).nvBefore = s.nvBefore ∧ (release p s).nvLog = s.nvLog ∧
    (release p s).freeUsed = s.freeUsed ∧ (release p s).pending = s.pending := by
  unfold release; (repeat' split) <;> simp

@[simp] theorem showForm_frame (p : Pos) (n : Fin 32) (d : FormDesc) (s : State) :
    (showForm p n d s).line = s.line ∧ (showForm p n d s).tables = s.tables ∧ (showForm p n d s).posns = s.posns ∧
    (showForm p n d s).drawers = s.drawers ∧ (showForm p n d s).groups = s.groups ∧ (showForm p n d s).nv = s.nv ∧
    (showForm p n d s).jc = s.jc ∧ (showForm p n d s).day = s.day ∧ (showForm p n d s).clock = s.clock ∧
    (showForm p n d s).store = s.store ∧ (showForm p n d s).queues = s.queues ∧
    (showForm p n d s).printers = s.printers ∧ (showForm p n d s).engine = s.engine ∧
    (showForm p n d s).powered = s.powered ∧ (showForm p n d s).out = s.out ∧
    (showForm p n d s).nvBefore = s.nvBefore ∧ (showForm p n d s).nvLog = s.nvLog ∧
    (showForm p n d s).freeUsed = s.freeUsed ∧ (showForm p n d s).pending = s.pending := by
  simp [showForm]

@[simp] theorem clearArea_frame (p : Pos) (s : State) :
    (clearArea p s).line = s.line ∧ (clearArea p s).tables = s.tables ∧ (clearArea p s).posns = s.posns ∧
    (clearArea p s).drawers = s.drawers ∧ (clearArea p s).groups = s.groups ∧ (clearArea p s).nv = s.nv ∧
    (clearArea p s).jc = s.jc ∧ (clearArea p s).day = s.day ∧ (clearArea p s).clock = s.clock ∧
    (clearArea p s).store = s.store ∧ (clearArea p s).queues = s.queues ∧ (clearArea p s).printers = s.printers ∧
    (clearArea p s).engine = s.engine ∧ (clearArea p s).powered = s.powered ∧ (clearArea p s).out = s.out ∧
    (clearArea p s).nvBefore = s.nvBefore ∧ (clearArea p s).nvLog = s.nvLog ∧ (clearArea p s).freeUsed = s.freeUsed ∧
    (clearArea p s).pending = s.pending := by
  simp [clearArea]

@[simp] theorem showByPart_frame (p : Pos) (f : Option (Fin 32)) (s : State) :
    (showByPart p f s).line = s.line ∧ (showByPart p f s).tables = s.tables ∧ (showByPart p f s).posns = s.posns ∧
    (showByPart p f s).drawers = s.drawers ∧ (showByPart p f s).groups = s.groups ∧ (showByPart p f s).nv = s.nv ∧
    (showByPart p f s).jc = s.jc ∧ (showByPart p f s).day = s.day ∧ (showByPart p f s).clock = s.clock ∧
    (showByPart p f s).store = s.store ∧ (showByPart p f s).queues = s.queues ∧
    (showByPart p f s).printers = s.printers ∧ (showByPart p f s).engine = s.engine ∧
    (showByPart p f s).powered = s.powered ∧ (showByPart p f s).out = s.out ∧
    (showByPart p f s).nvBefore = s.nvBefore ∧ (showByPart p f s).nvLog = s.nvLog ∧
    (showByPart p f s).freeUsed = s.freeUsed ∧ (showByPart p f s).pending = s.pending := by
  unfold showByPart; (repeat' split) <;> simp

@[simp] theorem signOffPos_frame (p : Pos) (s : State) :
    (signOffPos p s).line = s.line ∧ (signOffPos p s).tables = s.tables ∧ (signOffPos p s).groups = s.groups ∧
    (signOffPos p s).nv = s.nv ∧ (signOffPos p s).jc = s.jc ∧ (signOffPos p s).day = s.day ∧
    (signOffPos p s).clock = s.clock ∧ (signOffPos p s).store = s.store ∧ (signOffPos p s).queues = s.queues ∧
    (signOffPos p s).printers = s.printers ∧ (signOffPos p s).engine = s.engine ∧
    (signOffPos p s).powered = s.powered ∧ (signOffPos p s).out = s.out ∧ (signOffPos p s).nvBefore = s.nvBefore ∧
    (signOffPos p s).nvLog = s.nvLog ∧ (signOffPos p s).freeUsed = s.freeUsed ∧ (signOffPos p s).pending = s.pending := by
  unfold signOffPos; dsimp only; split <;> simp

@[simp] theorem setCursor_frame (p : Pos) (i x : Nat) (s : State) :
    (setCursor p i x s).line = s.line ∧ (setCursor p i x s).tables = s.tables ∧ (setCursor p i x s).posns = s.posns ∧
    (setCursor p i x s).drawers = s.drawers ∧ (setCursor p i x s).groups = s.groups ∧ (setCursor p i x s).nv = s.nv ∧
    (setCursor p i x s).jc = s.jc ∧ (setCursor p i x s).day = s.day ∧ (setCursor p i x s).clock = s.clock ∧
    (setCursor p i x s).store = s.store ∧ (setCursor p i x s).queues = s.queues ∧
    (setCursor p i x s).printers = s.printers ∧ (setCursor p i x s).engine = s.engine ∧
    (setCursor p i x s).powered = s.powered ∧ (setCursor p i x s).out = s.out ∧
    (setCursor p i x s).nvBefore = s.nvBefore ∧ (setCursor p i x s).nvLog = s.nvLog ∧
    (setCursor p i x s).freeUsed = s.freeUsed ∧ (setCursor p i x s).pending = s.pending := by
  unfold setCursor; dsimp only; (repeat' split) <;> simp

@[simp] theorem cursorToFirst_frame (p : Pos) (s : State) :
    (cursorToFirst p s).line = s.line ∧ (cursorToFirst p s).tables = s.tables ∧ (cursorToFirst p s).posns = s.posns ∧
    (cursorToFirst p s).drawers = s.drawers ∧ (cursorToFirst p s).groups = s.groups ∧ (cursorToFirst p s).nv = s.nv ∧
    (cursorToFirst p s).jc = s.jc ∧ (cursorToFirst p s).day = s.day ∧ (cursorToFirst p s).clock = s.clock ∧
    (cursorToFirst p s).store = s.store ∧ (cursorToFirst p s).queues = s.queues ∧
    (cursorToFirst p s).printers = s.printers ∧ (cursorToFirst p s).engine = s.engine ∧
    (cursorToFirst p s).powered = s.powered ∧ (cursorToFirst p s).out = s.out ∧
    (cursorToFirst p s).nvBefore = s.nvBefore ∧ (cursorToFirst p s).nvLog = s.nvLog ∧
    (cursorToFirst p s).freeUsed = s.freeUsed ∧ (cursorToFirst p s).pending = s.pending := by
  unfold cursorToFirst; (repeat' split) <;> simp

@[simp] theorem setValue_frame (p : Pos) (i : Nat) (v : List Byte) (s : State) :
    (setValue p i v s).line = s.line ∧ (setValue p i v s).tables = s.tables ∧ (setValue p i v s).posns = s.posns ∧
    (setValue p i v s).drawers = s.drawers ∧ (setValue p i v s).groups = s.groups ∧ (setValue p i v s).nv = s.nv ∧
    (setValue p i v s).jc = s.jc ∧ (setValue p i v s).day = s.day ∧ (setValue p i v s).clock = s.clock ∧
    (setValue p i v s).store = s.store ∧ (setValue p i v s).queues = s.queues ∧
    (setValue p i v s).printers = s.printers ∧ (setValue p i v s).engine = s.engine ∧
    (setValue p i v s).powered = s.powered ∧ (setValue p i v s).out = s.out ∧
    (setValue p i v s).nvBefore = s.nvBefore ∧ (setValue p i v s).nvLog = s.nvLog ∧
    (setValue p i v s).freeUsed = s.freeUsed ∧ (setValue p i v s).pending = s.pending := by
  unfold setValue; (repeat' split) <;> simp

@[simp] theorem resetField_frame (p : Pos) (fs : List FieldDesc) (s : State) (i : Nat) :
    (resetField p fs s i).line = s.line ∧ (resetField p fs s i).tables = s.tables ∧
    (resetField p fs s i).posns = s.posns ∧ (resetField p fs s i).drawers = s.drawers ∧
    (resetField p fs s i).groups = s.groups ∧ (resetField p fs s i).nv = s.nv ∧ (resetField p fs s i).jc = s.jc ∧
    (resetField p fs s i).day = s.day ∧ (resetField p fs s i).clock = s.clock ∧
    (resetField p fs s i).store = s.store ∧ (resetField p fs s i).queues = s.queues ∧
    (resetField p fs s i).printers = s.printers ∧ (resetField p fs s i).engine = s.engine ∧
    (resetField p fs s i).powered = s.powered ∧ (resetField p fs s i).out = s.out ∧
    (resetField p fs s i).nvBefore = s.nvBefore ∧ (resetField p fs s i).nvLog = s.nvLog ∧
    (resetField p fs s i).freeUsed = s.freeUsed ∧ (resetField p fs s i).pending = s.pending := by
  unfold resetField; (repeat' split) <;> simp

@[simp] theorem clearForm_frame (p : Pos) (s : State) :
    (clearForm p s).line = s.line ∧ (clearForm p s).tables = s.tables ∧ (clearForm p s).posns = s.posns ∧
    (clearForm p s).drawers = s.drawers ∧ (clearForm p s).groups = s.groups ∧ (clearForm p s).nv = s.nv ∧
    (clearForm p s).jc = s.jc ∧ (clearForm p s).day = s.day ∧ (clearForm p s).clock = s.clock ∧
    (clearForm p s).store = s.store ∧ (clearForm p s).queues = s.queues ∧ (clearForm p s).printers = s.printers ∧
    (clearForm p s).engine = s.engine ∧ (clearForm p s).powered = s.powered ∧ (clearForm p s).out = s.out ∧
    (clearForm p s).nvBefore = s.nvBefore ∧ (clearForm p s).nvLog = s.nvLog ∧ (clearForm p s).freeUsed = s.freeUsed ∧
    (clearForm p s).pending = s.pending := by
  unfold clearForm
  simpa using foldl_keeps (fun x : State => (x.line, x.tables, x.posns, x.drawers, x.groups, x.nv, x.jc, x.day, x.clock, x.store, x.queues,
      x.printers, x.engine, x.powered, x.out, x.nvBefore, x.nvLog, x.freeUsed, x.pending))
      (resetField p (currentFields s p)) (by intros; simp) (List.range (currentFields s p).length) s

@[simp] theorem noticeByte_frame (p : Pos) (a : Attr) (s : State) (b : Byte) :
    (noticeByte p a s b).line = s.line ∧ (noticeByte p a s b).tables = s.tables ∧
    (noticeByte p a s b).posns = s.posns ∧ (noticeByte p a s b).keys = s.keys ∧
    (noticeByte p a s b).drawers = s.drawers ∧ (noticeByte p a s b).groups = s.groups ∧
    (noticeByte p a s b).nv = s.nv ∧ (noticeByte p a s b).jc = s.jc ∧ (noticeByte p a s b).day = s.day ∧
    (noticeByte p a s b).clock = s.clock ∧ (noticeByte p a s b).store = s.store ∧
    (noticeByte p a s b).queues = s.queues ∧ (noticeByte p a s b).printers = s.printers ∧
    (noticeByte p a s b).engine = s.engine ∧ (noticeByte p a s b).powered = s.powered ∧
    (noticeByte p a s b).nvBefore = s.nvBefore ∧ (noticeByte p a s b).nvLog = s.nvLog ∧
    (noticeByte p a s b).freeUsed = s.freeUsed ∧ (noticeByte p a s b).pending = s.pending := by
  unfold noticeByte; (repeat' split) <;> simp

@[simp] theorem noticeWrites_frame (p : Pos) (a : Attr) (t : List Byte) (s : State) :
    (noticeWrites p a t s).line = s.line ∧ (noticeWrites p a t s).tables = s.tables ∧
    (noticeWrites p a t s).posns = s.posns ∧ (noticeWrites p a t s).keys = s.keys ∧
    (noticeWrites p a t s).drawers = s.drawers ∧ (noticeWrites p a t s).groups = s.groups ∧
    (noticeWrites p a t s).nv = s.nv ∧ (noticeWrites p a t s).jc = s.jc ∧ (noticeWrites p a t s).day = s.day ∧
    (noticeWrites p a t s).clock = s.clock ∧ (noticeWrites p a t s).store = s.store ∧
    (noticeWrites p a t s).queues = s.queues ∧ (noticeWrites p a t s).printers = s.printers ∧
    (noticeWrites p a t s).engine = s.engine ∧ (noticeWrites p a t s).powered = s.powered ∧
    (noticeWrites p a t s).nvBefore = s.nvBefore ∧ (noticeWrites p a t s).nvLog = s.nvLog ∧
    (noticeWrites p a t s).freeUsed = s.freeUsed ∧ (noticeWrites p a t s).pending = s.pending := by
  unfold noticeWrites
  simpa using foldl_keeps (fun x : State => (x.line, x.tables, x.posns, x.keys, x.drawers, x.groups, x.nv, x.jc, x.day, x.clock, x.store,
      x.queues, x.printers, x.engine, x.powered, x.nvBefore, x.nvLog, x.freeUsed, x.pending))
      (noticeByte p a) (by intros; simp) t (s.updScreen p (Screen.setReview 0))

@[simp] theorem finishScreen_frame (h : Hdr) (p : Pos) (u : Bool) (s : State) :
    (finishScreen h p u s).line.state = s.line.state ∧ (finishScreen h p u s).line.timer = s.line.timer ∧
    (finishScreen h p u s).line.framer = s.line.framer ∧ (finishScreen h p u s).line.sending = s.line.sending ∧
    (finishScreen h p u s).tables = s.tables ∧ (finishScreen h p u s).drawers = s.drawers ∧
    (finishScreen h p u s).groups = s.groups ∧ (finishScreen h p u s).nv = s.nv ∧ (finishScreen h p u s).jc = s.jc ∧
    (finishScreen h p u s).day = s.day ∧ (finishScreen h p u s).clock = s.clock ∧
    (finishScreen h p u s).store = s.store ∧ (finishScreen h p u s).queues = s.queues ∧
    (finishScreen h p u s).printers = s.printers ∧ (finishScreen h p u s).engine = s.engine ∧
    (finishScreen h p u s).powered = s.powered ∧ (finishScreen h p u s).out = s.out ∧
    (finishScreen h p u s).nvBefore = s.nvBefore ∧ (finishScreen h p u s).nvLog = s.nvLog ∧
    (finishScreen h p u s).freeUsed = s.freeUsed ∧ (finishScreen h p u s).pending = s.pending := by
  cases u <;> simp [finishScreen]

@[simp] theorem paintWrites_frame (p : Pos) (b : PaintBody) (s : State) :
    (paintWrites p b s).line = s.line ∧ (paintWrites p b s).tables = s.tables ∧ (paintWrites p b s).posns = s.posns ∧
    (paintWrites p b s).drawers = s.drawers ∧ (paintWrites p b s).groups = s.groups ∧ (paintWrites p b s).nv = s.nv ∧
    (paintWrites p b s).jc = s.jc ∧ (paintWrites p b s).day = s.day ∧ (paintWrites p b s).clock = s.clock ∧
    (paintWrites p b s).store = s.store ∧ (paintWrites p b s).queues = s.queues ∧
    (paintWrites p b s).printers = s.printers ∧ (paintWrites p b s).engine = s.engine ∧
    (paintWrites p b s).powered = s.powered ∧ (paintWrites p b s).out = s.out ∧
    (paintWrites p b s).nvBefore = s.nvBefore ∧ (paintWrites p b s).nvLog = s.nvLog ∧
    (paintWrites p b s).freeUsed = s.freeUsed ∧ (paintWrites p b s).pending = s.pending := by
  unfold paintWrites; dsimp only; split <;> simp

@[simp] theorem applyLegs_frame (gs : List Leg) (s : State) :
    (applyLegs gs s).line = s.line ∧ (applyLegs gs s).tables = s.tables ∧ (applyLegs gs s).posns = s.posns ∧
    (applyLegs gs s).screens = s.screens ∧ (applyLegs gs s).keys = s.keys ∧ (applyLegs gs s).groups = s.groups ∧
    (applyLegs gs s).nv = s.nv ∧ (applyLegs gs s).jc = s.jc ∧ (applyLegs gs s).day = s.day ∧
    (applyLegs gs s).clock = s.clock ∧ (applyLegs gs s).store = s.store ∧ (applyLegs gs s).queues = s.queues ∧
    (applyLegs gs s).printers = s.printers ∧ (applyLegs gs s).engine = s.engine ∧
    (applyLegs gs s).powered = s.powered ∧ (applyLegs gs s).out = s.out ∧ (applyLegs gs s).nvBefore = s.nvBefore ∧
    (applyLegs gs s).nvLog = s.nvLog ∧ (applyLegs gs s).freeUsed = s.freeUsed ∧ (applyLegs gs s).pending = s.pending := by
  unfold applyLegs
  simpa using foldl_keeps (fun x : State => (x.line, x.tables, x.posns, x.screens, x.keys, x.groups, x.nv, x.jc, x.day, x.clock, x.store,
      x.queues, x.printers, x.engine, x.powered, x.out, x.nvBefore, x.nvLog, x.freeUsed, x.pending))
      (fun s g => applyLeg g s) (by intros; simp) gs s

@[simp] theorem captureOne_frame (k : BalKind) (l : Option Pos) (p : Pos) (s : State) :
    (captureOne k l p s).line.state = s.line.state ∧ (captureOne k l p s).line.timer = s.line.timer ∧
    (captureOne k l p s).line.framer = s.line.framer ∧ (captureOne k l p s).line.sending = s.line.sending ∧
    (captureOne k l p s).tables = s.tables ∧ (captureOne k l p s).posns = s.posns ∧
    (captureOne k l p s).screens = s.screens ∧ (captureOne k l p s).keys = s.keys ∧
    (captureOne k l p s).groups = s.groups ∧ (captureOne k l p s).jc.unreadable = s.jc.unreadable ∧
    (captureOne k l p s).jc.replay = s.jc.replay ∧ (captureOne k l p s).day = s.day ∧
    (captureOne k l p s).clock = s.clock ∧ (captureOne k l p s).store = s.store ∧
    (captureOne k l p s).queues = s.queues ∧ (captureOne k l p s).printers = s.printers ∧
    (captureOne k l p s).engine = s.engine ∧ (captureOne k l p s).powered = s.powered ∧
    (captureOne k l p s).out = s.out ∧ (captureOne k l p s).nvBefore = s.nvBefore ∧
    (captureOne k l p s).freeUsed = s.freeUsed ∧ (captureOne k l p s).pending = s.pending := by
  simp [captureOne]

@[simp] theorem beginBalance_frame (k : BalKind) (l : Option Pos) (p : Pos) (s : State) :
    (beginBalance k l p s).line = s.line ∧ (beginBalance k l p s).tables = s.tables ∧
    (beginBalance k l p s).groups = s.groups ∧ (beginBalance k l p s).nv = s.nv ∧ (beginBalance k l p s).jc = s.jc ∧
    (beginBalance k l p s).day = s.day ∧ (beginBalance k l p s).clock = s.clock ∧
    (beginBalance k l p s).store = s.store ∧ (beginBalance k l p s).queues = s.queues ∧
    (beginBalance k l p s).printers = s.printers ∧ (beginBalance k l p s).engine = s.engine ∧
    (beginBalance k l p s).powered = s.powered ∧ (beginBalance k l p s).out = s.out ∧
    (beginBalance k l p s).nvBefore = s.nvBefore ∧ (beginBalance k l p s).nvLog = s.nvLog ∧
    (beginBalance k l p s).freeUsed = s.freeUsed ∧ (beginBalance k l p s).pending = s.pending := by
  unfold beginBalance; dsimp only; split <;> simp

@[simp] theorem singleBalance_frame (k : BalKind) (p : Pos) (s : State) :
    (singleBalance k p s).line.state = s.line.state ∧ (singleBalance k p s).line.timer = s.line.timer ∧
    (singleBalance k p s).line.framer = s.line.framer ∧ (singleBalance k p s).line.sending = s.line.sending ∧
    (singleBalance k p s).tables = s.tables ∧ (singleBalance k p s).groups = s.groups ∧
    (singleBalance k p s).jc.unreadable = s.jc.unreadable ∧ (singleBalance k p s).jc.replay = s.jc.replay ∧
    (singleBalance k p s).day = s.day ∧ (singleBalance k p s).clock.time = s.clock.time ∧
    (singleBalance k p s).clock.isSet = s.clock.isSet ∧ (singleBalance k p s).store = s.store ∧
    (singleBalance k p s).queues = s.queues ∧ (singleBalance k p s).printers = s.printers ∧
    (singleBalance k p s).engine = s.engine ∧ (singleBalance k p s).powered = s.powered ∧
    (singleBalance k p s).out = s.out ∧ (singleBalance k p s).nvBefore = s.nvBefore ∧
    (singleBalance k p s).freeUsed = s.freeUsed ∧ (singleBalance k p s).pending = s.pending := by
  simp [singleBalance]

@[simp] theorem completeGroup_frame (l : Pos) (g : GroupRec) (s : State) :
    (completeGroup l g s).line.state = s.line.state ∧ (completeGroup l g s).line.timer = s.line.timer ∧
    (completeGroup l g s).line.framer = s.line.framer ∧ (completeGroup l g s).line.sending = s.line.sending ∧
    (completeGroup l g s).tables = s.tables ∧ (completeGroup l g s).posns = s.posns ∧
    (completeGroup l g s).screens = s.screens ∧ (completeGroup l g s).keys = s.keys ∧
    (completeGroup l g s).drawers = s.drawers ∧ (completeGroup l g s).jc.unreadable = s.jc.unreadable ∧
    (completeGroup l g s).jc.replay = s.jc.replay ∧ (completeGroup l g s).day = s.day ∧
    (completeGroup l g s).clock = s.clock ∧ (completeGroup l g s).store = s.store ∧
    (completeGroup l g s).queues = s.queues ∧ (completeGroup l g s).printers = s.printers ∧
    (completeGroup l g s).engine = s.engine ∧ (completeGroup l g s).powered = s.powered ∧
    (completeGroup l g s).out = s.out ∧ (completeGroup l g s).nvBefore = s.nvBefore ∧
    (completeGroup l g s).freeUsed = s.freeUsed ∧ (completeGroup l g s).pending = s.pending := by
  simp [completeGroup]

@[simp] theorem leaveGroup_frame (p : Pos) (l : Option Pos) (a : Bool) (s : State) :
    (leaveGroup p l a s).line.state = s.line.state ∧ (leaveGroup p l a s).line.timer = s.line.timer ∧
    (leaveGroup p l a s).line.framer = s.line.framer ∧ (leaveGroup p l a s).line.sending = s.line.sending ∧
    (leaveGroup p l a s).tables = s.tables ∧ (leaveGroup p l a s).posns = s.posns ∧
    (leaveGroup p l a s).screens = s.screens ∧ (leaveGroup p l a s).keys = s.keys ∧
    (leaveGroup p l a s).drawers = s.drawers ∧ (leaveGroup p l a s).jc.unreadable = s.jc.unreadable ∧
    (leaveGroup p l a s).jc.replay = s.jc.replay ∧ (leaveGroup p l a s).day = s.day ∧
    (leaveGroup p l a s).clock = s.clock ∧ (leaveGroup p l a s).store = s.store ∧
    (leaveGroup p l a s).queues = s.queues ∧ (leaveGroup p l a s).printers = s.printers ∧
    (leaveGroup p l a s).engine = s.engine ∧ (leaveGroup p l a s).powered = s.powered ∧
    (leaveGroup p l a s).out = s.out ∧ (leaveGroup p l a s).nvBefore = s.nvBefore ∧
    (leaveGroup p l a s).freeUsed = s.freeUsed ∧ (leaveGroup p l a s).pending = s.pending := by
  unfold leaveGroup; dsimp only; (repeat' split) <;> simp

@[simp] theorem groupBalanceEvent_frame (k : BalKind) (l : Pos) (s : State) :
    (groupBalanceEvent k l s).line.state = s.line.state ∧ (groupBalanceEvent k l s).line.timer = s.line.timer ∧
    (groupBalanceEvent k l s).line.framer = s.line.framer ∧ (groupBalanceEvent k l s).line.sending = s.line.sending ∧
    (groupBalanceEvent k l s).tables = s.tables ∧ (groupBalanceEvent k l s).jc.unreadable = s.jc.unreadable ∧
    (groupBalanceEvent k l s).jc.replay = s.jc.replay ∧ (groupBalanceEvent k l s).day = s.day ∧
    (groupBalanceEvent k l s).clock.time = s.clock.time ∧ (groupBalanceEvent k l s).clock.isSet = s.clock.isSet ∧
    (groupBalanceEvent k l s).store = s.store ∧ (groupBalanceEvent k l s).queues = s.queues ∧
    (groupBalanceEvent k l s).printers = s.printers ∧ (groupBalanceEvent k l s).engine = s.engine ∧
    (groupBalanceEvent k l s).powered = s.powered ∧ (groupBalanceEvent k l s).out = s.out ∧
    (groupBalanceEvent k l s).nvBefore = s.nvBefore ∧ (groupBalanceEvent k l s).freeUsed = s.freeUsed ∧
    (groupBalanceEvent k l s).pending = s.pending := by
  have h1 (g : List Pos) (t : State) := foldl_keeps (fun x : State => (x.line.state, x.line.timer, x.line.framer, x.line.sending, x.tables, x.posns, x.screens, x.keys,
      x.groups, x.jc.unreadable, x.jc.replay, x.day, x.clock, x.store, x.queues, x.printers, x.engine,
      x.powered, x.out, x.nvBefore, x.freeUsed, x.pending))
      (fun s q => captureOne k (some l) q s) (by intros; simp) g t
  have h2 (g : List Pos) (t : State) := foldl_keeps (fun x : State => (x.line, x.tables, x.groups, x.nv, x.jc, x.day, x.clock, x.store, x.queues, x.printers, x.engine,
      x.powered, x.out, x.nvBefore, x.nvLog, x.freeUsed, x.pending))
      (fun s q => beginBalance k (some l) q s) (by intros; simp) g t
  simp only [Prod.mk.injEq] at h1 h2
  unfold groupBalanceEvent; dsimp only; split <;> simp [h1, h2]

@[simp] theorem refuseDeclaration_frame (p : Pos) (st : Status) (f : Option Nat) (s : State) :
    (refuseDeclaration p st f s).line = s.line ∧ (refuseDeclaration p st f s).tables = s.tables ∧
    (refuseDeclaration p st f s).posns = s.posns ∧ (refuseDeclaration p st f s).drawers = s.drawers ∧
    (refuseDeclaration p st f s).groups = s.groups ∧ (refuseDeclaration p st f s).nv = s.nv ∧
    (refuseDeclaration p st f s).jc = s.jc ∧ (refuseDeclaration p st f s).day = s.day ∧
    (refuseDeclaration p st f s).clock = s.clock ∧ (refuseDeclaration p st f s).store = s.store ∧
    (refuseDeclaration p st f s).queues = s.queues ∧ (refuseDeclaration p st f s).printers = s.printers ∧
    (refuseDeclaration p st f s).engine = s.engine ∧ (refuseDeclaration p st f s).powered = s.powered ∧
    (refuseDeclaration p st f s).nvBefore = s.nvBefore ∧ (refuseDeclaration p st f s).nvLog = s.nvLog ∧
    (refuseDeclaration p st f s).freeUsed = s.freeUsed ∧ (refuseDeclaration p st f s).pending = s.pending := by
  cases f <;> simp [refuseDeclaration]

@[simp] theorem takeDeclaration_frame (p : Pos) (c : BalCtx) (r : DeclRec) (s : State) :
    (takeDeclaration p c r s).line.state = s.line.state ∧ (takeDeclaration p c r s).line.timer = s.line.timer ∧
    (takeDeclaration p c r s).line.framer = s.line.framer ∧ (takeDeclaration p c r s).line.sending = s.line.sending ∧
    (takeDeclaration p c r s).tables = s.tables ∧ (takeDeclaration p c r s).jc.unreadable = s.jc.unreadable ∧
    (takeDeclaration p c r s).jc.replay = s.jc.replay ∧ (takeDeclaration p c r s).day = s.day ∧
    (takeDeclaration p c r s).clock.time = s.clock.time ∧ (takeDeclaration p c r s).clock.isSet = s.clock.isSet ∧
    (takeDeclaration p c r s).store = s.store ∧ (takeDeclaration p c r s).queues = s.queues ∧
    (takeDeclaration p c r s).printers = s.printers ∧ (takeDeclaration p c r s).engine = s.engine ∧
    (takeDeclaration p c r s).powered = s.powered ∧ (takeDeclaration p c r s).out = s.out ∧
    (takeDeclaration p c r s).nvBefore = s.nvBefore ∧ (takeDeclaration p c r s).freeUsed = s.freeUsed ∧
    (takeDeclaration p c r s).pending = s.pending := by
  unfold takeDeclaration; dsimp only; split <;> simp

@[simp] theorem declare_frame (p : Pos) (d : FormDesc) (s : State) :
    (declare p d s).line.state = s.line.state ∧ (declare p d s).line.timer = s.line.timer ∧
    (declare p d s).line.framer = s.line.framer ∧ (declare p d s).line.sending = s.line.sending ∧
    (declare p d s).tables = s.tables ∧ (declare p d s).jc.unreadable = s.jc.unreadable ∧
    (declare p d s).jc.replay = s.jc.replay ∧ (declare p d s).day = s.day ∧
    (declare p d s).clock.time = s.clock.time ∧ (declare p d s).clock.isSet = s.clock.isSet ∧
    (declare p d s).store = s.store ∧ (declare p d s).queues = s.queues ∧ (declare p d s).printers = s.printers ∧
    (declare p d s).engine = s.engine ∧ (declare p d s).powered = s.powered ∧ (declare p d s).nvBefore = s.nvBefore ∧
    (declare p d s).freeUsed = s.freeUsed ∧ (declare p d s).pending = s.pending := by
  unfold declare; (repeat' split) <;> simp

@[simp] theorem abandonBalance_frame (p : Pos) (c : BalCtx) (s : State) :
    (abandonBalance p c s).line.state = s.line.state ∧ (abandonBalance p c s).line.timer = s.line.timer ∧
    (abandonBalance p c s).line.framer = s.line.framer ∧ (abandonBalance p c s).line.sending = s.line.sending ∧
    (abandonBalance p c s).tables = s.tables ∧ (abandonBalance p c s).jc.unreadable = s.jc.unreadable ∧
    (abandonBalance p c s).jc.replay = s.jc.replay ∧ (abandonBalance p c s).day = s.day ∧
    (abandonBalance p c s).clock.time = s.clock.time ∧ (abandonBalance p c s).clock.isSet = s.clock.isSet ∧
    (abandonBalance p c s).store = s.store ∧ (abandonBalance p c s).queues = s.queues ∧
    (abandonBalance p c s).printers = s.printers ∧ (abandonBalance p c s).engine = s.engine ∧
    (abandonBalance p c s).powered = s.powered ∧ (abandonBalance p c s).out = s.out ∧
    (abandonBalance p c s).nvBefore = s.nvBefore ∧ (abandonBalance p c s).freeUsed = s.freeUsed ∧
    (abandonBalance p c s).pending = s.pending := by
  simp [abandonBalance]

@[simp] theorem balanceKey_frame (k : BalKind) (p : Pos) (s : State) :
    (balanceKey k p s).line.state = s.line.state ∧ (balanceKey k p s).line.timer = s.line.timer ∧
    (balanceKey k p s).line.framer = s.line.framer ∧ (balanceKey k p s).line.sending = s.line.sending ∧
    (balanceKey k p s).tables = s.tables ∧ (balanceKey k p s).groups = s.groups ∧
    (balanceKey k p s).jc.unreadable = s.jc.unreadable ∧ (balanceKey k p s).jc.replay = s.jc.replay ∧
    (balanceKey k p s).day = s.day ∧ (balanceKey k p s).clock.time = s.clock.time ∧
    (balanceKey k p s).clock.isSet = s.clock.isSet ∧ (balanceKey k p s).store = s.store ∧
    (balanceKey k p s).queues = s.queues ∧ (balanceKey k p s).printers = s.printers ∧
    (balanceKey k p s).engine = s.engine ∧ (balanceKey k p s).powered = s.powered ∧
    (balanceKey k p s).nvBefore = s.nvBefore ∧ (balanceKey k p s).freeUsed = s.freeUsed ∧
    (balanceKey k p s).pending = s.pending := by
  unfold balanceKey; (repeat' split) <;> simp

@[simp] theorem groupKey_frame (k : BalKind) (p : Pos) (s : State) :
    (groupKey k p s).line.state = s.line.state ∧ (groupKey k p s).line.timer = s.line.timer ∧
    (groupKey k p s).line.framer = s.line.framer ∧ (groupKey k p s).line.sending = s.line.sending ∧
    (groupKey k p s).tables = s.tables ∧ (groupKey k p s).jc.unreadable = s.jc.unreadable ∧
    (groupKey k p s).jc.replay = s.jc.replay ∧ (groupKey k p s).day = s.day ∧
    (groupKey k p s).clock.time = s.clock.time ∧ (groupKey k p s).clock.isSet = s.clock.isSet ∧
    (groupKey k p s).store = s.store ∧ (groupKey k p s).queues = s.queues ∧ (groupKey k p s).printers = s.printers ∧
    (groupKey k p s).engine = s.engine ∧ (groupKey k p s).powered = s.powered ∧
    (groupKey k p s).nvBefore = s.nvBefore ∧ (groupKey k p s).freeUsed = s.freeUsed ∧
    (groupKey k p s).pending = s.pending := by
  unfold groupKey; (repeat' split) <;> simp

@[simp] theorem addLine_frame (a : Account) (t : Option Nat) (l : PLine) (s : State) :
    (addLine a t l s).line = s.line ∧ (addLine a t l s).tables = s.tables ∧ (addLine a t l s).posns = s.posns ∧
    (addLine a t l s).screens = s.screens ∧ (addLine a t l s).keys = s.keys ∧ (addLine a t l s).drawers = s.drawers ∧
    (addLine a t l s).groups = s.groups ∧ (addLine a t l s).nv = s.nv ∧ (addLine a t l s).jc = s.jc ∧
    (addLine a t l s).day = s.day ∧ (addLine a t l s).clock = s.clock ∧ (addLine a t l s).queues = s.queues ∧
    (addLine a t l s).printers = s.printers ∧ (addLine a t l s).engine = s.engine ∧
    (addLine a t l s).powered = s.powered ∧ (addLine a t l s).out = s.out ∧ (addLine a t l s).nvBefore = s.nvBefore ∧
    (addLine a t l s).nvLog = s.nvLog ∧ (addLine a t l s).freeUsed = s.freeUsed ∧
    (addLine a t l s).pending = s.pending := by
  unfold addLine; (repeat' split) <;> simp

@[simp] theorem offerLine_frame (a : Account) (t : Option Nat) (l : PLine) (s : State) :
    (offerLine a t l s).line = s.line ∧ (offerLine a t l s).tables = s.tables ∧ (offerLine a t l s).posns = s.posns ∧
    (offerLine a t l s).screens = s.screens ∧ (offerLine a t l s).keys = s.keys ∧
    (offerLine a t l s).drawers = s.drawers ∧ (offerLine a t l s).groups = s.groups ∧ (offerLine a t l s).jc = s.jc ∧
    (offerLine a t l s).day = s.day ∧ (offerLine a t l s).clock = s.clock ∧ (offerLine a t l s).queues = s.queues ∧
    (offerLine a t l s).printers = s.printers ∧ (offerLine a t l s).engine = s.engine ∧
    (offerLine a t l s).powered = s.powered ∧ (offerLine a t l s).out = s.out ∧
    (offerLine a t l s).nvBefore = s.nvBefore ∧ (offerLine a t l s).freeUsed = s.freeUsed ∧
    (offerLine a t l s).pending = s.pending := by
  unfold offerLine; (repeat' split) <;> simp

@[simp] theorem enterWait_frame (n : Prn) (x : Prompt) (s : State) :
    (enterWait n x s).line = s.line ∧ (enterWait n x s).tables = s.tables ∧ (enterWait n x s).posns = s.posns ∧
    (enterWait n x s).keys = s.keys ∧ (enterWait n x s).drawers = s.drawers ∧ (enterWait n x s).groups = s.groups ∧
    (enterWait n x s).nv = s.nv ∧ (enterWait n x s).jc = s.jc ∧ (enterWait n x s).day = s.day ∧
    (enterWait n x s).clock = s.clock ∧ (enterWait n x s).store = s.store ∧ (enterWait n x s).queues = s.queues ∧
    (enterWait n x s).engine = s.engine ∧ (enterWait n x s).powered = s.powered ∧ (enterWait n x s).out = s.out ∧
    (enterWait n x s).nvBefore = s.nvBefore ∧ (enterWait n x s).nvLog = s.nvLog ∧
    (enterWait n x s).freeUsed = s.freeUsed ∧ (enterWait n x s).pending = s.pending := by
  unfold enterWait; dsimp only; split <;> simp

@[simp] theorem startWaiting_frame (n : Prn) (s : State) :
    (startWaiting n s).line = s.line ∧ (startWaiting n s).tables = s.tables ∧ (startWaiting n s).posns = s.posns ∧
    (startWaiting n s).keys = s.keys ∧ (startWaiting n s).drawers = s.drawers ∧ (startWaiting n s).groups = s.groups ∧
    (startWaiting n s).nv = s.nv ∧ (startWaiting n s).jc = s.jc ∧ (startWaiting n s).day = s.day ∧
    (startWaiting n s).clock = s.clock ∧ (startWaiting n s).store = s.store ∧ (startWaiting n s).queues = s.queues ∧
    (startWaiting n s).engine = s.engine ∧ (startWaiting n s).powered = s.powered ∧ (startWaiting n s).out = s.out ∧
    (startWaiting n s).nvBefore = s.nvBefore ∧ (startWaiting n s).nvLog = s.nvLog ∧
    (startWaiting n s).freeUsed = s.freeUsed ∧ (startWaiting n s).pending = s.pending := by
  unfold startWaiting; (repeat' split) <;> simp

@[simp] theorem becomeEmpty_frame (n : Prn) (s : State) :
    (becomeEmpty n s).line = s.line ∧ (becomeEmpty n s).tables = s.tables ∧ (becomeEmpty n s).posns = s.posns ∧
    (becomeEmpty n s).keys = s.keys ∧ (becomeEmpty n s).drawers = s.drawers ∧ (becomeEmpty n s).groups = s.groups ∧
    (becomeEmpty n s).nv = s.nv ∧ (becomeEmpty n s).jc = s.jc ∧ (becomeEmpty n s).day = s.day ∧
    (becomeEmpty n s).clock = s.clock ∧ (becomeEmpty n s).store = s.store ∧ (becomeEmpty n s).queues = s.queues ∧
    (becomeEmpty n s).engine = s.engine ∧ (becomeEmpty n s).powered = s.powered ∧ (becomeEmpty n s).out = s.out ∧
    (becomeEmpty n s).nvBefore = s.nvBefore ∧ (becomeEmpty n s).nvLog = s.nvLog ∧
    (becomeEmpty n s).freeUsed = s.freeUsed ∧ (becomeEmpty n s).pending = s.pending := by
  simp [becomeEmpty]

@[simp] theorem placeJob_frame (n : Prn) (j : Job) (s : State) :
    (placeJob n j s).line = s.line ∧ (placeJob n j s).tables = s.tables ∧ (placeJob n j s).posns = s.posns ∧
    (placeJob n j s).keys = s.keys ∧ (placeJob n j s).drawers = s.drawers ∧ (placeJob n j s).groups = s.groups ∧
    (placeJob n j s).nv = s.nv ∧ (placeJob n j s).jc = s.jc ∧ (placeJob n j s).day = s.day ∧
    (placeJob n j s).clock = s.clock ∧ (placeJob n j s).engine = s.engine ∧ (placeJob n j s).powered = s.powered ∧
    (placeJob n j s).out = s.out ∧ (placeJob n j s).nvBefore = s.nvBefore ∧ (placeJob n j s).nvLog = s.nvLog ∧
    (placeJob n j s).freeUsed = s.freeUsed ∧ (placeJob n j s).pending = s.pending := by
  unfold placeJob; dsimp only; split <;> simp

@[simp] theorem attemptJob_frame (p : Pos) (a : Account) (s : State) :
    (attemptJob p a s).line = s.line ∧ (attemptJob p a s).tables = s.tables ∧ (attemptJob p a s).posns = s.posns ∧
    (attemptJob p a s).keys = s.keys ∧ (attemptJob p a s).drawers = s.drawers ∧ (attemptJob p a s).groups = s.groups ∧
    (attemptJob p a s).nv = s.nv ∧ (attemptJob p a s).jc = s.jc ∧ (attemptJob p a s).day = s.day ∧
    (attemptJob p a s).clock = s.clock ∧ (attemptJob p a s).engine = s.engine ∧
    (attemptJob p a s).powered = s.powered ∧ (attemptJob p a s).out = s.out ∧
    (attemptJob p a s).nvBefore = s.nvBefore ∧ (attemptJob p a s).nvLog = s.nvLog ∧
    (attemptJob p a s).freeUsed = s.freeUsed ∧ (attemptJob p a s).pending = s.pending := by
  unfold attemptJob; dsimp only; (repeat' split) <;> simp

@[simp] theorem jobForKept_frame (p : Pos) (a : Account) (s : State) :
    (jobForKept p a s).line = s.line ∧ (jobForKept p a s).tables = s.tables ∧ (jobForKept p a s).posns = s.posns ∧
    (jobForKept p a s).keys = s.keys ∧ (jobForKept p a s).drawers = s.drawers ∧ (jobForKept p a s).groups = s.groups ∧
    (jobForKept p a s).nv = s.nv ∧ (jobForKept p a s).jc = s.jc ∧ (jobForKept p a s).day = s.day ∧
    (jobForKept p a s).clock = s.clock ∧ (jobForKept p a s).engine = s.engine ∧
    (jobForKept p a s).powered = s.powered ∧ (jobForKept p a s).out = s.out ∧
    (jobForKept p a s).nvBefore = s.nvBefore ∧ (jobForKept p a s).nvLog = s.nvLog ∧
    (jobForKept p a s).freeUsed = s.freeUsed ∧ (jobForKept p a s).pending = s.pending := by
  unfold jobForKept; (repeat' split) <;> simp

@[simp] theorem clearJobMark_frame (a : Account) (s : State) :
    (clearJobMark a s).line = s.line ∧ (clearJobMark a s).tables = s.tables ∧ (clearJobMark a s).posns = s.posns ∧
    (clearJobMark a s).screens = s.screens ∧ (clearJobMark a s).keys = s.keys ∧
    (clearJobMark a s).drawers = s.drawers ∧ (clearJobMark a s).groups = s.groups ∧ (clearJobMark a s).nv = s.nv ∧
    (clearJobMark a s).jc = s.jc ∧ (clearJobMark a s).day = s.day ∧ (clearJobMark a s).clock = s.clock ∧
    (clearJobMark a s).queues = s.queues ∧ (clearJobMark a s).printers = s.printers ∧
    (clearJobMark a s).engine = s.engine ∧ (clearJobMark a s).powered = s.powered ∧ (clearJobMark a s).out = s.out ∧
    (clearJobMark a s).nvBefore = s.nvBefore ∧ (clearJobMark a s).nvLog = s.nvLog ∧
    (clearJobMark a s).freeUsed = s.freeUsed ∧ (clearJobMark a s).pending = s.pending := by
  simp [clearJobMark]

@[simp] theorem removeHead_frame (n : Prn) (s : State) :
    (removeHead n s).line = s.line ∧ (removeHead n s).tables = s.tables ∧ (removeHead n s).posns = s.posns ∧
    (removeHead n s).screens = s.screens ∧ (removeHead n s).keys = s.keys ∧ (removeHead n s).drawers = s.drawers ∧
    (removeHead n s).groups = s.groups ∧ (removeHead n s).nv = s.nv ∧ (removeHead n s).jc = s.jc ∧
    (removeHead n s).day = s.day ∧ (removeHead n s).clock = s.clock ∧ (removeHead n s).engine = s.engine ∧
    (removeHead n s).powered = s.powered ∧ (removeHead n s).out = s.out ∧ (removeHead n s).nvBefore = s.nvBefore ∧
    (removeHead n s).nvLog = s.nvLog ∧ (removeHead n s).freeUsed = s.freeUsed ∧ (removeHead n s).pending = s.pending := by
  unfold removeHead; dsimp only; split <;> simp

@[simp] theorem printResult_frame (n : Prn) (y : PrintReason) (s : State) :
    (printResult n y s).line.state = s.line.state ∧ (printResult n y s).line.timer = s.line.timer ∧
    (printResult n y s).line.framer = s.line.framer ∧ (printResult n y s).line.sending = s.line.sending ∧
    (printResult n y s).tables = s.tables ∧ (printResult n y s).posns = s.posns ∧
    (printResult n y s).screens = s.screens ∧ (printResult n y s).keys = s.keys ∧
    (printResult n y s).drawers = s.drawers ∧ (printResult n y s).groups = s.groups ∧ (printResult n y s).nv = s.nv ∧
    (printResult n y s).jc = s.jc ∧ (printResult n y s).day = s.day ∧ (printResult n y s).clock = s.clock ∧
    (printResult n y s).store = s.store ∧ (printResult n y s).queues = s.queues ∧
    (printResult n y s).printers = s.printers ∧ (printResult n y s).engine = s.engine ∧
    (printResult n y s).powered = s.powered ∧ (printResult n y s).out = s.out ∧
    (printResult n y s).nvBefore = s.nvBefore ∧ (printResult n y s).nvLog = s.nvLog ∧
    (printResult n y s).freeUsed = s.freeUsed ∧ (printResult n y s).pending = s.pending := by
  unfold printResult; (repeat' split) <;> simp

@[simp] theorem endJob_frame (n : Prn) (y : PrintReason) (s : State) :
    (endJob n y s).line.state = s.line.state ∧ (endJob n y s).line.timer = s.line.timer ∧
    (endJob n y s).line.framer = s.line.framer ∧ (endJob n y s).line.sending = s.line.sending ∧
    (endJob n y s).tables = s.tables ∧ (endJob n y s).posns = s.posns ∧ (endJob n y s).screens = s.screens ∧
    (endJob n y s).keys = s.keys ∧ (endJob n y s).drawers = s.drawers ∧ (endJob n y s).groups = s.groups ∧
    (endJob n y s).nv = s.nv ∧ (endJob n y s).jc = s.jc ∧ (endJob n y s).day = s.day ∧
    (endJob n y s).clock = s.clock ∧ (endJob n y s).engine = s.engine ∧ (endJob n y s).powered = s.powered ∧
    (endJob n y s).out = s.out ∧ (endJob n y s).nvBefore = s.nvBefore ∧ (endJob n y s).nvLog = s.nvLog ∧
    (endJob n y s).freeUsed = s.freeUsed ∧ (endJob n y s).pending = s.pending := by
  simp [endJob]

@[simp] theorem eject_frame (n : Prn) (b : Bool) (w : Option Reason) (s : State) :
    (eject n b w s).line = s.line ∧ (eject n b w s).tables = s.tables ∧ (eject n b w s).posns = s.posns ∧
    (eject n b w s).screens = s.screens ∧ (eject n b w s).keys = s.keys ∧ (eject n b w s).drawers = s.drawers ∧
    (eject n b w s).groups = s.groups ∧ (eject n b w s).nv = s.nv ∧ (eject n b w s).jc = s.jc ∧
    (eject n b w s).day = s.day ∧ (eject n b w s).clock = s.clock ∧ (eject n b w s).store = s.store ∧
    (eject n b w s).queues = s.queues ∧ (eject n b w s).engine = s.engine ∧ (eject n b w s).powered = s.powered ∧
    (eject n b w s).nvBefore = s.nvBefore ∧ (eject n b w s).nvLog = s.nvLog ∧ (eject n b w s).freeUsed = s.freeUsed ∧
    (eject n b w s).pending = s.pending := by
  simp [eject]

@[simp] theorem writeStripe_frame (n : Prn) (w : Reason) (s : State) :
    (writeStripe n w s).line = s.line ∧ (writeStripe n w s).tables = s.tables ∧ (writeStripe n w s).posns = s.posns ∧
    (writeStripe n w s).screens = s.screens ∧ (writeStripe n w s).keys = s.keys ∧
    (writeStripe n w s).drawers = s.drawers ∧ (writeStripe n w s).groups = s.groups ∧ (writeStripe n w s).nv = s.nv ∧
    (writeStripe n w s).jc = s.jc ∧ (writeStripe n w s).day = s.day ∧ (writeStripe n w s).clock = s.clock ∧
    (writeStripe n w s).store = s.store ∧ (writeStripe n w s).queues = s.queues ∧
    (writeStripe n w s).engine = s.engine ∧ (writeStripe n w s).powered = s.powered ∧
    (writeStripe n w s).nvBefore = s.nvBefore ∧ (writeStripe n w s).nvLog = s.nvLog ∧
    (writeStripe n w s).freeUsed = s.freeUsed ∧ (writeStripe n w s).pending = s.pending := by
  simp [writeStripe]

@[simp] theorem homePrinter_frame (n : Prn) (s : State) :
    (homePrinter n s).line = s.line ∧ (homePrinter n s).tables = s.tables ∧ (homePrinter n s).posns = s.posns ∧
    (homePrinter n s).screens = s.screens ∧ (homePrinter n s).keys = s.keys ∧ (homePrinter n s).drawers = s.drawers ∧
    (homePrinter n s).groups = s.groups ∧ (homePrinter n s).nv = s.nv ∧ (homePrinter n s).jc = s.jc ∧
    (homePrinter n s).day = s.day ∧ (homePrinter n s).clock = s.clock ∧ (homePrinter n s).store = s.store ∧
    (homePrinter n s).queues = s.queues ∧ (homePrinter n s).engine = s.engine ∧
    (homePrinter n s).powered = s.powered ∧ (homePrinter n s).nvBefore = s.nvBefore ∧
    (homePrinter n s).nvLog = s.nvLog ∧ (homePrinter n s).freeUsed = s.freeUsed ∧
    (homePrinter n s).pending = s.pending := by
  simp [homePrinter]

@[simp] theorem startLine_frame (n : Prn) (l : PLine) (s : State) :
    (startLine n l s).line = s.line ∧ (startLine n l s).tables = s.tables ∧ (startLine n l s).posns = s.posns ∧
    (startLine n l s).screens = s.screens ∧ (startLine n l s).keys = s.keys ∧ (startLine n l s).drawers = s.drawers ∧
    (startLine n l s).groups = s.groups ∧ (startLine n l s).nv = s.nv ∧ (startLine n l s).jc = s.jc ∧
    (startLine n l s).day = s.day ∧ (startLine n l s).clock = s.clock ∧ (startLine n l s).store = s.store ∧
    (startLine n l s).queues = s.queues ∧ (startLine n l s).engine = s.engine ∧
    (startLine n l s).powered = s.powered ∧ (startLine n l s).nvBefore = s.nvBefore ∧
    (startLine n l s).nvLog = s.nvLog ∧ (startLine n l s).freeUsed = s.freeUsed ∧
    (startLine n l s).pending = s.pending := by
  simp [startLine]

@[simp] theorem headTaken_frame (n : Prn) (s : State) :
    (headTaken n s).line = s.line ∧ (headTaken n s).tables = s.tables ∧ (headTaken n s).posns = s.posns ∧
    (headTaken n s).keys = s.keys ∧ (headTaken n s).drawers = s.drawers ∧ (headTaken n s).groups = s.groups ∧
    (headTaken n s).nv = s.nv ∧ (headTaken n s).jc = s.jc ∧ (headTaken n s).day = s.day ∧
    (headTaken n s).clock = s.clock ∧ (headTaken n s).store = s.store ∧ (headTaken n s).queues = s.queues ∧
    (headTaken n s).engine = s.engine ∧ (headTaken n s).powered = s.powered ∧ (headTaken n s).nvBefore = s.nvBefore ∧
    (headTaken n s).nvLog = s.nvLog ∧ (headTaken n s).freeUsed = s.freeUsed ∧ (headTaken n s).pending = s.pending := by
  unfold headTaken; (repeat' split) <;> simp

@[simp] theorem removeAllJobs_frame (s : State) :
    (removeAllJobs s).line = s.line ∧ (removeAllJobs s).tables = s.tables ∧ (removeAllJobs s).posns = s.posns ∧
    (removeAllJobs s).keys = s.keys ∧ (removeAllJobs s).drawers = s.drawers ∧ (removeAllJobs s).groups = s.groups ∧
    (removeAllJobs s).nv = s.nv ∧ (removeAllJobs s).jc = s.jc ∧ (removeAllJobs s).day = s.day ∧
    (removeAllJobs s).clock = s.clock ∧ (removeAllJobs s).engine = s.engine ∧ (removeAllJobs s).powered = s.powered ∧
    (removeAllJobs s).nvBefore = s.nvBefore ∧ (removeAllJobs s).nvLog = s.nvLog ∧
    (removeAllJobs s).freeUsed = s.freeUsed ∧ (removeAllJobs s).pending = s.pending := by
  unfold removeAllJobs eachPrn
  simpa using foldl_keeps (fun x : State => (x.line, x.tables, x.posns, x.keys, x.drawers, x.groups, x.nv, x.jc, x.day, x.clock, x.engine,
      x.powered, x.nvBefore, x.nvLog, x.freeUsed, x.pending))
      (fun s n => if (rd s.queues n).isEmpty then s
        else (headTaken n s).updPrinter n fun r => { r with job := JobRec.initial }) (by intros; split <;> simp) allPrn s

@[simp] theorem moveJob_frame (n : Prn) (s : State) (j : Job) :
    (moveJob n s j).line = s.line ∧ (moveJob n s j).tables = s.tables ∧ (moveJob n s j).posns = s.posns ∧
    (moveJob n s j).keys = s.keys ∧ (moveJob n s j).drawers = s.drawers ∧ (moveJob n s j).groups = s.groups ∧
    (moveJob n s j).nv = s.nv ∧ (moveJob n s j).jc = s.jc ∧ (moveJob n s j).day = s.day ∧
    (moveJob n s j).clock = s.clock ∧ (moveJob n s j).engine = s.engine ∧ (moveJob n s j).powered = s.powered ∧
    (moveJob n s j).out = s.out ∧ (moveJob n s j).nvBefore = s.nvBefore ∧ (moveJob n s j).nvLog = s.nvLog ∧
    (moveJob n s j).freeUsed = s.freeUsed ∧ (moveJob n s j).pending = s.pending := by
  unfold moveJob; (repeat' split) <;> simp

@[simp] theorem moveQueue_frame (n : Prn) (s : State) :
    (moveQueue n s).line = s.line ∧ (moveQueue n s).tables = s.tables ∧ (moveQueue n s).posns = s.posns ∧
    (moveQueue n s).keys = s.keys ∧ (moveQueue n s).drawers = s.drawers ∧ (moveQueue n s).groups = s.groups ∧
    (moveQueue n s).nv = s.nv ∧ (moveQueue n s).jc = s.jc ∧ (moveQueue n s).day = s.day ∧
    (moveQueue n s).clock = s.clock ∧ (moveQueue n s).engine = s.engine ∧ (moveQueue n s).powered = s.powered ∧
    (moveQueue n s).out = s.out ∧ (moveQueue n s).nvBefore = s.nvBefore ∧ (moveQueue n s).nvLog = s.nvLog ∧
    (moveQueue n s).freeUsed = s.freeUsed ∧ (moveQueue n s).pending = s.pending := by
  unfold moveQueue
  simpa using foldl_keeps (fun x : State => (x.line, x.tables, x.posns, x.keys, x.drawers, x.groups, x.nv, x.jc, x.day, x.clock, x.engine,
      x.powered, x.out, x.nvBefore, x.nvLog, x.freeUsed, x.pending))
      (moveJob n) (by intros; simp) (rd s.queues n) (s.updQueue n fun _ => [])

@[simp] theorem faultPrinter_frame (n : Prn) (c : OfflineCause) (s : State) :
    (faultPrinter n c s).line.state = s.line.state ∧ (faultPrinter n c s).line.timer = s.line.timer ∧
    (faultPrinter n c s).line.framer = s.line.framer ∧ (faultPrinter n c s).line.sending = s.line.sending ∧
    (faultPrinter n c s).tables = s.tables ∧ (faultPrinter n c s).posns = s.posns ∧
    (faultPrinter n c s).keys = s.keys ∧ (faultPrinter n c s).drawers = s.drawers ∧
    (faultPrinter n c s).groups = s.groups ∧ (faultPrinter n c s).nv = s.nv ∧ (faultPrinter n c s).jc = s.jc ∧
    (faultPrinter n c s).day = s.day ∧ (faultPrinter n c s).clock = s.clock ∧ (faultPrinter n c s).engine = s.engine ∧
    (faultPrinter n c s).powered = s.powered ∧ (faultPrinter n c s).out = s.out ∧
    (faultPrinter n c s).nvBefore = s.nvBefore ∧ (faultPrinter n c s).nvLog = s.nvLog ∧
    (faultPrinter n c s).freeUsed = s.freeUsed ∧ (faultPrinter n c s).pending = s.pending := by
  unfold faultPrinter; dsimp only; (repeat' split) <;> simp

@[simp] theorem cancelHead_frame (n : Prn) (s : State) :
    (cancelHead n s).line.state = s.line.state ∧ (cancelHead n s).line.timer = s.line.timer ∧
    (cancelHead n s).line.framer = s.line.framer ∧ (cancelHead n s).line.sending = s.line.sending ∧
    (cancelHead n s).tables = s.tables ∧ (cancelHead n s).posns = s.posns ∧ (cancelHead n s).keys = s.keys ∧
    (cancelHead n s).drawers = s.drawers ∧ (cancelHead n s).groups = s.groups ∧ (cancelHead n s).nv = s.nv ∧
    (cancelHead n s).jc = s.jc ∧ (cancelHead n s).day = s.day ∧ (cancelHead n s).clock = s.clock ∧
    (cancelHead n s).engine = s.engine ∧ (cancelHead n s).powered = s.powered ∧
    (cancelHead n s).nvBefore = s.nvBefore ∧ (cancelHead n s).nvLog = s.nvLog ∧
    (cancelHead n s).freeUsed = s.freeUsed ∧ (cancelHead n s).pending = s.pending := by
  unfold cancelHead; (repeat' split) <;> simp

@[simp] theorem cancelQueued_frame (n : Prn) (a : Account) (s : State) :
    (cancelQueued n a s).line = s.line ∧ (cancelQueued n a s).tables = s.tables ∧
    (cancelQueued n a s).posns = s.posns ∧ (cancelQueued n a s).keys = s.keys ∧
    (cancelQueued n a s).drawers = s.drawers ∧ (cancelQueued n a s).groups = s.groups ∧
    (cancelQueued n a s).nv = s.nv ∧ (cancelQueued n a s).jc = s.jc ∧ (cancelQueued n a s).day = s.day ∧
    (cancelQueued n a s).clock = s.clock ∧ (cancelQueued n a s).engine = s.engine ∧
    (cancelQueued n a s).powered = s.powered ∧ (cancelQueued n a s).out = s.out ∧
    (cancelQueued n a s).nvBefore = s.nvBefore ∧ (cancelQueued n a s).nvLog = s.nvLog ∧
    (cancelQueued n a s).freeUsed = s.freeUsed ∧ (cancelQueued n a s).pending = s.pending := by
  unfold cancelQueued; dsimp only; split <;> simp

@[simp] theorem linePrinted_frame (a : Account) (s : State) :
    (linePrinted a s).line = s.line ∧ (linePrinted a s).tables = s.tables ∧ (linePrinted a s).posns = s.posns ∧
    (linePrinted a s).screens = s.screens ∧ (linePrinted a s).keys = s.keys ∧ (linePrinted a s).drawers = s.drawers ∧
    (linePrinted a s).groups = s.groups ∧ (linePrinted a s).jc = s.jc ∧ (linePrinted a s).day = s.day ∧
    (linePrinted a s).clock = s.clock ∧ (linePrinted a s).queues = s.queues ∧
    (linePrinted a s).printers = s.printers ∧ (linePrinted a s).engine = s.engine ∧
    (linePrinted a s).powered = s.powered ∧ (linePrinted a s).out = s.out ∧ (linePrinted a s).nvBefore = s.nvBefore ∧
    (linePrinted a s).freeUsed = s.freeUsed ∧ (linePrinted a s).pending = s.pending := by
  unfold linePrinted; (repeat' split) <;> simp

@[simp] theorem startAckTimer_frame (s : State) :
    (startAckTimer s).line = s.line ∧ (startAckTimer s).tables = s.tables ∧ (startAckTimer s).posns = s.posns ∧
    (startAckTimer s).screens = s.screens ∧ (startAckTimer s).keys = s.keys ∧ (startAckTimer s).drawers = s.drawers ∧
    (startAckTimer s).groups = s.groups ∧ (startAckTimer s).nv = s.nv ∧ (startAckTimer s).jc = s.jc ∧
    (startAckTimer s).day = s.day ∧ (startAckTimer s).clock = s.clock ∧ (startAckTimer s).store = s.store ∧
    (startAckTimer s).queues = s.queues ∧ (startAckTimer s).printers = s.printers ∧
    (startAckTimer s).engine.lastBatch = s.engine.lastBatch ∧ (startAckTimer s).engine.notices = s.engine.notices ∧
    (startAckTimer s).engine.recoveryDone = s.engine.recoveryDone ∧ (startAckTimer s).powered = s.powered ∧
    (startAckTimer s).out = s.out ∧ (startAckTimer s).nvBefore = s.nvBefore ∧ (startAckTimer s).nvLog = s.nvLog ∧
    (startAckTimer s).freeUsed = s.freeUsed ∧ (startAckTimer s).pending = s.pending := by
  simp [startAckTimer]

@[simp] theorem stopAckTimer_frame (s : State) :
    (stopAckTimer s).line = s.line ∧ (stopAckTimer s).tables = s.tables ∧ (stopAckTimer s).posns = s.posns ∧
    (stopAckTimer s).screens = s.screens ∧ (stopAckTimer s).keys = s.keys ∧ (stopAckTimer s).drawers = s.drawers ∧
    (stopAckTimer s).groups = s.groups ∧ (stopAckTimer s).nv = s.nv ∧ (stopAckTimer s).jc = s.jc ∧
    (stopAckTimer s).day = s.day ∧ (stopAckTimer s).clock = s.clock ∧ (stopAckTimer s).store = s.store ∧
    (stopAckTimer s).queues = s.queues ∧ (stopAckTimer s).printers = s.printers ∧
    (stopAckTimer s).engine.lastBatch = s.engine.lastBatch ∧ (stopAckTimer s).engine.notices = s.engine.notices ∧
    (stopAckTimer s).engine.recoveryDone = s.engine.recoveryDone ∧ (stopAckTimer s).powered = s.powered ∧
    (stopAckTimer s).out = s.out ∧ (stopAckTimer s).nvBefore = s.nvBefore ∧ (stopAckTimer s).nvLog = s.nvLog ∧
    (stopAckTimer s).freeUsed = s.freeUsed ∧ (stopAckTimer s).pending = s.pending := by
  simp [stopAckTimer]

@[simp] theorem engineIdle_frame (s : State) :
    (engineIdle s).line = s.line ∧ (engineIdle s).tables = s.tables ∧ (engineIdle s).posns = s.posns ∧
    (engineIdle s).screens = s.screens ∧ (engineIdle s).keys = s.keys ∧ (engineIdle s).drawers = s.drawers ∧
    (engineIdle s).groups = s.groups ∧ (engineIdle s).nv = s.nv ∧ (engineIdle s).jc = s.jc ∧
    (engineIdle s).day = s.day ∧ (engineIdle s).clock = s.clock ∧ (engineIdle s).store = s.store ∧
    (engineIdle s).queues = s.queues ∧ (engineIdle s).printers = s.printers ∧
    (engineIdle s).engine.lastBatch = s.engine.lastBatch ∧ (engineIdle s).engine.notices = s.engine.notices ∧
    (engineIdle s).engine.recoveryDone = s.engine.recoveryDone ∧ (engineIdle s).powered = s.powered ∧
    (engineIdle s).out = s.out ∧ (engineIdle s).nvBefore = s.nvBefore ∧ (engineIdle s).nvLog = s.nvLog ∧
    (engineIdle s).freeUsed = s.freeUsed ∧ (engineIdle s).pending = s.pending := by
  simp [engineIdle]

@[simp] theorem abandonBatch_frame (s : State) :
    (abandonBatch s).line = s.line ∧ (abandonBatch s).tables = s.tables ∧ (abandonBatch s).posns = s.posns ∧
    (abandonBatch s).screens = s.screens ∧ (abandonBatch s).keys = s.keys ∧ (abandonBatch s).drawers = s.drawers ∧
    (abandonBatch s).groups = s.groups ∧ (abandonBatch s).nv = s.nv ∧ (abandonBatch s).jc = s.jc ∧
    (abandonBatch s).day = s.day ∧ (abandonBatch s).clock = s.clock ∧ (abandonBatch s).store = s.store ∧
    (abandonBatch s).queues = s.queues ∧ (abandonBatch s).printers = s.printers ∧
    (abandonBatch s).engine.lastBatch = s.engine.lastBatch ∧ (abandonBatch s).engine.notices = s.engine.notices ∧
    (abandonBatch s).engine.recoveryDone = s.engine.recoveryDone ∧ (abandonBatch s).powered = s.powered ∧
    (abandonBatch s).out = s.out ∧ (abandonBatch s).nvBefore = s.nvBefore ∧ (abandonBatch s).nvLog = s.nvLog ∧
    (abandonBatch s).freeUsed = s.freeUsed ∧ (abandonBatch s).pending = s.pending := by
  simp [abandonBatch]

@[simp] theorem offerBlocks_frame (k : Nat) (s : State) :
    (offerBlocks k s).line.state = s.line.state ∧ (offerBlocks k s).line.timer = s.line.timer ∧
    (offerBlocks k s).line.framer = s.line.framer ∧ (offerBlocks k s).line.sending = s.line.sending ∧
    (offerBlocks k s).tables = s.tables ∧ (offerBlocks k s).posns = s.posns ∧ (offerBlocks k s).screens = s.screens ∧
    (offerBlocks k s).keys = s.keys ∧ (offerBlocks k s).drawers = s.drawers ∧ (offerBlocks k s).groups = s.groups ∧
    (offerBlocks k s).nv = s.nv ∧ (offerBlocks k s).jc = s.jc ∧ (offerBlocks k s).day = s.day ∧
    (offerBlocks k s).clock = s.clock ∧ (offerBlocks k s).store = s.store ∧ (offerBlocks k s).queues = s.queues ∧
    (offerBlocks k s).printers = s.printers ∧ (offerBlocks k s).engine.lastBatch = s.engine.lastBatch ∧
    (offerBlocks k s).engine.notices = s.engine.notices ∧
    (offerBlocks k s).engine.recoveryDone = s.engine.recoveryDone ∧ (offerBlocks k s).powered = s.powered ∧
    (offerBlocks k s).out = s.out ∧ (offerBlocks k s).nvBefore = s.nvBefore ∧ (offerBlocks k s).nvLog = s.nvLog ∧
    (offerBlocks k s).freeUsed = s.freeUsed ∧ (offerBlocks k s).pending = s.pending := by
  induction k generalizing s with
  | zero => simp [offerBlocks]
  | succ k ih =>
    unfold offerBlocks
    split
    · next t ht =>
      have h : (t.line.state = s.line.state ∧ t.line.timer = s.line.timer ∧ t.line.framer = s.line.framer ∧ t.line.sending = s.line.sending ∧ t.tables = s.tables ∧ t.posns = s.posns ∧ t.screens = s.screens ∧ t.keys = s.keys ∧ t.drawers = s.drawers ∧ t.groups = s.groups ∧ t.nv = s.nv ∧ t.jc = s.jc ∧ t.day = s.day ∧ t.clock = s.clock ∧ t.store = s.store ∧ t.queues = s.queues ∧ t.printers = s.printers ∧ t.engine.lastBatch = s.engine.lastBatch ∧ t.engine.notices = s.engine.notices ∧ t.engine.recoveryDone = s.engine.recoveryDone ∧ t.powered = s.powered ∧ t.out = s.out ∧ t.nvBefore = s.nvBefore ∧ t.nvLog = s.nvLog ∧ t.freeUsed = s.freeUsed ∧ t.pending = s.pending) := by
        unfold offerBlock at ht; dsimp only at ht
        (repeat' split at ht) <;> first | (cases ht; simp) | cases ht
      simp [ih t, h]
    · simp

@[simp] theorem offer_frame (s : State) :
    (offer s).line.state = s.line.state ∧ (offer s).line.timer = s.line.timer ∧
    (offer s).line.framer = s.line.framer ∧ (offer s).line.sending = s.line.sending ∧ (offer s).tables = s.tables ∧
    (offer s).posns = s.posns ∧ (offer s).screens = s.screens ∧ (offer s).keys = s.keys ∧
    (offer s).drawers = s.drawers ∧ (offer s).groups = s.groups ∧ (offer s).nv = s.nv ∧ (offer s).jc = s.jc ∧
    (offer s).day = s.day ∧ (offer s).clock = s.clock ∧ (offer s).store = s.store ∧ (offer s).queues = s.queues ∧
    (offer s).printers = s.printers ∧ (offer s).engine.lastBatch = s.engine.lastBatch ∧
    (offer s).engine.notices = s.engine.notices ∧ (offer s).engine.recoveryDone = s.engine.recoveryDone ∧
    (offer s).powered = s.powered ∧ (offer s).out = s.out ∧ (offer s).nvBefore = s.nvBefore ∧
    (offer s).nvLog = s.nvLog ∧ (offer s).freeUsed = s.freeUsed ∧ (offer s).pending = s.pending := by
  simp [offer]

@[simp] theorem reportComplete_frame (b : Batch) (s : State) :
    (reportComplete b s).line.state = s.line.state ∧ (reportComplete b s).line.timer = s.line.timer ∧
    (reportComplete b s).line.framer = s.line.framer ∧ (reportComplete b s).line.sending = s.line.sending ∧
    (reportComplete b s).tables = s.tables ∧ (reportComplete b s).posns = s.posns ∧
    (reportComplete b s).screens = s.screens ∧ (reportComplete b s).keys = s.keys ∧
    (reportComplete b s).drawers = s.drawers ∧ (reportComplete b s).groups = s.groups ∧
    (reportComplete b s).nv = s.nv ∧ (reportComplete b s).jc = s.jc ∧ (reportComplete b s).day = s.day ∧
    (reportComplete b s).clock = s.clock ∧ (reportComplete b s).store = s.store ∧
    (reportComplete b s).queues = s.queues ∧ (reportComplete b s).printers = s.printers ∧
    (reportComplete b s).engine = s.engine ∧ (reportComplete b s).powered = s.powered ∧
    (reportComplete b s).out = s.out ∧ (reportComplete b s).nvBefore = s.nvBefore ∧
    (reportComplete b s).nvLog = s.nvLog ∧ (reportComplete b s).freeUsed = s.freeUsed ∧
    (reportComplete b s).pending = s.pending := by
  simp [reportComplete]

@[simp] theorem completeDay_frame (b : Batch) (s : State) :
    (completeDay b s).line.state = s.line.state ∧ (completeDay b s).line.timer = s.line.timer ∧
    (completeDay b s).line.framer = s.line.framer ∧ (completeDay b s).line.sending = s.line.sending ∧
    (completeDay b s).tables = s.tables ∧ (completeDay b s).posns = s.posns ∧ (completeDay b s).screens = s.screens ∧
    (completeDay b s).keys = s.keys ∧ (completeDay b s).drawers = s.drawers ∧ (completeDay b s).groups = s.groups ∧
    (completeDay b s).nv = s.nv ∧ (completeDay b s).jc = s.jc ∧ (completeDay b s).day.state = s.day.state ∧
    (completeDay b s).day.date = s.day.date ∧ (completeDay b s).day.alarm = s.day.alarm ∧
    (completeDay b s).day.retainedBad = s.day.retainedBad ∧ (completeDay b s).clock = s.clock ∧
    (completeDay b s).store = s.store ∧ (completeDay b s).queues = s.queues ∧
    (completeDay b s).printers = s.printers ∧ (completeDay b s).engine.lastBatch = s.engine.lastBatch ∧
    (completeDay b s).engine.notices = s.engine.notices ∧
    (completeDay b s).engine.recoveryDone = s.engine.recoveryDone ∧ (completeDay b s).powered = s.powered ∧
    (completeDay b s).out = s.out ∧ (completeDay b s).nvBefore = s.nvBefore ∧ (completeDay b s).nvLog = s.nvLog ∧
    (completeDay b s).freeUsed = s.freeUsed ∧ (completeDay b s).pending = s.pending := by
  simp [completeDay]

@[simp] theorem startBatch_frame (k : BatchKind) (s : State) :
    (startBatch k s).line.state = s.line.state ∧ (startBatch k s).line.timer = s.line.timer ∧
    (startBatch k s).line.framer = s.line.framer ∧ (startBatch k s).line.sending = s.line.sending ∧
    (startBatch k s).tables = s.tables ∧ (startBatch k s).posns = s.posns ∧ (startBatch k s).screens = s.screens ∧
    (startBatch k s).keys = s.keys ∧ (startBatch k s).drawers = s.drawers ∧ (startBatch k s).groups = s.groups ∧
    (startBatch k s).nv = s.nv ∧ (startBatch k s).jc = s.jc ∧ (startBatch k s).day.state = s.day.state ∧
    (startBatch k s).day.date = s.day.date ∧ (startBatch k s).day.alarm = s.day.alarm ∧
    (startBatch k s).day.retainedBad = s.day.retainedBad ∧ (startBatch k s).clock = s.clock ∧
    (startBatch k s).store = s.store ∧ (startBatch k s).queues = s.queues ∧ (startBatch k s).printers = s.printers ∧
    (startBatch k s).engine.notices = s.engine.notices ∧
    (startBatch k s).engine.recoveryDone = s.engine.recoveryDone ∧ (startBatch k s).powered = s.powered ∧
    (startBatch k s).out = s.out ∧ (startBatch k s).nvBefore = s.nvBefore ∧ (startBatch k s).nvLog = s.nvLog ∧
    (startBatch k s).freeUsed = s.freeUsed ∧ (startBatch k s).pending = s.pending := by
  cases k <;> (unfold startBatch; dsimp only; repeat' split) <;> simp

@[simp] theorem completeForward_frame (b : Batch) (s : State) :
    (completeForward b s).line.state = s.line.state ∧ (completeForward b s).line.timer = s.line.timer ∧
    (completeForward b s).line.framer = s.line.framer ∧ (completeForward b s).line.sending = s.line.sending ∧
    (completeForward b s).tables = s.tables ∧ (completeForward b s).posns = s.posns ∧
    (completeForward b s).screens = s.screens ∧ (completeForward b s).keys = s.keys ∧
    (completeForward b s).drawers = s.drawers ∧ (completeForward b s).groups = s.groups ∧
    (completeForward b s).nv = s.nv ∧ (completeForward b s).jc = s.jc ∧
    (completeForward b s).day.state = s.day.state ∧ (completeForward b s).day.date = s.day.date ∧
    (completeForward b s).day.alarm = s.day.alarm ∧ (completeForward b s).day.retainedBad = s.day.retainedBad ∧
    (completeForward b s).clock = s.clock ∧ (completeForward b s).store = s.store ∧
    (completeForward b s).queues = s.queues ∧ (completeForward b s).printers = s.printers ∧
    (completeForward b s).engine.notices = s.engine.notices ∧
    (completeForward b s).engine.recoveryDone = s.engine.recoveryDone ∧ (completeForward b s).powered = s.powered ∧
    (completeForward b s).out = s.out ∧ (completeForward b s).nvBefore = s.nvBefore ∧
    (completeForward b s).nvLog = s.nvLog ∧ (completeForward b s).freeUsed = s.freeUsed ∧
    (completeForward b s).pending = s.pending := by
  unfold completeForward; dsimp only; (repeat' split) <;> simp

@[simp] theorem completeBatch_frame (b : Batch) (s : State) :
    (completeBatch b s).line.state = s.line.state ∧ (completeBatch b s).line.timer = s.line.timer ∧
    (completeBatch b s).line.framer = s.line.framer ∧ (completeBatch b s).line.sending = s.line.sending ∧
    (completeBatch b s).tables = s.tables ∧ (completeBatch b s).posns = s.posns ∧
    (completeBatch b s).screens = s.screens ∧ (completeBatch b s).keys = s.keys ∧
    (completeBatch b s).drawers = s.drawers ∧ (completeBatch b s).groups = s.groups ∧ (completeBatch b s).nv = s.nv ∧
    (completeBatch b s).jc = s.jc ∧ (completeBatch b s).day.state = s.day.state ∧
    (completeBatch b s).day.date = s.day.date ∧ (completeBatch b s).day.alarm = s.day.alarm ∧
    (completeBatch b s).day.retainedBad = s.day.retainedBad ∧ (completeBatch b s).clock = s.clock ∧
    (completeBatch b s).store = s.store ∧ (completeBatch b s).queues = s.queues ∧
    (completeBatch b s).printers = s.printers ∧ (completeBatch b s).engine.notices = s.engine.notices ∧
    (completeBatch b s).engine.recoveryDone = s.engine.recoveryDone ∧ (completeBatch b s).powered = s.powered ∧
    (completeBatch b s).out = s.out ∧ (completeBatch b s).nvBefore = s.nvBefore ∧
    (completeBatch b s).nvLog = s.nvLog ∧ (completeBatch b s).freeUsed = s.freeUsed ∧
    (completeBatch b s).pending = s.pending := by
  unfold completeBatch; (repeat' split) <;> simp

@[simp] theorem startFromIdle_frame (s : State) :
    (startFromIdle s).line.state = s.line.state ∧ (startFromIdle s).line.timer = s.line.timer ∧
    (startFromIdle s).line.framer = s.line.framer ∧ (startFromIdle s).line.sending = s.line.sending ∧
    (startFromIdle s).tables = s.tables ∧ (startFromIdle s).posns = s.posns ∧ (startFromIdle s).screens = s.screens ∧
    (startFromIdle s).keys = s.keys ∧ (startFromIdle s).drawers = s.drawers ∧ (startFromIdle s).groups = s.groups ∧
    (startFromIdle s).nv = s.nv ∧ (startFromIdle s).jc = s.jc ∧ (startFromIdle s).day.state = s.day.state ∧
    (startFromIdle s).day.date = s.day.date ∧ (startFromIdle s).day.alarm = s.day.alarm ∧
    (startFromIdle s).day.retainedBad = s.day.retainedBad ∧ (startFromIdle s).clock = s.clock ∧
    (startFromIdle s).store = s.store ∧ (startFromIdle s).queues = s.queues ∧
    (startFromIdle s).printers = s.printers ∧ (startFromIdle s).engine.notices = s.engine.notices ∧
    (startFromIdle s).engine.recoveryDone = s.engine.recoveryDone ∧ (startFromIdle s).powered = s.powered ∧
    (startFromIdle s).out = s.out ∧ (startFromIdle s).nvBefore = s.nvBefore ∧ (startFromIdle s).nvLog = s.nvLog ∧
    (startFromIdle s).freeUsed = s.freeUsed ∧ (startFromIdle s).pending = s.pending := by
  unfold startFromIdle; (repeat' split) <;> simp

@[simp] theorem resendAll_frame (s : State) :
    (resendAll s).line.state = s.line.state ∧ (resendAll s).line.timer = s.line.timer ∧
    (resendAll s).line.framer = s.line.framer ∧ (resendAll s).line.sending = s.line.sending ∧
    (resendAll s).tables = s.tables ∧ (resendAll s).posns = s.posns ∧ (resendAll s).screens = s.screens ∧
    (resendAll s).keys = s.keys ∧ (resendAll s).drawers = s.drawers ∧ (resendAll s).groups = s.groups ∧
    (resendAll s).nv = s.nv ∧ (resendAll s).jc = s.jc ∧ (resendAll s).day = s.day ∧ (resendAll s).clock = s.clock ∧
    (resendAll s).store = s.store ∧ (resendAll s).queues = s.queues ∧ (resendAll s).printers = s.printers ∧
    (resendAll s).engine.lastBatch = s.engine.lastBatch ∧ (resendAll s).engine.notices = s.engine.notices ∧
    (resendAll s).engine.recoveryDone = s.engine.recoveryDone ∧ (resendAll s).powered = s.powered ∧
    (resendAll s).out = s.out ∧ (resendAll s).nvBefore = s.nvBefore ∧ (resendAll s).nvLog = s.nvLog ∧
    (resendAll s).freeUsed = s.freeUsed ∧ (resendAll s).pending = s.pending := by
  unfold resendAll; dsimp only; (repeat' split) <;> simp

@[simp] theorem resumePaused_frame (s : State) :
    (resumePaused s).line.state = s.line.state ∧ (resumePaused s).line.timer = s.line.timer ∧
    (resumePaused s).line.framer = s.line.framer ∧ (resumePaused s).line.sending = s.line.sending ∧
    (resumePaused s).tables = s.tables ∧ (resumePaused s).posns = s.posns ∧ (resumePaused s).screens = s.screens ∧
    (resumePaused s).keys = s.keys ∧ (resumePaused s).drawers = s.drawers ∧ (resumePaused s).groups = s.groups ∧
    (resumePaused s).nv = s.nv ∧ (resumePaused s).jc = s.jc ∧ (resumePaused s).day = s.day ∧
    (resumePaused s).clock = s.clock ∧ (resumePaused s).store = s.store ∧ (resumePaused s).queues = s.queues ∧
    (resumePaused s).printers = s.printers ∧ (resumePaused s).engine.lastBatch = s.engine.lastBatch ∧
    (resumePaused s).engine.notices = s.engine.notices ∧
    (resumePaused s).engine.recoveryDone = s.engine.recoveryDone ∧ (resumePaused s).powered = s.powered ∧
    (resumePaused s).out = s.out ∧ (resumePaused s).nvBefore = s.nvBefore ∧ (resumePaused s).nvLog = s.nvLog ∧
    (resumePaused s).freeUsed = s.freeUsed ∧ (resumePaused s).pending = s.pending := by
  simp [resumePaused]

@[simp] theorem resumeFailed_frame (s : State) :
    (resumeFailed s).line.state = s.line.state ∧ (resumeFailed s).line.timer = s.line.timer ∧
    (resumeFailed s).line.framer = s.line.framer ∧ (resumeFailed s).line.sending = s.line.sending ∧
    (resumeFailed s).tables = s.tables ∧ (resumeFailed s).posns = s.posns ∧ (resumeFailed s).screens = s.screens ∧
    (resumeFailed s).keys = s.keys ∧ (resumeFailed s).drawers = s.drawers ∧ (resumeFailed s).groups = s.groups ∧
    (resumeFailed s).nv = s.nv ∧ (resumeFailed s).jc = s.jc ∧ (resumeFailed s).day = s.day ∧
    (resumeFailed s).clock = s.clock ∧ (resumeFailed s).store = s.store ∧ (resumeFailed s).queues = s.queues ∧
    (resumeFailed s).printers = s.printers ∧ (resumeFailed s).engine.lastBatch = s.engine.lastBatch ∧
    (resumeFailed s).engine.notices = s.engine.notices ∧
    (resumeFailed s).engine.recoveryDone = s.engine.recoveryDone ∧ (resumeFailed s).powered = s.powered ∧
    (resumeFailed s).out = s.out ∧ (resumeFailed s).nvBefore = s.nvBefore ∧ (resumeFailed s).nvLog = s.nvLog ∧
    (resumeFailed s).freeUsed = s.freeUsed ∧ (resumeFailed s).pending = s.pending := by
  simp [resumeFailed]

@[simp] theorem ackBlock_frame (k : BatchKind) (n : Nat) (s : State) :
    (ackBlock k n s).line = s.line ∧ (ackBlock k n s).tables = s.tables ∧ (ackBlock k n s).posns = s.posns ∧
    (ackBlock k n s).screens = s.screens ∧ (ackBlock k n s).keys = s.keys ∧ (ackBlock k n s).drawers = s.drawers ∧
    (ackBlock k n s).groups = s.groups ∧ (ackBlock k n s).jc.unreadable = s.jc.unreadable ∧
    (ackBlock k n s).jc.replay = s.jc.replay ∧ (ackBlock k n s).day = s.day ∧ (ackBlock k n s).clock = s.clock ∧
    (ackBlock k n s).store = s.store ∧ (ackBlock k n s).queues = s.queues ∧ (ackBlock k n s).printers = s.printers ∧
    (ackBlock k n s).engine.lastBatch = s.engine.lastBatch ∧ (ackBlock k n s).engine.notices = s.engine.notices ∧
    (ackBlock k n s).engine.recoveryDone = s.engine.recoveryDone ∧ (ackBlock k n s).powered = s.powered ∧
    (ackBlock k n s).out = s.out ∧ (ackBlock k n s).nvBefore = s.nvBefore ∧ (ackBlock k n s).freeUsed = s.freeUsed ∧
    (ackBlock k n s).pending = s.pending := by
  have h (l : List (Nat × Entry)) := foldl_keeps (fun x : State => (x.line, x.tables, x.posns, x.screens, x.keys, x.drawers, x.groups, x.jc.unreadable, x.jc.replay,
      x.day, x.clock, x.store, x.queues, x.printers, x.engine, x.powered, x.out, x.nvBefore, x.freeUsed,
      x.pending))
      (fun s x => changeForward x.2.seq s) (by intros; simp) l s
  simp only [Prod.mk.injEq] at h
  unfold ackBlock
  split
  · simp
  · cases k <;> simp [h]

@[simp] theorem ackThrough_frame (b : Batch) (n : Nat) (s : State) :
    (ackThrough b n s).line = s.line ∧ (ackThrough b n s).tables = s.tables ∧ (ackThrough b n s).posns = s.posns ∧
    (ackThrough b n s).screens = s.screens ∧ (ackThrough b n s).keys = s.keys ∧
    (ackThrough b n s).drawers = s.drawers ∧ (ackThrough b n s).groups = s.groups ∧
    (ackThrough b n s).jc.unreadable = s.jc.unreadable ∧ (ackThrough b n s).jc.replay = s.jc.replay ∧
    (ackThrough b n s).day = s.day ∧ (ackThrough b n s).clock = s.clock ∧ (ackThrough b n s).store = s.store ∧
    (ackThrough b n s).queues = s.queues ∧ (ackThrough b n s).printers = s.printers ∧
    (ackThrough b n s).engine.lastBatch = s.engine.lastBatch ∧ (ackThrough b n s).engine.notices = s.engine.notices ∧
    (ackThrough b n s).engine.recoveryDone = s.engine.recoveryDone ∧ (ackThrough b n s).powered = s.powered ∧
    (ackThrough b n s).out = s.out ∧ (ackThrough b n s).nvBefore = s.nvBefore ∧
    (ackThrough b n s).freeUsed = s.freeUsed ∧ (ackThrough b n s).pending = s.pending := by
  have h (l : List Nat) := foldl_keeps (fun x : State => (x.line, x.tables, x.posns, x.screens, x.keys, x.drawers, x.groups, x.jc.unreadable, x.jc.replay,
      x.day, x.clock, x.store, x.queues, x.printers, x.engine.lastBatch, x.engine.notices,
      x.engine.recoveryDone, x.powered, x.out, x.nvBefore, x.freeUsed, x.pending))
      (fun s i => ackBlock b.kind i s) (by intros; simp) l s
  simp only [Prod.mk.injEq] at h
  simp [ackThrough, h]

@[simp] theorem failBatch_frame (c : FailCause) (s : State) :
    (failBatch c s).line.state = s.line.state ∧ (failBatch c s).line.timer = s.line.timer ∧
    (failBatch c s).line.framer = s.line.framer ∧ (failBatch c s).line.sending = s.line.sending ∧
    (failBatch c s).tables = s.tables ∧ (failBatch c s).posns = s.posns ∧ (failBatch c s).screens = s.screens ∧
    (failBatch c s).keys = s.keys ∧ (failBatch c s).drawers = s.drawers ∧ (failBatch c s).groups = s.groups ∧
    (failBatch c s).nv = s.nv ∧ (failBatch c s).jc = s.jc ∧ (failBatch c s).day.state = s.day.state ∧
    (failBatch c s).day.date = s.day.date ∧ (failBatch c s).day.alarm = s.day.alarm ∧
    (failBatch c s).day.retainedBad = s.day.retainedBad ∧ (failBatch c s).clock = s.clock ∧
    (failBatch c s).store = s.store ∧ (failBatch c s).queues = s.queues ∧ (failBatch c s).printers = s.printers ∧
    (failBatch c s).engine.notices = s.engine.notices ∧ (failBatch c s).engine.recoveryDone = s.engine.recoveryDone ∧
    (failBatch c s).powered = s.powered ∧ (failBatch c s).out = s.out ∧ (failBatch c s).nvBefore = s.nvBefore ∧
    (failBatch c s).nvLog = s.nvLog ∧ (failBatch c s).freeUsed = s.freeUsed ∧ (failBatch c s).pending = s.pending := by
  unfold failBatch; dsimp only; (repeat' split) <;> simp

@[simp] theorem acceptAck_frame (b : Batch) (n : Nat) (s : State) :
    (acceptAck b n s).line.state = s.line.state ∧ (acceptAck b n s).line.timer = s.line.timer ∧
    (acceptAck b n s).line.framer = s.line.framer ∧ (acceptAck b n s).line.sending = s.line.sending ∧
    (acceptAck b n s).tables = s.tables ∧ (acceptAck b n s).posns = s.posns ∧ (acceptAck b n s).screens = s.screens ∧
    (acceptAck b n s).keys = s.keys ∧ (acceptAck b n s).drawers = s.drawers ∧ (acceptAck b n s).groups = s.groups ∧
    (acceptAck b n s).jc.unreadable = s.jc.unreadable ∧ (acceptAck b n s).jc.replay = s.jc.replay ∧
    (acceptAck b n s).day.state = s.day.state ∧ (acceptAck b n s).day.date = s.day.date ∧
    (acceptAck b n s).day.alarm = s.day.alarm ∧ (acceptAck b n s).day.retainedBad = s.day.retainedBad ∧
    (acceptAck b n s).clock = s.clock ∧ (acceptAck b n s).store = s.store ∧ (acceptAck b n s).queues = s.queues ∧
    (acceptAck b n s).printers = s.printers ∧ (acceptAck b n s).engine.notices = s.engine.notices ∧
    (acceptAck b n s).engine.recoveryDone = s.engine.recoveryDone ∧ (acceptAck b n s).powered = s.powered ∧
    (acceptAck b n s).out = s.out ∧ (acceptAck b n s).nvBefore = s.nvBefore ∧
    (acceptAck b n s).freeUsed = s.freeUsed ∧ (acceptAck b n s).pending = s.pending := by
  unfold acceptAck; dsimp only; (repeat' split) <;> simp

@[simp] theorem refuseAck_frame (b : Batch) (n : Nat) (s : State) :
    (refuseAck b n s).line.state = s.line.state ∧ (refuseAck b n s).line.timer = s.line.timer ∧
    (refuseAck b n s).line.framer = s.line.framer ∧ (refuseAck b n s).line.sending = s.line.sending ∧
    (refuseAck b n s).tables = s.tables ∧ (refuseAck b n s).posns = s.posns ∧ (refuseAck b n s).screens = s.screens ∧
    (refuseAck b n s).keys = s.keys ∧ (refuseAck b n s).drawers = s.drawers ∧ (refuseAck b n s).groups = s.groups ∧
    (refuseAck b n s).jc.unreadable = s.jc.unreadable ∧ (refuseAck b n s).jc.replay = s.jc.replay ∧
    (refuseAck b n s).day.state = s.day.state ∧ (refuseAck b n s).day.date = s.day.date ∧
    (refuseAck b n s).day.alarm = s.day.alarm ∧ (refuseAck b n s).day.retainedBad = s.day.retainedBad ∧
    (refuseAck b n s).clock = s.clock ∧ (refuseAck b n s).store = s.store ∧ (refuseAck b n s).queues = s.queues ∧
    (refuseAck b n s).printers = s.printers ∧ (refuseAck b n s).engine.notices = s.engine.notices ∧
    (refuseAck b n s).engine.recoveryDone = s.engine.recoveryDone ∧ (refuseAck b n s).powered = s.powered ∧
    (refuseAck b n s).out = s.out ∧ (refuseAck b n s).nvBefore = s.nvBefore ∧
    (refuseAck b n s).freeUsed = s.freeUsed ∧ (refuseAck b n s).pending = s.pending := by
  unfold refuseAck; dsimp only; split <;> simp

@[simp] theorem engineLoss_frame (s : State) :
    (engineLoss s).line = s.line ∧ (engineLoss s).tables = s.tables ∧ (engineLoss s).posns = s.posns ∧
    (engineLoss s).screens = s.screens ∧ (engineLoss s).keys = s.keys ∧ (engineLoss s).drawers = s.drawers ∧
    (engineLoss s).groups = s.groups ∧ (engineLoss s).nv = s.nv ∧ (engineLoss s).jc = s.jc ∧
    (engineLoss s).day = s.day ∧ (engineLoss s).clock = s.clock ∧ (engineLoss s).store = s.store ∧
    (engineLoss s).queues = s.queues ∧ (engineLoss s).printers = s.printers ∧
    (engineLoss s).engine.notices = s.engine.notices ∧ (engineLoss s).engine.recoveryDone = s.engine.recoveryDone ∧
    (engineLoss s).powered = s.powered ∧ (engineLoss s).out = s.out ∧ (engineLoss s).nvBefore = s.nvBefore ∧
    (engineLoss s).nvLog = s.nvLog ∧ (engineLoss s).freeUsed = s.freeUsed ∧ (engineLoss s).pending = s.pending := by
  unfold engineLoss; split <;> simp [Engine.pause]

@[simp] theorem engineReturn_frame (s : State) :
    (engineReturn s).line.state = s.line.state ∧ (engineReturn s).line.timer = s.line.timer ∧
    (engineReturn s).line.framer = s.line.framer ∧ (engineReturn s).line.sending = s.line.sending ∧
    (engineReturn s).tables = s.tables ∧ (engineReturn s).posns = s.posns ∧ (engineReturn s).screens = s.screens ∧
    (engineReturn s).keys = s.keys ∧ (engineReturn s).drawers = s.drawers ∧ (engineReturn s).groups = s.groups ∧
    (engineReturn s).nv = s.nv ∧ (engineReturn s).jc = s.jc ∧ (engineReturn s).day.state = s.day.state ∧
    (engineReturn s).day.date = s.day.date ∧ (engineReturn s).day.alarm = s.day.alarm ∧
    (engineReturn s).day.retainedBad = s.day.retainedBad ∧ (engineReturn s).clock = s.clock ∧
    (engineReturn s).store = s.store ∧ (engineReturn s).queues = s.queues ∧ (engineReturn s).printers = s.printers ∧
    (engineReturn s).engine.notices = s.engine.notices ∧
    (engineReturn s).engine.recoveryDone = s.engine.recoveryDone ∧ (engineReturn s).powered = s.powered ∧
    (engineReturn s).out = s.out ∧ (engineReturn s).nvBefore = s.nvBefore ∧ (engineReturn s).nvLog = s.nvLog ∧
    (engineReturn s).freeUsed = s.freeUsed ∧ (engineReturn s).pending = s.pending := by
  unfold engineReturn; split <;> simp

@[simp] theorem takeNotice_frame (n : LineNotice) (s : State) :
    (takeNotice n s).line.state = s.line.state ∧ (takeNotice n s).line.timer = s.line.timer ∧
    (takeNotice n s).line.framer = s.line.framer ∧ (takeNotice n s).line.sending = s.line.sending ∧
    (takeNotice n s).tables = s.tables ∧ (takeNotice n s).posns = s.posns ∧ (takeNotice n s).screens = s.screens ∧
    (takeNotice n s).keys = s.keys ∧ (takeNotice n s).drawers = s.drawers ∧ (takeNotice n s).groups = s.groups ∧
    (takeNotice n s).nv = s.nv ∧ (takeNotice n s).jc = s.jc ∧ (takeNotice n s).day.state = s.day.state ∧
    (takeNotice n s).day.date = s.day.date ∧ (takeNotice n s).day.alarm = s.day.alarm ∧
    (takeNotice n s).day.retainedBad = s.day.retainedBad ∧ (takeNotice n s).clock = s.clock ∧
    (takeNotice n s).store = s.store ∧ (takeNotice n s).queues = s.queues ∧ (takeNotice n s).printers = s.printers ∧
    (takeNotice n s).engine.notices = s.engine.notices ∧
    (takeNotice n s).engine.recoveryDone = s.engine.recoveryDone ∧ (takeNotice n s).powered = s.powered ∧
    (takeNotice n s).out = s.out ∧ (takeNotice n s).nvBefore = s.nvBefore ∧ (takeNotice n s).nvLog = s.nvLog ∧
    (takeNotice n s).freeUsed = s.freeUsed ∧ (takeNotice n s).pending = s.pending := by
  cases n <;> simp [takeNotice]

@[simp] theorem takeNotices_frame (s : State) :
    (takeNotices s).line.state = s.line.state ∧ (takeNotices s).line.timer = s.line.timer ∧
    (takeNotices s).line.framer = s.line.framer ∧ (takeNotices s).line.sending = s.line.sending ∧
    (takeNotices s).tables = s.tables ∧ (takeNotices s).posns = s.posns ∧ (takeNotices s).screens = s.screens ∧
    (takeNotices s).keys = s.keys ∧ (takeNotices s).drawers = s.drawers ∧ (takeNotices s).groups = s.groups ∧
    (takeNotices s).nv = s.nv ∧ (takeNotices s).jc = s.jc ∧ (takeNotices s).day.state = s.day.state ∧
    (takeNotices s).day.date = s.day.date ∧ (takeNotices s).day.alarm = s.day.alarm ∧
    (takeNotices s).day.retainedBad = s.day.retainedBad ∧ (takeNotices s).clock = s.clock ∧
    (takeNotices s).store = s.store ∧ (takeNotices s).queues = s.queues ∧ (takeNotices s).printers = s.printers ∧
    (takeNotices s).engine.recoveryDone = s.engine.recoveryDone ∧ (takeNotices s).powered = s.powered ∧
    (takeNotices s).out = s.out ∧ (takeNotices s).nvBefore = s.nvBefore ∧ (takeNotices s).nvLog = s.nvLog ∧
    (takeNotices s).freeUsed = s.freeUsed ∧ (takeNotices s).pending = s.pending := by
  unfold takeNotices
  simpa using foldl_keeps (fun x : State => (x.line.state, x.line.timer, x.line.framer, x.line.sending, x.tables, x.posns, x.screens, x.keys,
      x.drawers, x.groups, x.nv, x.jc, x.day.state, x.day.date, x.day.alarm, x.day.retainedBad, x.clock,
      x.store, x.queues, x.printers, x.engine.recoveryDone, x.powered, x.out, x.nvBefore, x.nvLog,
      x.freeUsed, x.pending))
      (fun s n => takeNotice n s) (by intros; simp) s.engine.notices (s.updEngine fun e => { e with notices := [] })

@[simp] theorem dayBatchAtClosing_frame (s : State) :
    (dayBatchAtClosing s).line.state = s.line.state ∧ (dayBatchAtClosing s).line.timer = s.line.timer ∧
    (dayBatchAtClosing s).line.framer = s.line.framer ∧ (dayBatchAtClosing s).line.sending = s.line.sending ∧
    (dayBatchAtClosing s).tables = s.tables ∧ (dayBatchAtClosing s).posns = s.posns ∧
    (dayBatchAtClosing s).screens = s.screens ∧ (dayBatchAtClosing s).keys = s.keys ∧
    (dayBatchAtClosing s).drawers = s.drawers ∧ (dayBatchAtClosing s).groups = s.groups ∧
    (dayBatchAtClosing s).nv = s.nv ∧ (dayBatchAtClosing s).jc = s.jc ∧
    (dayBatchAtClosing s).day.state = s.day.state ∧ (dayBatchAtClosing s).day.date = s.day.date ∧
    (dayBatchAtClosing s).day.alarm = s.day.alarm ∧ (dayBatchAtClosing s).day.retainedBad = s.day.retainedBad ∧
    (dayBatchAtClosing s).clock = s.clock ∧ (dayBatchAtClosing s).store = s.store ∧
    (dayBatchAtClosing s).queues = s.queues ∧ (dayBatchAtClosing s).printers = s.printers ∧
    (dayBatchAtClosing s).engine.notices = s.engine.notices ∧
    (dayBatchAtClosing s).engine.recoveryDone = s.engine.recoveryDone ∧ (dayBatchAtClosing s).powered = s.powered ∧
    (dayBatchAtClosing s).out = s.out ∧ (dayBatchAtClosing s).nvBefore = s.nvBefore ∧
    (dayBatchAtClosing s).nvLog = s.nvLog ∧ (dayBatchAtClosing s).freeUsed = s.freeUsed ∧
    (dayBatchAtClosing s).pending = s.pending := by
  unfold dayBatchAtClosing; (repeat' split) <;> simp

@[simp] theorem restartEngine_frame (s : State) :
    (restartEngine s).line.state = s.line.state ∧ (restartEngine s).line.timer = s.line.timer ∧
    (restartEngine s).line.framer = s.line.framer ∧ (restartEngine s).line.sending = s.line.sending ∧
    (restartEngine s).tables = s.tables ∧ (restartEngine s).posns = s.posns ∧ (restartEngine s).screens = s.screens ∧
    (restartEngine s).keys = s.keys ∧ (restartEngine s).drawers = s.drawers ∧ (restartEngine s).groups = s.groups ∧
    (restartEngine s).nv = s.nv ∧ (restartEngine s).jc = s.jc ∧ (restartEngine s).day = s.day ∧
    (restartEngine s).clock = s.clock ∧ (restartEngine s).store = s.store ∧ (restartEngine s).queues = s.queues ∧
    (restartEngine s).printers = s.printers ∧ (restartEngine s).engine.notices = s.engine.notices ∧
    (restartEngine s).engine.recoveryDone = s.engine.recoveryDone ∧ (restartEngine s).powered = s.powered ∧
    (restartEngine s).out = s.out ∧ (restartEngine s).nvBefore = s.nvBefore ∧ (restartEngine s).nvLog = s.nvLog ∧
    (restartEngine s).freeUsed = s.freeUsed ∧ (restartEngine s).pending = s.pending := by
  unfold restartEngine; split <;> simp

@[simp] theorem startLineTimer_frame (s : State) :
    (startLineTimer s).tables = s.tables ∧ (startLineTimer s).posns = s.posns ∧
    (startLineTimer s).screens = s.screens ∧ (startLineTimer s).keys = s.keys ∧
    (startLineTimer s).drawers = s.drawers ∧ (startLineTimer s).groups = s.groups ∧ (startLineTimer s).nv = s.nv ∧
    (startLineTimer s).jc = s.jc ∧ (startLineTimer s).day = s.day ∧ (startLineTimer s).clock = s.clock ∧
    (startLineTimer s).store = s.store ∧ (startLineTimer s).queues = s.queues ∧
    (startLineTimer s).printers = s.printers ∧ (startLineTimer s).engine = s.engine ∧
    (startLineTimer s).powered = s.powered ∧ (startLineTimer s).out = s.out ∧
    (startLineTimer s).nvBefore = s.nvBefore ∧ (startLineTimer s).nvLog = s.nvLog ∧
    (startLineTimer s).freeUsed = s.freeUsed ∧ (startLineTimer s).pending = s.pending := by
  simp [startLineTimer]

@[simp] theorem lineReturn_frame (s : State) :
    (lineReturn s).tables = s.tables ∧ (lineReturn s).posns = s.posns ∧ (lineReturn s).keys = s.keys ∧
    (lineReturn s).drawers = s.drawers ∧ (lineReturn s).groups = s.groups ∧ (lineReturn s).nv = s.nv ∧
    (lineReturn s).jc = s.jc ∧ (lineReturn s).day = s.day ∧ (lineReturn s).clock = s.clock ∧
    (lineReturn s).store = s.store ∧ (lineReturn s).queues = s.queues ∧ (lineReturn s).printers = s.printers ∧
    (lineReturn s).powered = s.powered ∧ (lineReturn s).out = s.out ∧ (lineReturn s).nvBefore = s.nvBefore ∧
    (lineReturn s).nvLog = s.nvLog ∧ (lineReturn s).freeUsed = s.freeUsed ∧ (lineReturn s).pending = s.pending := by
  simp [lineReturn]

@[simp] theorem arrive_frame (s : State) :
    (arrive s).tables = s.tables ∧ (arrive s).posns = s.posns ∧ (arrive s).keys = s.keys ∧
    (arrive s).drawers = s.drawers ∧ (arrive s).groups = s.groups ∧ (arrive s).nv = s.nv ∧ (arrive s).jc = s.jc ∧
    (arrive s).day = s.day ∧ (arrive s).clock = s.clock ∧ (arrive s).store = s.store ∧ (arrive s).queues = s.queues ∧
    (arrive s).printers = s.printers ∧ (arrive s).powered = s.powered ∧ (arrive s).out = s.out ∧
    (arrive s).nvBefore = s.nvBefore ∧ (arrive s).nvLog = s.nvLog ∧ (arrive s).freeUsed = s.freeUsed ∧
    (arrive s).pending = s.pending := by
  unfold arrive; dsimp only; split <;> simp

@[simp] theorem writeRetained_frame (c : RetainedCause) (b : Option RetainedRec) (s : State) :
    (writeRetained c b s).line.state = s.line.state ∧ (writeRetained c b s).line.timer = s.line.timer ∧
    (writeRetained c b s).line.framer = s.line.framer ∧ (writeRetained c b s).line.sending = s.line.sending ∧
    (writeRetained c b s).tables = s.tables ∧ (writeRetained c b s).posns = s.posns ∧
    (writeRetained c b s).screens = s.screens ∧ (writeRetained c b s).keys = s.keys ∧
    (writeRetained c b s).drawers = s.drawers ∧ (writeRetained c b s).groups = s.groups ∧
    (writeRetained c b s).jc = s.jc ∧ (writeRetained c b s).day.date = s.day.date ∧
    (writeRetained c b s).day.alarm = s.day.alarm ∧ (writeRetained c b s).day.completions = s.day.completions ∧
    (writeRetained c b s).clock = s.clock ∧ (writeRetained c b s).store = s.store ∧
    (writeRetained c b s).queues = s.queues ∧ (writeRetained c b s).printers = s.printers ∧
    (writeRetained c b s).engine = s.engine ∧ (writeRetained c b s).powered = s.powered ∧
    (writeRetained c b s).out = s.out ∧ (writeRetained c b s).nvBefore = s.nvBefore ∧
    (writeRetained c b s).freeUsed = s.freeUsed ∧ (writeRetained c b s).pending = s.pending := by
  unfold writeRetained; dsimp only; (repeat' split) <;> simp

@[simp] theorem setDay_frame (d : DayState) (s : State) :
    (setDay d s).line = s.line ∧ (setDay d s).tables = s.tables ∧ (setDay d s).posns = s.posns ∧
    (setDay d s).keys = s.keys ∧ (setDay d s).drawers = s.drawers ∧ (setDay d s).groups = s.groups ∧
    (setDay d s).nv = s.nv ∧ (setDay d s).jc = s.jc ∧ (setDay d s).day.date = s.day.date ∧
    (setDay d s).day.alarm = s.day.alarm ∧ (setDay d s).day.retainedBad = s.day.retainedBad ∧
    (setDay d s).day.completions = s.day.completions ∧ (setDay d s).clock = s.clock ∧ (setDay d s).store = s.store ∧
    (setDay d s).queues = s.queues ∧ (setDay d s).printers = s.printers ∧ (setDay d s).engine = s.engine ∧
    (setDay d s).powered = s.powered ∧ (setDay d s).out = s.out ∧ (setDay d s).nvBefore = s.nvBefore ∧
    (setDay d s).nvLog = s.nvLog ∧ (setDay d s).freeUsed = s.freeUsed ∧ (setDay d s).pending = s.pending := by
  simp [setDay]

@[simp] theorem appendBacklog_frame (s : State) (b : Account × List Nat) :
    (appendBacklog s b).line.state = s.line.state ∧ (appendBacklog s b).line.timer = s.line.timer ∧
    (appendBacklog s b).line.framer = s.line.framer ∧ (appendBacklog s b).line.sending = s.line.sending ∧
    (appendBacklog s b).tables = s.tables ∧ (appendBacklog s b).posns = s.posns ∧
    (appendBacklog s b).screens = s.screens ∧ (appendBacklog s b).keys = s.keys ∧
    (appendBacklog s b).drawers = s.drawers ∧ (appendBacklog s b).groups = s.groups ∧
    (appendBacklog s b).jc.unreadable = s.jc.unreadable ∧ (appendBacklog s b).jc.replay = s.jc.replay ∧
    (appendBacklog s b).day = s.day ∧ (appendBacklog s b).clock = s.clock ∧ (appendBacklog s b).store = s.store ∧
    (appendBacklog s b).queues = s.queues ∧ (appendBacklog s b).printers = s.printers ∧
    (appendBacklog s b).engine = s.engine ∧ (appendBacklog s b).powered = s.powered ∧
    (appendBacklog s b).out = s.out ∧ (appendBacklog s b).nvBefore = s.nvBefore ∧
    (appendBacklog s b).freeUsed = s.freeUsed ∧ (appendBacklog s b).pending = s.pending := by
  simp [appendBacklog]

@[simp] theorem appendClose_frame (f : Bool) (d : RecDay) (s : State) :
    (appendClose f d s).line.state = s.line.state ∧ (appendClose f d s).line.timer = s.line.timer ∧
    (appendClose f d s).line.framer = s.line.framer ∧ (appendClose f d s).line.sending = s.line.sending ∧
    (appendClose f d s).tables = s.tables ∧ (appendClose f d s).posns = s.posns ∧
    (appendClose f d s).screens = s.screens ∧ (appendClose f d s).keys = s.keys ∧
    (appendClose f d s).drawers = s.drawers ∧ (appendClose f d s).groups = s.groups ∧
    (appendClose f d s).jc.unreadable = s.jc.unreadable ∧ (appendClose f d s).jc.replay = s.jc.replay ∧
    (appendClose f d s).day = s.day ∧ (appendClose f d s).clock = s.clock ∧ (appendClose f d s).store = s.store ∧
    (appendClose f d s).queues = s.queues ∧ (appendClose f d s).printers = s.printers ∧
    (appendClose f d s).engine = s.engine ∧ (appendClose f d s).powered = s.powered ∧
    (appendClose f d s).out = s.out ∧ (appendClose f d s).nvBefore = s.nvBefore ∧
    (appendClose f d s).freeUsed = s.freeUsed ∧ (appendClose f d s).pending = s.pending := by
  simp [appendClose]

@[simp] theorem signOffAll_frame (s : State) :
    (signOffAll s).line = s.line ∧ (signOffAll s).tables = s.tables ∧ (signOffAll s).nv = s.nv ∧
    (signOffAll s).jc = s.jc ∧ (signOffAll s).day = s.day ∧ (signOffAll s).clock = s.clock ∧
    (signOffAll s).store = s.store ∧ (signOffAll s).queues = s.queues ∧ (signOffAll s).printers = s.printers ∧
    (signOffAll s).engine = s.engine ∧ (signOffAll s).powered = s.powered ∧ (signOffAll s).out = s.out ∧
    (signOffAll s).nvBefore = s.nvBefore ∧ (signOffAll s).nvLog = s.nvLog ∧ (signOffAll s).freeUsed = s.freeUsed ∧
    (signOffAll s).pending = s.pending := by
  unfold signOffAll eachPos
  simpa using foldl_keeps (fun x : State => (x.line, x.tables, x.nv, x.jc, x.day, x.clock, x.store, x.queues, x.printers, x.engine, x.powered,
      x.out, x.nvBefore, x.nvLog, x.freeUsed, x.pending))
      (fun s p => if (rd s.posns p).state = .signedOff then s else signOffPos p s) (by intros; split <;> simp) allPos s

@[simp] theorem handOnLine_frame (p : Pos) (l : Option (Account × Option Nat × PLine)) (s : State) :
    (handOnLine p l s).line = s.line ∧ (handOnLine p l s).tables = s.tables ∧ (handOnLine p l s).posns = s.posns ∧
    (handOnLine p l s).keys = s.keys ∧ (handOnLine p l s).drawers = s.drawers ∧ (handOnLine p l s).groups = s.groups ∧
    (handOnLine p l s).jc = s.jc ∧ (handOnLine p l s).day = s.day ∧ (handOnLine p l s).clock = s.clock ∧
    (handOnLine p l s).engine = s.engine ∧ (handOnLine p l s).powered = s.powered ∧ (handOnLine p l s).out = s.out ∧
    (handOnLine p l s).nvBefore = s.nvBefore ∧ (handOnLine p l s).freeUsed = s.freeUsed ∧
    (handOnLine p l s).pending = s.pending := by
  unfold handOnLine; (repeat' split) <;> simp

@[simp] theorem matchEntry_frame (p : Pos) (x : Option Nat) (s : State) :
    (matchEntry p x s).line = s.line ∧ (matchEntry p x s).tables = s.tables ∧ (matchEntry p x s).drawers = s.drawers ∧
    (matchEntry p x s).groups = s.groups ∧ (matchEntry p x s).nv = s.nv ∧ (matchEntry p x s).jc = s.jc ∧
    (matchEntry p x s).day = s.day ∧ (matchEntry p x s).clock = s.clock ∧ (matchEntry p x s).store = s.store ∧
    (matchEntry p x s).queues = s.queues ∧ (matchEntry p x s).printers = s.printers ∧
    (matchEntry p x s).engine = s.engine ∧ (matchEntry p x s).powered = s.powered ∧ (matchEntry p x s).out = s.out ∧
    (matchEntry p x s).nvBefore = s.nvBefore ∧ (matchEntry p x s).nvLog = s.nvLog ∧
    (matchEntry p x s).freeUsed = s.freeUsed ∧ (matchEntry p x s).pending = s.pending := by
  unfold matchEntry; dsimp only; (repeat' split) <;> simp

@[simp] theorem reportLate_frame (p : Pos) (r : PosRec) (x : Option Nat) (q : Nat) (s : State) :
    (reportLate p r x q s).line.state = s.line.state ∧ (reportLate p r x q s).line.timer = s.line.timer ∧
    (reportLate p r x q s).line.framer = s.line.framer ∧ (reportLate p r x q s).line.sending = s.line.sending ∧
    (reportLate p r x q s).tables = s.tables ∧ (reportLate p r x q s).posns = s.posns ∧
    (reportLate p r x q s).screens = s.screens ∧ (reportLate p r x q s).keys = s.keys ∧
    (reportLate p r x q s).drawers = s.drawers ∧ (reportLate p r x q s).groups = s.groups ∧
    (reportLate p r x q s).nv = s.nv ∧ (reportLate p r x q s).jc = s.jc ∧ (reportLate p r x q s).day = s.day ∧
    (reportLate p r x q s).clock = s.clock ∧ (reportLate p r x q s).store = s.store ∧
    (reportLate p r x q s).queues = s.queues ∧ (reportLate p r x q s).printers = s.printers ∧
    (reportLate p r x q s).engine = s.engine ∧ (reportLate p r x q s).powered = s.powered ∧
    (reportLate p r x q s).out = s.out ∧ (reportLate p r x q s).nvBefore = s.nvBefore ∧
    (reportLate p r x q s).nvLog = s.nvLog ∧ (reportLate p r x q s).freeUsed = s.freeUsed ∧
    (reportLate p r x q s).pending = s.pending := by
  unfold reportLate; (repeat' split) <;> simp

end Sys2Proof.Machine
end

