-- ==== Sys2Proof/Laws/Effects.lean ====
section
/-! SUPPORT. What the operations every command goes through do, said once each: how a command reaches its meaning, what a
reply, a report and a tone add, and what the arrival of a message leaves. -/

namespace Sys2Proof.Machine

/-! ## Dirty rows -/

theorem mem_insertRow (r x : Nat) (l : List Nat) : x ∈ insertRow r l ↔ x = r ∨ x ∈ l := by
  induction l with
  | nil => simp [insertRow]
  | cons a l ih =>
    unfold insertRow
    split
    · simp
    · split
      · next h => subst h; simp
      · simp only [List.mem_cons, ih]; tauto

@[simp] theorem mark_dirty (r x : Nat) (sc : Screen) : x ∈ (sc.mark r).dirty ↔ x = r ∨ x ∈ sc.dirty := by
  simp [Screen.mark, mem_insertRow]

@[simp] theorem mark_area (r : Nat) (sc : Screen) : (sc.mark r).area = sc.area := rfl
@[simp] theorem mark_form (r : Nat) (sc : Screen) : (sc.mark r).form = sc.form := rfl
@[simp] theorem mark_cursor (r : Nat) (sc : Screen) : (sc.mark r).cursor = sc.cursor := rfl
@[simp] theorem mark_ring (r : Nat) (sc : Screen) : (sc.mark r).ring = sc.ring := rfl
@[simp] theorem mark_newest (r : Nat) (sc : Screen) : (sc.mark r).newest = sc.newest := rfl
@[simp] theorem mark_column (r : Nat) (sc : Screen) : (sc.mark r).column = sc.column := rfl
@[simp] theorem mark_review (r : Nat) (sc : Screen) : (sc.mark r).review = sc.review := rfl
@[simp] theorem mark_prompts (r : Nat) (sc : Screen) : (sc.mark r).prompts = sc.prompts := rfl
@[simp] theorem mark_noPrinter (r : Nat) (sc : Screen) : (sc.mark r).noPrinter = sc.noPrinter := rfl
@[simp] theorem mark_inFlight (r : Nat) (sc : Screen) : (sc.mark r).inFlight = sc.inFlight := rfl
@[simp] theorem mark_present (r : Nat) (sc : Screen) : (sc.mark r).present = sc.present := rfl

/-- Marks of a list of rows: those rows are dirty too, and nothing else differs. -/
theorem foldl_insertRow (rs : List Nat) (l : List Nat) (x : Nat) :
    x ∈ rs.foldl (fun d r => insertRow r d) l ↔ x ∈ rs ∨ x ∈ l := by
  induction rs generalizing l with
  | nil => simp
  | cons r rs ih => simp only [List.foldl_cons, ih, mem_insertRow, List.mem_cons]; tauto

@[simp] theorem markArea_dirty (sc : Screen) (x : Nat) : x ∈ sc.markArea.dirty ↔ (1 ≤ x ∧ x ≤ 15) ∨ x ∈ sc.dirty := by
  have : (1 ≤ x ∧ x < 1 + 15) ↔ (1 ≤ x ∧ x ≤ 15) := by omega
  simp only [Screen.markArea, foldl_insertRow, List.mem_range'_1, this]

/-! ## Screens that differ in dirty rows -/

theorem SameButDirty.rfl (a : Screen) : SameButDirty a a := Eq.refl _
theorem SameButDirty.symm {a b : Screen} (h : SameButDirty a b) : SameButDirty b a := Eq.symm h
theorem SameButDirty.trans {a b c : Screen} (h : SameButDirty a b) (k : SameButDirty b c) : SameButDirty a c := Eq.trans h k
theorem SameButDirty.mark (r : Nat) (a : Screen) : SameButDirty a (a.mark r) := Eq.refl _

/-- The window's marks leave what the change made, dirty rows aside, and take no mark away. -/
theorem withWindow_same (f : Screen → Screen) (sc : Screen) : SameButDirty (f sc) (sc.withWindow f) := by
  simp only [Screen.withWindow, List.foldl_cons, List.foldl_nil]
  (repeat' split) <;> rfl

theorem withWindow_dirty (f : Screen → Screen) (sc : Screen) (x : Nat) (h : x ∈ (f sc).dirty) : x ∈ (sc.withWindow f).dirty := by
  simp only [Screen.withWindow, List.foldl_cons, List.foldl_nil]
  (repeat' split) <;> simp [h]

/-! ## Tones, reports and replies -/

@[simp] theorem tone_out (p : Pos) (s : State) : (tone p s).out = s.out ++ toneOut s p := by
  unfold tone toneOut; split <;> simp

theorem replyWith_eq (h : Hdr) (st : Status) (x : Extra) (s : State) : replyWith h st x s = answered h st x s := by
  unfold replyWith answered Config.outboundMax; split <;> rfl

theorem reply_eq (h : Hdr) (st : Status) (s : State) : reply h st s = answered h st .none s := replyWith_eq ..

theorem outboundRoom_iff (s : State) : outboundRoom s = true ↔ s.line.outbound.length < 28 :=
  ⟨fun h => of_decide_eq_true h, fun h => decide_eq_true h⟩

/-- The messages a report adds to the outbound queue (R154, R174). -/
def reportedOf (p : Nat) (r : Report) (s : State) : List OutMsg :=
  if s.line.state = .online ∧ s.line.outbound.length < 28 then [⟨p, 0, .report r⟩] else []

theorem report_eq (p : Nat) (r : Report) (s : State) :
    report p r s = { s with line := { s.line with outbound := s.line.outbound ++ reportedOf p r s } } := by
  unfold report reportedOf
  simp only [outboundRoom_iff]
  split
  · rfl
  · simp

theorem report_outbound (p : Nat) (r : Report) (s : State) :
    (report p r s).line.outbound = s.line.outbound ++ reportedOf p r s := by rw [report_eq]

/-- Every operation on the outbound queue but the end of a sending adds at its tail. -/
theorem outbound_replyWith (h : Hdr) (st : Status) (x : Extra) (s : State) :
    s.line.outbound <+: (replyWith h st x s).line.outbound := by
  rw [replyWith_eq]; unfold answered; dsimp only; split
  · exact List.prefix_append _ _
  · exact List.prefix_refl _

theorem outbound_report (p : Nat) (r : Report) (s : State) : s.line.outbound <+: (report p r s).line.outbound := by
  rw [report_outbound]; exact List.prefix_append _ _

/-! ## How a command reaches its meaning -/

theorem event_eq (f : State → State) {s : State} (h : s.powered = true) : event f s = .next (f s.begin) := by
  simp [event, h]

theorem arrived_eq (s : State) : arrived s = arrive s.begin := rfl

@[simp] theorem arrived_frame (s : State) :
    (arrived s).tables = s.tables ∧ (arrived s).posns = s.posns ∧ (arrived s).keys = s.keys ∧
    (arrived s).drawers = s.drawers ∧ (arrived s).groups = s.groups ∧ (arrived s).nv = s.nv ∧ (arrived s).jc = s.jc ∧
    (arrived s).day = s.day ∧ (arrived s).clock = s.clock ∧ (arrived s).store = s.store ∧
    (arrived s).queues = s.queues ∧ (arrived s).printers = s.printers ∧ (arrived s).powered = s.powered ∧
    (arrived s).out = [] ∧ (arrived s).nvBefore = s.nv ∧ (arrived s).nvLog = [] ∧
    (arrived s).freeUsed = s.freeUsed ∧ (arrived s).pending = s.pending := by
  simp [arrived_eq]

theorem tableMessage_eq (f : State → State) {s : State} (h : s.powered = true) : tableMessage f s = .next (f (arrived s)) :=
  event_eq _ h

theorem message_eq (h : Hdr) (f : State → State) {s : State} (ht : Takes s) : message h f s = .next (f (arrived s)) := by
  rw [message, event_eq _ ht.1]
  have : (arrived s).day.state ≠ .recovering := by rw [(arrived_frame s).2.2.2.2.2.2.2.1]; exact ht.2
  simp only [← arrived_eq, this, if_false]

theorem message_recovering (h : Hdr) (f : State → State) {s : State} (hp : s.powered = true) (hd : s.day.state = .recovering) :
    message h f s = .next (answered h .recovering .none (arrived s)) := by
  rw [message, event_eq _ hp]
  have : (arrived s).day.state = .recovering := by rw [(arrived_frame s).2.2.2.2.2.2.2.1]; exact hd
  simp only [← arrived_eq, this, if_true, reply_eq]

theorem silentMessage_eq (f : State → State) {s : State} (ht : Takes s) : silentMessage f s = .next (f (arrived s)) := by
  rw [silentMessage, event_eq _ ht.1]
  have : (arrived s).day.state ≠ .recovering := by rw [(arrived_frame s).2.2.2.2.2.2.2.1]; exact ht.2
  simp only [← arrived_eq, this, if_false]

theorem silentMessage_recovering (f : State → State) {s : State} (hp : s.powered = true) (hd : s.day.state = .recovering) :
    silentMessage f s = .next (arrived s) := by
  rw [silentMessage, event_eq _ hp]
  have : (arrived s).day.state = .recovering := by rw [(arrived_frame s).2.2.2.2.2.2.2.1]; exact hd
  simp only [← arrived_eq, this, if_true]

theorem atPosition_eq (h : Hdr) (f : Pos → State → State) (s : State) {p : Pos} (hp : h.pos = p.val) :
    atPosition h f s = f p s := by
  have : h.pos < 16 := hp ▸ p.isLt
  simp only [atPosition, this, dite_true]
  congr 1
  exact Fin.ext hp

/-! ## Part notices -/

/-- What a part notice leaves of a screen: everything but the ring, its newest line and column, the offset and marks. -/
@[simp] theorem setReview_frame (o : Nat) (sc : Screen) :
    (sc.setReview o).area = sc.area ∧ (sc.setReview o).form = sc.form ∧ (sc.setReview o).cursor = sc.cursor ∧
    (sc.setReview o).ring = sc.ring ∧ (sc.setReview o).newest = sc.newest ∧ (sc.setReview o).column = sc.column ∧
    (sc.setReview o).review = o ∧ (sc.setReview o).prompts = sc.prompts ∧ (sc.setReview o).noPrinter = sc.noPrinter ∧
    (sc.setReview o).inFlight = sc.inFlight ∧ (sc.setReview o).present = sc.present := by
  unfold Screen.setReview
  split
  · next h => exact ⟨rfl, rfl, rfl, rfl, rfl, rfl, h, rfl, rfl, rfl, rfl⟩
  · have h := withWindow_same (fun sc => { sc with review := o }) sc
    simp only [SameButDirty, Screen.mk.injEq] at h
    simp only [mark_area, mark_form, mark_cursor, mark_ring, mark_newest, mark_column, mark_review, mark_prompts,
      mark_noPrinter, mark_inFlight, mark_present]
    obtain ⟨h1, h2, h3, h4, h5, h6, h7, h8, h9, -, h10, h11⟩ := h
    exact ⟨h1.symm, h2.symm, h3.symm, h4.symm, h5.symm, h6.symm, h7.symm, h8.symm, h9.symm, h10.symm, h11.symm⟩

/-! ## Notices ahead of a message, and the bytes of messages -/

/-- A message taken before the notices that wait (R167). -/
@[simp] theorem withNotices_false (f : State → State) (s : State) : withNotices false f s = f s := rfl

/-- A message taken after the notices that wait (R153). -/
@[simp] theorem withNotices_true (f : State → State) (s : State) : withNotices true f s = f (takeNotices s) := rfl

/-- With no notice waiting nothing is taken. -/
theorem takeNotices_nil {s : State} (h : s.engine.notices = []) : takeNotices s = s := by
  have e : { s.engine with notices := [] } = s.engine := by rw [← h]
  unfold takeNotices
  rw [h]
  show { s with engine := { s.engine with notices := [] } } = s
  rw [e]

/-- A discarded frame changes nothing (R172). -/
@[simp] theorem handOn_discarded (f : Bool) (r : Option RetainedRec) (s : State) : handOn f r s .discarded = s := rfl

/-- An empty table entry's answer has no content (R177). -/
@[simp] theorem contentBytes_empty : contentBytes .empty = [] := rfl

/-- A new block takes the number after the highest sent (R162). -/
theorem packBlock_number {b : Batch} {s : State} {f : Flight} (h : packBlock b s = some f) : f.number = b.highest + 1 := by
  unfold packBlock at h
  dsimp only at h
  split at h
  · cases h; rfl
  · cases h

end Sys2Proof.Machine
end

