-- ==== Sys2Proof/Laws/Journal.lean ====
section
/-! SUPPORT. What the Journal Controller's operations and the Position Manager's leave, said once each: an append, the
MIDNIGHT entry ahead of a request, an entry in doubt. -/

namespace Sys2Proof.Machine

/-! ## Appending -/

theorem lowSpaceCheck_outbound (s : State) : s.line.outbound <+: (lowSpaceCheck s).line.outbound := by
  unfold lowSpaceCheck; split
  · exact outbound_report _ _ { s with jc := { s.jc with lowSpace := true } }
  · exact List.prefix_refl _

theorem lowSpaceCheck_jc (s : State) : (lowSpaceCheck s).jc = { s.jc with lowSpace := (lowSpaceCheck s).jc.lowSpace } := by
  unfold lowSpaceCheck; split
  · rw [report_eq]
  · rfl

/-- An append writes its slots after the counted entries, then the control record with the new counts (R41, R45). -/
theorem append_nv (b : EntryBody) (s : State) :
    (append b s).nv = (s.nv.write (.slots (makeEntry b s))).write
      (.control (let g := { s.nv.control.fields with
          slotsUsed := s.nv.control.fields.slotsUsed + kindSlots b, entryCount := s.nv.control.fields.entryCount + 1 }
        ⟨g, crc16 (controlBytes g)⟩)) := by
  unfold append appendWith
  rw [(lowSpaceCheck_frame _).2.2.2.2.2.2.2.2.2.2.1]
  dsimp only
  split <;> rfl

theorem append_fields (b : EntryBody) (s : State) :
    (append b s).nv.control.fields = { s.nv.control.fields with
      slotsUsed := s.nv.control.fields.slotsUsed + kindSlots b, entryCount := s.nv.control.fields.entryCount + 1 } := by
  rw [append_nv]; rfl

theorem append_entries (b : EntryBody) (s : State) : (append b s).nv.entries = journal s ++ [makeEntry b s] := by
  rw [append_nv]; rfl

theorem append_retained (b : EntryBody) (s : State) : (append b s).nv.retained = s.nv.retained := by
  rw [append_nv]; rfl

theorem append_outbound (b : EntryBody) (s : State) : s.line.outbound <+: (append b s).line.outbound := by
  unfold append appendWith
  refine List.IsPrefix.trans ?_ (lowSpaceCheck_outbound _)
  dsimp only
  split <;> exact List.prefix_refl _

/-- The pending count of an append (R50): one more for a stand-in posting, else as it was. -/
theorem append_jc (b : EntryBody) (s : State) :
    (append b s).jc = { s.jc with
      lowSpace := (append b s).jc.lowSpace,
      pendingCount := s.jc.pendingCount + if firstForward b = .pending then 1 else 0 } := by
  have k : (makeEntry b s).fwd = firstForward b := rfl
  unfold append appendWith
  rw [lowSpaceCheck_jc]
  dsimp only
  rw [k]
  split <;> rfl

/-! ### The low-space flag -/

/-- What the check after an append does: the flag and, with it, JOURNAL_LOW (R48). -/
theorem lowSpaceCheck_eq (s : State) :
    lowSpaceCheck s = if s.jc.lowSpace = false ∧ 15872 < slotsUsed s then
      report 255 (.journalLow (slotsUsed s) s.nv.control.fields.entryCount (businessDate s))
        { s with jc := { s.jc with lowSpace := true } } else s := by
  unfold lowSpaceCheck
  simp only [Bool.not_eq_true', Config.lowMark, Config.wholePart]

/-- An event that goes on without a JOURNAL_LOW keeps what was told. -/
theorem LowSpaceTold.goesOn {bs : List EntryBody} {s t u : State} (h : LowSpaceTold bs s t) (hj : u.jc.lowSpace = t.jc.lowSpace)
    (hl : u.line.state = t.line.state) (ms : List OutMsg) (ho : u.line.outbound = t.line.outbound ++ ms)
    (hm : ∀ n c d, (⟨255, 0, .report (.journalLow n c d)⟩ : OutMsg) ∉ ms) : LowSpaceTold bs s u := by
  obtain ⟨h1, h2, h3⟩ := h
  refine ⟨by rw [hj]; exact h1, fun p ho' hu => ?_, fun n c d r => ?_⟩
  · rw [ho, List.length_append] at hu
    obtain ⟨n, c, r, k⟩ := h2 p (hl ▸ ho') (by omega)
    refine ⟨n, c, ?_, k⟩
    unfold Reported at r ⊢
    rw [ho, List.drop_append]
    exact List.mem_append_left _ r
  · unfold Reported at r
    rw [ho, List.drop_append] at r
    rcases List.mem_append.1 r with r | r
    · exact h3 n c d r
    · exact absurd (List.mem_of_mem_drop r) (hm n c d)

/-- Two events that append, one after the other. -/
theorem LowSpaceTold.trans {as bs : List EntryBody} {s t u : State} (h : LowSpaceTold as s t) (k : LowSpaceTold bs t u)
    (hf : t.nv.control.fields = { s.nv.control.fields with
      slotsUsed := s.nv.control.fields.slotsUsed + (as.map kindSlots).sum,
      entryCount := s.nv.control.fields.entryCount + as.length })
    (hl : u.line.state = t.line.state) (hs : s.line.outbound <+: t.line.outbound) (ht : t.line.outbound <+: u.line.outbound) :
    LowSpaceTold (as ++ bs) s u := by
  obtain ⟨h1, h2, h3⟩ := h
  obtain ⟨k1, k2, k3⟩ := k
  obtain ⟨ms, ho⟩ := ht
  have hd : u.line.outbound.drop s.line.outbound.length = t.line.outbound.drop s.line.outbound.length ++ ms := by
    rw [← ho, List.drop_append_of_le_length hs.length_le]
  have he : u.line.outbound.drop t.line.outbound.length = ms := by rw [← ho, List.drop_left]
  have hu : slotsUsed t = slotsUsed s + (as.map kindSlots).sum := by unfold slotsUsed; rw [hf]
  have hc : t.nv.control.fields.entryCount = s.nv.control.fields.entryCount + as.length := by rw [hf]
  have hb : businessDate t = businessDate s := by unfold businessDate; rw [hf]
  have hlen : t.line.outbound.length ≤ u.line.outbound.length := by rw [← ho, List.length_append]; omega
  rw [hu] at k1 k2
  have k3' : ∀ n c d, Reported 255 (.journalLow n c d) t u → t.jc.lowSpace = false ∧ bs ≠ [] ∧
      15872 < slotsUsed s + (as.map kindSlots).sum + (bs.map kindSlots).sum := fun n c d r => by rw [← hu]; exact k3 n c d r
  clear k3
  have split : ((as ++ bs).map kindSlots).sum = (as.map kindSlots).sum + (bs.map kindSlots).sum := by simp
  have low : t.jc.lowSpace = false → s.jc.lowSpace = false := fun e => by
    cases f : s.jc.lowSpace
    · rfl
    · exact absurd (h1.2 (Or.inl f)) (by rw [e]; decide)
  -- the second event passes the mark exactly when the first has not
  have passes : (s.jc.lowSpace = false ∧ as ++ bs ≠ [] ∧ 15872 < slotsUsed s + ((as ++ bs).map kindSlots).sum) ↔
      (s.jc.lowSpace = false ∧ as ≠ [] ∧ 15872 < slotsUsed s + (as.map kindSlots).sum) ∨
      (t.jc.lowSpace = false ∧ bs ≠ [] ∧ 15872 < slotsUsed s + (as.map kindSlots).sum + (bs.map kindSlots).sum) := by
    rw [split]
    constructor
    · rintro ⟨a, b, c⟩
      by_cases p : s.jc.lowSpace = false ∧ as ≠ [] ∧ 15872 < slotsUsed s + (as.map kindSlots).sum
      · exact Or.inl p
      · refine Or.inr ⟨?_, fun e => ?_, by omega⟩
        · cases f : t.jc.lowSpace
          · rfl
          · rcases h1.1 f with f | f
            · rw [a] at f; cases f
            · exact absurd f p
        · subst e
          exact p ⟨a, by simpa using b, by simpa using c⟩
    · rintro (⟨a, b, c⟩ | ⟨a, b, c⟩)
      · exact ⟨a, by simp [b], by omega⟩
      · exact ⟨low a, by simp [b], by omega⟩
  refine ⟨?_, fun p ho' hu' => ?_, fun n c d r => passes.2 ?_⟩
  · show _ ↔ _ ∨ (s.jc.lowSpace = false ∧ as ++ bs ≠ [] ∧ 15872 < slotsUsed s + ((as ++ bs).map kindSlots).sum)
    rw [passes, k1, h1]
    exact or_assoc
  · rcases passes.1 p with q | q
    · obtain ⟨n, c, r, k4, k5, k6, k7, k8⟩ := h2 q (hl ▸ ho') (by omega)
      refine ⟨n, c, ?_, k4, by rw [split]; omega, k6, by rw [List.length_append]; omega, fun e => ?_⟩
      · unfold Reported at r ⊢
        rw [hd]
        exact List.mem_append_left _ r
      · have hbs : bs = [] := List.eq_nil_of_length_eq_zero (by
          rw [List.length_append] at e
          have := List.length_pos_of_ne_nil q.2.1
          omega)
        subst hbs
        rw [List.append_nil] at e ⊢
        exact k8 e
    · obtain ⟨n, c, r, k4, k5, k6, k7, k8⟩ := k2 q ho' hu'
      rw [hb] at r
      refine ⟨n, c, ?_, k4, by rw [split]; omega, by omega, by rw [List.length_append]; omega, fun e => ?_⟩
      · unfold Reported at r ⊢
        rw [he] at r
        rw [hd]
        exact List.mem_append_right _ r
      · have has : as = [] := List.eq_nil_of_length_eq_zero (by
          rw [List.length_append] at e
          have := List.length_pos_of_ne_nil q.2.1
          omega)
        subst has
        simp only [List.nil_append, List.map_nil, List.sum_nil, List.length_nil, Nat.add_zero] at e hc k8 ⊢
        rw [← hc]
        exact k8 e
  · unfold Reported at r
    rw [hd] at r
    rcases List.mem_append.1 r with r | r
    · exact Or.inl (h3 n c d r)
    · exact Or.inr (k3' n c d (by unfold Reported; rw [he]; exact r))

/-- What one append tells. -/
theorem append_lowSpace (b : EntryBody) (s : State) : LowSpaceTold [b] s (append b s) := by
  obtain ⟨u, hu, hn, hl, hj⟩ : ∃ u, append b s = lowSpaceCheck u ∧ u.nv = (append b s).nv ∧ u.line = s.line ∧
      u.jc.lowSpace = s.jc.lowSpace := by
    refine ⟨_, rfl, (lowSpaceCheck_frame _).2.2.2.2.2.2.2.2.2.2.1.symm, ?_, ?_⟩ <;>
      (dsimp only; split <;> rfl)
  have hf := append_fields b s
  have hs : slotsUsed u = slotsUsed s + kindSlots b := by unfold slotsUsed; rw [hn, hf]
  have hc : u.nv.control.fields.entryCount = s.nv.control.fields.entryCount + 1 := by rw [hn, hf]
  have hb : businessDate u = businessDate s := by unfold businessDate; rw [hn, hf]
  rw [hu, lowSpaceCheck_eq, hs, hc, hb, hj]
  by_cases p : s.jc.lowSpace = false ∧ 15872 < slotsUsed s + kindSlots b
  · rw [if_pos p, report_eq]
    refine ⟨by simp [p.1, p.2], fun _ o q => ?_, fun n c d _ => ⟨p.1, by simp, by simpa using p.2⟩⟩
    simp only at o q
    rw [hl] at o q
    refine ⟨_, _, ?_, p.2, by simp, Nat.lt_succ_self _, by simp, fun _ => ⟨by simp, rfl⟩⟩
    have q' : s.line.outbound.length < 28 := by
      refine Nat.lt_of_le_of_lt ?_ q
      rw [List.length_append]
      exact Nat.le_add_right _ _
    simp [Reported, reportedOf, hl, o, q']
  · rw [if_neg p]
    have p' : ¬(s.jc.lowSpace = false ∧ [b] ≠ [] ∧ 15872 < slotsUsed s + ([b].map kindSlots).sum) :=
      fun k => p ⟨k.1, by simpa using k.2.2⟩
    refine ⟨?_, fun k => absurd k p', fun n c d r => ?_⟩
    · rw [hj]
      exact ⟨Or.inl, fun k => k.resolve_right p'⟩
    · unfold Reported at r
      rw [hl, List.drop_length] at r
      cases r

/-- What one append of an entry that is not PENDING leaves of the journal memory and the journal's marks. -/
theorem append_appended {b : EntryBody} (h : firstForward b ≠ .pending) (s : State) : Appended [b] s (append b s) := by
  refine ⟨?_, ?_, ?_, append_retained b s, ?_, append_lowSpace b s⟩
  · rw [append_entries, List.take_left]
  · rw [append_entries, List.drop_left]; rfl
  · rw [append_fields]; simp
  · have := append_jc b s
    simpa [h] using this

/-- The journal after an append, when the counted entries are all there. -/
theorem append_journal (b : EntryBody) {s : State} (h : s.nv.control.fields.entryCount ≤ s.nv.entries.length) :
    journal (append b s) = journal s ++ [makeEntry b s] := by
  unfold journal
  rw [append_fields, append_entries]
  apply List.take_of_length_le
  simp [journal, h]

/-- Appends made one after the other. -/
theorem Appended.trans {as bs : List EntryBody} {s t u : State} (h : Appended as s t) (k : Appended bs t u)
    (ho : u.line.state = t.line.state) (hp : s.line.outbound <+: t.line.outbound) (hq : t.line.outbound <+: u.line.outbound) :
    Appended (as ++ bs) s u := by
  obtain ⟨h1, h2, h3, h4, h5, h6⟩ := h
  obtain ⟨k1, k2, k3, k4, k5, k6⟩ := k
  have hl : (journal s).length ≤ s.nv.control.fields.entryCount := by simp [journal]
  have hs : t.nv.entries = journal s ++ t.nv.entries.drop (journal s).length := by
    rw [← h1, List.length_take]; exact (List.take_append_drop _ _).symm.trans (by rw [h1]; simp [journal])
  have hn : t.nv.entries.length = (journal s).length + as.length := by
    rw [hs, List.length_append, ← h2, List.length_map]
  have hj : journal t = t.nv.entries := by
    unfold journal
    apply List.take_of_length_le
    rw [h3, hn]; exact Nat.add_le_add_right hl _
  rw [hj] at k1 k2
  have hu : u.nv.entries = journal s ++ (t.nv.entries.drop (journal s).length ++ u.nv.entries.drop t.nv.entries.length) := by
    rw [← List.append_assoc, ← hs]
    exact (List.take_append_drop _ _).symm.trans (by rw [k1])
  refine ⟨?_, ?_, ?_, k4.trans h4, ?_, h6.trans k6 h3 ho hp hq⟩
  · rw [hu, List.take_left]
  · rw [hu, List.drop_left, List.map_append, h2, k2]
  · rw [k3, h3]; simp [Nat.add_assoc]
  · rw [k5, h5]

/-- An event that goes on without an append and without a JOURNAL_LOW keeps what was appended. -/
theorem Appended.goesOn {bs : List EntryBody} {s t u : State} (h : Appended bs s t) (hn : u.nv = t.nv) (hj : u.jc = t.jc)
    (hl : u.line.state = t.line.state) (ms : List OutMsg) (ho : u.line.outbound = t.line.outbound ++ ms)
    (hm : ∀ n c d, (⟨255, 0, .report (.journalLow n c d)⟩ : OutMsg) ∉ ms) : Appended bs s u := by
  obtain ⟨h1, h2, h3, h4, h5, h6⟩ := h
  unfold Appended
  rw [hn, hj]
  exact ⟨h1, h2, h3, h4, h5, h6.goesOn (by rw [hj]) hl ms ho hm⟩

theorem Appended.of_nv_jc {bs : List EntryBody} {s t u : State} (h : Appended bs s t) (hn : u.nv = t.nv) (hj : u.jc = t.jc)
    (hl : u.line = t.line) : Appended bs s u :=
  h.goesOn hn hj (by rw [hl]) [] (by rw [hl, List.append_nil]) fun _ _ _ => List.not_mem_nil

/-! ## The MIDNIGHT entry -/

theorem midnightAhead_open {c : CapClass} (h : c ≠ .closing) (s : State) :
    midnightAhead c s = true ↔ 0 < s.clock.midnights := by
  simp [midnightAhead, h]

/-- A request that is taken journals a pending midnight first and clears its count (R47). -/
theorem placeMidnight_eq (c : CapClass) (s : State) :
    placeMidnight c s = if midnightAhead c s then
      { append (.midnight s.clock.midnights) s with clock := { s.clock with midnights := 0 } } else s := by
  unfold placeMidnight
  split
  · dsimp only
    rw [(append_frame _ s).2.2.2.2.2.2.2.2.2.2.2.2.2.1]
  · rfl

theorem placeMidnight_outbound (c : CapClass) (s : State) : s.line.outbound <+: (placeMidnight c s).line.outbound := by
  rw [placeMidnight_eq]; split
  · exact append_outbound ..
  · exact List.prefix_refl _

theorem placeMidnight_midnights {c : CapClass} (h : c ≠ .closing) (s : State) :
    (placeMidnight c s).clock = { s.clock with midnights := 0 } := by
  rw [placeMidnight_eq]
  split
  · rfl
  · next k =>
    rw [midnightAhead_open h] at k
    have : s.clock.midnights = 0 := by omega
    rw [← this]

/-- A request outside CLOSING that appends one entry after the pending midnight, if there is one (R47). -/
theorem placeMidnight_append {c : CapClass} (h : c ≠ .closing) {b : EntryBody} (hb : firstForward b ≠ .pending) (s : State) :
    Appended (midnightBodies s ++ [b]) s (append b (placeMidnight c s)) := by
  rw [placeMidnight_eq]
  unfold midnightBodies
  by_cases m : 0 < s.clock.midnights
  · rw [if_pos ((midnightAhead_open h s).2 m), if_pos m]
    have k : Appended [.midnight s.clock.midnights] s
        { append (.midnight s.clock.midnights) s with clock := { s.clock with midnights := 0 } } :=
      (append_appended (by simp [firstForward]) s).of_nv_jc rfl rfl rfl
    exact k.trans (append_appended hb _) (append_frame b _).1 (append_outbound _ s) (append_outbound b _)
  · rw [if_neg (fun k => m ((midnightAhead_open h s).1 k)), if_neg m]
    exact append_appended hb s

/-! ## Entries in doubt -/

/-- A position left with its entry in doubt (R84): its record, its timer, the row that shows it. -/
theorem makeInDoubt_pos (p : Pos) (st : PState) (s : State) :
    rd (makeInDoubt p st s).posns p = { rd s.posns p with
      state := st, inDoubt := (rd s.posns p).outstanding.orElse fun _ => (rd s.posns p).inDoubt, outstanding := none } ∧
    rd (makeInDoubt p st s).keys p = { rd s.keys p with timer := none } ∧
    rd (makeInDoubt p st s).screens p = (rd s.screens p).mark 0 := by
  simp [makeInDoubt, markRow0]

theorem makeInDoubt_others {p q : Pos} (h : q ≠ p) (st : PState) (s : State) :
    rd (makeInDoubt p st s).posns q = rd s.posns q ∧ rd (makeInDoubt p st s).keys q = rd s.keys q ∧
    rd (makeInDoubt p st s).screens q = rd s.screens q := by
  simp [makeInDoubt, markRow0, rd_upd_ne _ _ h]

theorem release_pos (p : Pos) (s : State) :
    rd (release p s).posns p =
      if (rd s.posns p).state = .awaiting then leftFor .ready (rd s.posns p) else rd s.posns p := by
  unfold release
  split
  · next h => rw [(makeInDoubt_pos p .ready s).1]; simp [leftFor, h]
  · rfl

theorem release_others {p q : Pos} (h : q ≠ p) (s : State) :
    rd (release p s).posns q = rd s.posns q ∧ rd (release p s).keys q = rd s.keys q ∧
    rd (release p s).screens q = rd s.screens q := by
  unfold release
  split
  · exact makeInDoubt_others h _ s
  · exact ⟨rfl, rfl, rfl⟩

end Sys2Proof.Machine
end

