-- ==== Sys2Proof/Tests/Slice0.lean ====
section
/-! SUPPORT. The model's own tests: one ill-formed command for each check of WellFormed; the manual's worked cases; and for
every statement with hypotheses a concrete state that meets them. Each expected value comes from the manual's own tables
and examples, named in the comment above it, or from its rule by hand. -/

namespace Sys2Proof.Tests

set_option Elab.async false

open Sys2Proof Sys2Proof.Machine

/-! ## Helpers -/

/-- The next state of a command that has one. -/
def nextOf : Host.Outcome State Fault Refusal → State
  | .next s => s
  | .fault _ => State.reset
  | .refused _ => State.reset

/-- The state after one command. -/
def after (c : Instr) (s : State) : State := nextOf (exec c s)

/-- Characters as codes. -/
def txt (cs : List Char) : List Byte := chars cs

/-! ## WellFormed refuses -/

theorem test_refuses_position_of_two_bytes : wellFormed (.lineCheck ⟨256, 0⟩) = false := by decide
theorem test_refuses_tag_of_three_bytes : wellFormed (.closeDay ⟨0, 65536⟩) = false := by decide
theorem test_refuses_empty_discard : wellFormed (.frameDiscard ⟨[], false, none⟩) = false := by decide
theorem test_refuses_known_kind : wellFormed (.unknownKind ⟨0, 0⟩ 0x20) = false := by decide
theorem test_refuses_index_of_three_bytes : wellFormed (.drawerQuery ⟨0, 0⟩ 65536) = false := by decide
theorem test_refuses_table_of_two_bytes : wellFormed (.tableQuery ⟨0, 0⟩ (some (256, 0))) = false := by decide
theorem test_refuses_stripe_line_41 : wellFormed (.stripeData 0 ⟨[1], 0, 1, 41⟩) = false := by decide
theorem test_refuses_long_notice :
    wellFormed (.notice ⟨0, 0⟩ ⟨some .normal, false, List.replicate 1025 0x41⟩) = false := by decide +kernel
theorem test_refuses_long_text :
    wellFormed (.formTextLoad ⟨0, 0⟩ 17 (.define ⟨List.replicate 1025 0x41, .normal⟩)) = false := by decide +kernel
theorem test_refuses_long_preset :
    wellFormed (.formFieldsLoad ⟨0, 0⟩ 2 (.define
      ⟨[⟨1, 0, .text, 4, 0, .normal, false, false, true, List.replicate 1025 0x41, .none⟩], false, none⟩)) = false := by decide +kernel
theorem test_refuses_long_code_name :
    wellFormed (.postingCodesLoad ⟨0, 0⟩ 1 (.define ⟨List.replicate 1025 0x41, .cashIn, none, none, false, false, 0⟩)) = false := by decide +kernel
theorem test_refuses_long_currency_code :
    wellFormed (.currenciesLoad ⟨0, 0⟩ 1 (.define ⟨List.replicate 1025 0x41, 2, 5⟩)) = false := by decide +kernel
theorem test_refuses_long_line_name :
    wellFormed (.bookLines ⟨0, 0⟩ (.full [1] 0 [⟨20260301, List.replicate 1025 0x41, 5, 2, none⟩])) = false := by decide +kernel

/-! ## A branch at work -/

/-- The fields of form 14 of section 7.7. -/
def amountField : FieldDesc := ⟨2, 10, .numeric, 8, 2, .normal, false, true, true, [], .amount⟩
def accountField : FieldDesc := ⟨3, 10, .text, 10, 0, .normal, false, true, true, [], .account⟩
def labelField : FieldDesc := ⟨4, 10, .text, 20, 0, .normal, true, false, false, txt ['D','E','P','O','S','I','T'], .none⟩

/-- Form 14 of section 7.7; and as form 22 of section 10.6, with code and currency fields and the stand-in flag. -/
def form14 : FormDesc := ⟨[amountField, accountField, labelField], false, none⟩
def form22 : FormDesc :=
  ⟨[⟨1, 0, .numeric, 3, 0, .normal, false, true, true, [], .code⟩,
    ⟨1, 10, .numeric, 1, 0, .normal, false, true, true, [], .currency⟩,
    ⟨2, 10, .numeric, 8, 2, .normal, false, true, true, [], .amount⟩], true, none⟩

/-- Form 1 with a count for slot 0, and a sign-on form 0. -/
def form1 : FormDesc := ⟨[⟨2, 10, .numeric, 9, 2, .normal, false, true, false, [], .count 0⟩], false, none⟩
def form0 : FormDesc := ⟨[⟨2, 10, .text, 6, 0, .normal, false, false, true, [], .none⟩], false, none⟩

/-- Codes: 10 a local CASH_OUT, 11 a CASH_IN, 40 an EXCHANGE_BUY, 41 an EXCHANGE_SELL, all stand-in codes of class 1. -/
def code (c : PClass) (book : Bool) : CodeEntry := ⟨txt ['C','A','S','H',' ',' ',' ',' '], c, none, none, book, true, 1⟩

/-- The tables of the examples of sections 1.7, 7.7, 8.5 and 10.6. -/
def tables : Tables :=
  { Tables.initial with
    forms := wr (wr (wr (wr Tables.initial.forms 0 (some form0)) 1 (some form1)) 14 (some form14)) 22 (some form22)
    codes := wr (wr (wr (wr Tables.initial.codes 10 (some (code .cashOut true))) 11 (some (code .cashIn false))) 40
      (some (code .exchangeBuy false))) 41 (some (code .exchangeSell false))
    currencies := wr (wr Tables.initial.currencies 0 (some ⟨txt ['A','A','A'], 2, 5⟩)) 1 (some ⟨txt ['B','B','B'], 2, 5⟩)
    rates := wr Tables.initial.rates 1 (some ⟨13456789, 13912345⟩)
    serials := wr Tables.initial.serials 1 7
    limits := wr Tables.initial.limits 1 (some 50000)
    positions := wr (wr (wr Tables.initial.positions 2 (some ⟨.leader, 0, some 1, 100000⟩)) 5
      (some ⟨.member, 0, none, 100000⟩)) 6 (some ⟨.leader, 0, some 1, 100000⟩)
    layouts := wr Tables.initial.layouts 1 (some ⟨30, 8, 15, 0, 10, 20, 12, 34, 14, 50⟩) }

/-- An OPEN day at ten o'clock with the line ONLINE and every printer EMPTY. -/
def branch : State :=
  { State.reset with
    tables := tables, day := ⟨.opened, some 20260302, none, false, []⟩, clock := ⟨36000, true, 0⟩
    jc := ⟨false, false, 0, none⟩, line := { LineIf.initial with state := .online, timer := some ⟨45, 0⟩ }
    nv := { JournalMem.blank with control := ⟨⟨20260302, some .opened, 0, 0, 0, true⟩, 0⟩ }
    printers := Vector.replicate 4 { Printer.initial with state := .empty } }

/-- A position's record, screen and key unit replaced. -/
def place (p : Pos) (st : PState) (f : Option (Fin 32)) (q : List Token) (vs : List (List Byte)) (s : State) : State :=
  ((s.updPos p fun r => { r with state := st, teller := some [1, 2, 3, 4, 5, 6] }).updScreen p fun sc =>
    { sc with form := f, present := true }).updKeys p fun _ => ⟨q, vs, if vs = [] then none else some 0, 0, none⟩

/-- Position 9 READY on form 14 with a token waiting, its fields filled as in section 7.7. -/
def typing (t : Token) : State :=
  place 9 .ready (some 14) [t] [txt ['1','2','5','0','0'], txt ['4','4','5','5',' ',' ',' ',' ',' ',' '], presetValue labelField]
    (branch.updPos 9 fun r => { r with entryNo := 40 })

/-- The same branch with the line in STAND_IN. -/
def standInOf (s : State) : State := s.updLine fun l => { l with state := .standIn, timer := none }

/-- A journal of one posting of one leg. -/
def postingOf (origin : Origin) : PostingRec :=
  ⟨origin, false, 2, 10, 0, .cashOut, none, 0, 2000, 2000, some [4, 4, 5, 5], none, none, none,
    some ⟨txt ['C','A','S','H',' ',' ',' ',' '], -2000, 2⟩, [⟨2, 0, -2000⟩]⟩
def entryOf (origin : Origin) (f : ForwardState) (pr : PrintState) : Entry :=
  ⟨1, 2, 2, 36000, true, pr, f, .posting (postingOf origin)⟩

/-- The branch with that posting in its journal. -/
def journaled (e : Entry) : State :=
  { branch with nv := { branch.nv with entries := [e], control := ⟨⟨20260302, some .opened, 2, 1, 0, true⟩, 0⟩ },
                jc := ⟨false, false, if e.fwd = .pending then 1 else 0, none⟩ }

/-- A passbook line of account 4455, and the branch with that line kept and its job on printer 0. -/
def line900 : PLine := ⟨20260302, txt ['C','A','S','H',' ',' ',' ',' '], -2000, 2, some 499005, false, some (3, 7), 1⟩
def withBook (st : PrnState) (timer : Option Timer) : State :=
  { journaled (entryOf .online .notNeeded .stored) with
    store := [⟨[4, 4, 5, 5], some 1, [line900], true⟩], queues := wr branch.queues 0 [⟨[4, 4, 5, 5], 2⟩]
    printers := upd branch.printers 0 fun r =>
      { r with state := st, timer := timer, layoutType := 1, openPage := 3, nextPage := 3, nextLine := 7 } }

/-- The branch at the end of CUTOFF, with no position signed on. -/
def cutoff : State :=
  { branch with day := ⟨.cutoff, some 20260302, none, false, []⟩
                nv := { branch.nv with control := ⟨⟨20260302, some .cutoff, 0, 0, 0, true⟩, 0⟩ } }

/-- A day in RECOVERING with one entry to replay. -/
def recovering (e : Entry) (d : RecDay) : State :=
  { State.reset with
    day := ⟨.recovering, some 20260302, none, false, []⟩, jc := ⟨false, false, 0, some Replay.initial⟩
    nv := { JournalMem.blank with entries := [e], control := ⟨⟨20260302, some d, 2, 1, 0, true⟩, 0⟩ } }

/-- A batch with two blocks sent and none acknowledged. -/
def batchOf (k : BatchKind) (final : Option Nat) : Batch := ⟨k, 9, 2, 2, 2, 0, 3, final, 0, 1⟩
def flightOf (n first last : Nat) : Flight := ⟨n, first, last, 1, 1, 2, false⟩
def transferring (st : EngineState) (b : Batch) (s : State) : State :=
  { s with engine := { Engine.initial with state := st, batch := some b, lastBatch := 9,
                                           flights := [flightOf 1 0 1, flightOf 2 2 3], timer := some ⟨20, 0⟩ } }

/-! ## Posting arithmetic: the worked cases of section 1.7 -/

/-- Exchange purchase: 123.45 at 13.456789 converts to 166,124. -/
theorem test_exchange_purchase_value : convert 12345 13456789 2 2 = 166124 := by decide

/-- Half-even conversion, the table of section 1.7. -/
theorem test_half_even : [5, 15, 25, 16].map (fun f => convert f 1000000 0 1) = [0, 2, 2, 2] := by decide

/-- Cash rounding: 1,003 to 1,005 and −1,003 to −1,005 with C = 5; 1,005 to 1,000 at the midpoint of C = 10. -/
theorem test_cash_rounding :
    [cashRound 1003 5, cashRound (-1003) 5, cashRound 1005 10, cashRound (-1005) 10, cashRound 1000 10] =
      [1005, -1005, 1000, -1000, 1000] := by decide

/-- Exchange purchase: its four legs in entry order; and it is accepted (witness of the accepted POST, R17, R18). -/
def buy : PostBody := ⟨some 40, some 1, some 12345, none, none, none, none⟩
theorem test_exchange_purchase_legs :
    (match checkPosting (postRequest ⟨3, 77⟩ buy) (arrived branch) with
      | .ok pl => pl.legs
      | .error _ => []) = [⟨3, 1, 12345⟩, ⟨3, 0, -166125⟩, ⟨3, 14, 1⟩, ⟨3, 13, 166124⟩] := by decide
theorem test_exchange_purchase_drawer :
    [0, 1, 13, 14].map (fun i => (rd (rd (after (.post ⟨3, 77⟩ buy) branch).drawers 3).lines i).amount) =
      [-166125, 12345, 166124, 1] := by decide

/-- Exchange sale: cash −50,000, local cash +695,615, rounding +2, exchange −695,617. -/
theorem test_exchange_sale_legs :
    formLegs (code .exchangeSell false) 3 1 50000 (convert 50000 13912345 2 2) 5 none =
      [⟨3, 1, -50000⟩, ⟨3, 0, 695615⟩, ⟨3, 14, 2⟩, ⟨3, 13, -695617⟩] := by decide

/-- Refusals along the order: a cash unit that does not divide, and a rate that is unset. -/
theorem test_refusals_along_the_order :
    (match checkPosting (postRequest ⟨3, 0⟩ ⟨some 40, some 1, some 7003, none, none, none, none⟩) branch with
      | .error st => some st
      | .ok _ => none) = some .notCashable ∧
    (match checkPosting (postRequest ⟨3, 0⟩ ⟨some 41, some 1, some 7000, none, none, none, none⟩)
        { branch with tables := { tables with rates := wr tables.rates 1 (some ⟨13456789, 0⟩) } } with
      | .error st => some st
      | .ok _ => none) = some .rateUnset := by decide

/-! ## Bytes, figures and cells -/

/-- The CRC of R172 over the nine digits: polynomial 0x1021, initial value 0xFFFF, by hand the well-known check 0x29B1. -/
theorem test_crc_check : crc16 (txt ['1','2','3','4','5','6','7','8','9']) = 0x29B1 := by decide +kernel

/-- The figures of R134. -/
theorem test_figures :
    figure (-2000) 2 = txt ['2','0','.','0','0','-'] ∧ figure 499005 2 = txt ['4','9','9','0','.','0','5',' '] ∧
    figure 5 2 = txt ['0','.','0','5',' '] ∧ figureIn 12 12345678901 2 = List.replicate 12 0x2A := by decide +kernel

/-- R96: a field of 5 digits and 2 decimals shows 5 and 12345. -/
theorem test_numeric_shown :
    numericShown 6 2 (txt ['5']) = txt [' ',' ','0','.','0','5'] ∧
    numericShown 6 2 (txt ['1','2','3','4','5']) = txt ['1','2','3','.','4','5'] := by decide

/-- R100: eight characters DOWN from row 10 end at row 2; ACROSS wraps from row 15, column 79 to row 1. -/
theorem test_paint_counter :
    (List.range 7).foldl (fun a _ => paintNext .down a) (10, 5) = (2, 5) ∧ paintNext .across (15, 79) = (1, 0) := by decide

/-- Section 6.8: the NOTICE while the teller reviews leaves line 6, column 2, offset 0, with a TONE. -/
def reviewing : State :=
  branch.updScreen 3 fun sc => { sc with newest := 5, column := 0, review := 2, present := true }
def payNotice : NoticeBody := ⟨some .normal, false, txt ['P','A','Y'] ++ [0x0D, 0x0A] ++ txt ['O','K'] ++ [0x07]⟩
theorem test_notice_while_reviewing :
    let t := after (.notice ⟨3, 1⟩ payNotice) reviewing
    (rd t.screens 3).newest = 6 ∧ (rd t.screens 3).column = 2 ∧ (rd t.screens 3).review = 0 ∧ t.out = [.tone 3] := by decide +kernel

/-! ## Keys: section 7.7 -/

/-- The TRANSMIT of section 7.7: entry number 40 outstanding, 41 next, the 30-second timer, the fields sent. -/
theorem test_transmit_entry :
    let t := after (.transmit 9) (typing .transmit)
    rd t.posns 9 = ⟨.awaiting, some [1, 2, 3, 4, 5, 6], 41, some 40, none, 0⟩ ∧ (rd t.keys 9).timer = some ⟨30, 30⟩ ∧
      t.line.outbound = [⟨9, 0, .entry 9 40 14 [(0, txt ['1','2','5','0','0']), (1, txt ['4','4','5','5'])]⟩] := by decide

/-- A digit joins the value on the right (section 7.7: 3 then 0 is 30). -/
theorem test_digit_joins :
    fieldValue (after (.character 9) (place 9 .ready (some 14) [.character 0x30] [txt ['3'], [], []] branch)) 9 0 =
      txt ['3','0'] := by decide

/-! ## Stand-in: section 10.6 -/

/-- Position 6 on form 22 with a code, a slot and an amount, usage and entry number as given. -/
def standInTeller (c slot amount : List Char) (usage no : Nat) : State :=
  standInOf (place 6 .ready (some 22) [.transmit] [txt c, txt slot, txt amount]
    (branch.updPos 6 fun r => { r with usage := usage, entryNo := no }))
theorem test_stand_in_accepted :
    let t := after (.transmit 6) (standInTeller ['1','0'] ['0'] ['4','0','0','0','0'] 0 30)
    (rd t.posns 6).usage = 40000 ∧ (rd t.posns 6).entryNo = 31 ∧ t.jc.pendingCount = 1 := by decide
theorem test_stand_in_over_limit_then_budget :
    let t := after (.transmit 6) (standInTeller ['1','0'] ['0'] ['6','0','0','0','0'] 40000 31)
    let u := after (.transmit 6) (standInTeller ['1','0'] ['0'] ['2','0','0','0','0'] 85000 33)
    (rd t.posns 6).usage = 40000 ∧ (rd t.posns 6).entryNo = 32 ∧ t.nv = branch.nv ∧ t.out = [.tone 6] ∧
      (rd u.posns 6).usage = 85000 ∧ u.nv = branch.nv := by decide
theorem test_stand_in_conversion :
    (rd (after (.transmit 6) (standInTeller ['1','1'] ['1'] ['1','0','0','0'] 85000 34)).posns 6).usage = 98457 := by decide

/-! ## Passbooks: section 8.5 -/

/-- A CASH_OUT of 2,000 with a passbook part for position 2: the entry STORED and the job placed on printer 0, which waits
for the book. -/
def bookPost : PostBody := ⟨some 10, some 0, some 2000, some [4, 4, 5, 5], some ⟨1, 3, 7, none⟩, none, none⟩
theorem test_book_job_placed :
    let t := after (.post ⟨2, 5⟩ bookPost) branch
    t.nv.entries.map (·.print) = [.stored] ∧ rd t.queues 0 = [⟨[4, 4, 5, 5], 2⟩] ∧ (rd t.printers 0).state = .waitBook ∧
      rd (rd t.screens 2).prompts 0 = some .insertBook := by decide

/-- Printer 0 faults during the line: the job goes, the line stays STORED and dormant, nothing is printed. -/
theorem test_fault_keeps_line :
    let t := after (.fault 0) (withBook .printing (some ⟨5, 5⟩))
    (rd t.printers 0).state = .offline ∧ rd t.queues 0 = [] ∧ accountLines [4, 4, 5, 5] t = [line900] ∧
      t.nv.entries.map (·.print) = [.stored] := by decide

/-! ## Witnesses: a concrete state for the hypotheses of each statement -/

theorem takes_of (s : State) (h : s.powered = true) (d : s.day.state ≠ .recovering) : Takes s := ⟨h, d⟩

theorem witness_StepRunsFrontCommand : State.reset.pending = [] := rfl

theorem witness_EveryCommandAnswersNext :
    ({ branch with powered := false } : State).powered = false ∧ Instr.lineLoss ≠ .powerOn := by decide

/-- A control record that checks good, for a CLOSED day and for one to recover. -/
def goodControl (d : RecDay) : ControlRec :=
  let f : ControlFields := ⟨20260302, some d, 2, 1, 0, true⟩
  ⟨f, crc16 (controlBytes f)⟩
theorem witness_PowerOnReadsControlRecord :
    (goodControl .closed).good = true ∧ (goodControl .opened).good = true ∧ State.reset.nv.control.good = false ∧
      (after .powerOn { branch with nv := { branch.nv with control := goodControl .opened } }).day.state = .recovering := by
  decide +kernel

/-- The branch in CUTOFF with a line of account 4455 kept and no job, so that CLOSING backlogs it. -/
def cutoffBook : State :=
  { cutoff with
    store := [⟨[4, 4, 5, 5], some 1, [line900], false⟩]
    nv := { branch.nv with entries := [entryOf .online .notNeeded .stored],
                           control := ⟨⟨20260302, some .cutoff, 2, 1, 0, true⟩, 0⟩ } }
/-- What a write is. -/
def writeKind : NvWrite → Nat
  | .slots _ => 0
  | .control _ => 1
  | .backlogged _ _ => 2
  | .states _ _ _ => 3
  | .retained _ => 4
  | .retainedCrc _ => 5
/-- A retained record that was not written. -/
def badRead : RetainedRec := ⟨20260301, Vector.replicate 16 (Vector.replicate 8 7), 0⟩
theorem witness_PowerFailureKeepsCompletedWrites :
    let s := after (.post ⟨3, 77⟩ buy) branch
    let t := after (.closingConditionTest (some badRead)) cutoffBook
    s.powered = true ∧ s.nvLog.map writeKind = [0, 1] ∧ (after (.powerFailure 1 true) s).powered = false ∧
      t.powered = true ∧ t.nvLog.map writeKind = [0, 2, 0, 1, 4, 5] ∧
      (after (.powerFailure 1 false) t).nv.entries.map (·.print) = [.stored, .none] ∧
      (after (.powerFailure 2 false) t).nv.entries.map (·.print) = [.backlogged, .none] := by decide +kernel

/-- A stand-in posting to replay: its check passes; an OPENING and a CAPTURE too; a wrong kind code fails. -/
def openingEntry : Entry :=
  ⟨1, 1, 2, 0, false, .none, .notNeeded, .opening 0 20260302 .supplied false (Vector.replicate 8 100)⟩
def captureEntry : Entry :=
  ⟨1, 4, 4, 36000, true, .none, .notNeeded, .capture ⟨3, .interim, 1, none, Vector.replicate 16 ⟨5, 1, true⟩⟩⟩
def recoveringFrom (e : Entry) : State :=
  let s := recovering e .opened
  { s with nv := { s.nv with control := { s.nv.control with fields := { s.nv.control.fields with slotsUsed := e.size } } } }
/-- An entry of a body, its header as R41 gives it. -/
def entryFor (b : EntryBody) (pr : PrintState) : Entry := ⟨1, kindCode b, kindSlots b, 36000, true, pr, .notNeeded, b⟩
def replayable (e : Entry) : Bool :=
  let s := recoveringFrom e
  s.powered && decide (0 < slotsUsed s) && decide (s.nv.entries[0]? = some e) && e.kind == kindCode e.body &&
    e.size == kindSlots e.body && e.seq == 1 && openingInPlace Replay.initial e.body && decide (e.size ≤ slotsUsed s) &&
    (e.size != slotsUsed s || e.seq == s.nv.control.fields.entryCount)
def storedPosting : Entry :=
  let e := entryOf .online .notNeeded .stored
  { e with body := .posting { postingOf .online with book := some ⟨1, 3, 7⟩ } }
def storedLine : BookLineRec := ⟨[4, 4, 5, 5], 1, 20260301, List.replicate 8 0x41, 5, 2, none⟩
/-- One entry of every kind to replay, each with its check passed. -/
theorem witness_ReplayAppliesEntry :
    replayable (entryOf .standIn .pending .none) = true ∧ replayable openingEntry = true ∧ replayable captureEntry = true ∧
    replayable storedPosting = true ∧ replayable (entryFor (.bookLine storedLine) .stored) = true ∧
    ([EntryBody.declaration ⟨6, .final, 1, [⟨0, 100, 90, 10, some (-10), 0⟩]⟩, .groupBegin 2 .final [2, 3] [3],
      .groupEnd 2 .final [], .midnight 1, .cutoff .request, .abandoned 3 .interim 1 .powerOn, .recovery ⟨.opened, 2, 1, 0, 0⟩,
      .backlog [4, 4, 5, 5] [1], .close true 1 1].all fun b => replayable (entryFor b .none)) = true ∧
    (rd (after .replayEntry (recoveringFrom openingEntry)).drawers 0).lines = (openDrawer (Vector.replicate 8 100)).lines ∧
    (accountLines [4, 4, 5, 5] (after .replayEntry (recoveringFrom storedPosting))).length = 1 ∧
    ((after .replayEntry (recoveringFrom captureEntry)).jc.replay.bind fun q => rd q.openBal 3) = some (.interim, 1) := by
  decide +kernel
theorem witness_ReplayAppliesEntry_room : StoreHasRoom [4, 4, 5, 5] (recoveringFrom storedPosting) := by
  refine ⟨by decide +kernel, fun _ => by decide +kernel, fun r h => ?_⟩
  have e : findAccount [4, 4, 5, 5] (recoveringFrom storedPosting) = none := by decide +kernel
  rw [e] at h
  cases h
theorem witness_ReplayStopsAtBadEntry :
    let e := { openingEntry with kind := 2 }
    let s := recovering e .opened
    let u := recovering { openingEntry with seq := 2 } .opened
    s.powered = true ∧ s.jc.replay = some Replay.initial ∧ 0 < slotsUsed s ∧ s.nv.entries[0]? = some e ∧
      e.kind ≠ kindCode e.body ∧ (after .replayEntry s).day.state = .closed true ∧
      (2 : Nat) ≠ u.nv.control.fields.entryCount ∧ (after .replayEntry u).day.state = .closed true := by decide +kernel
theorem witness_RecoveryFinishReturnsDay :
    let s := after .replayEntry (recovering openingEntry .cutoff)
    let t := after .replayEntry (recovering openingEntry .closing)
    s.powered = true ∧ (s.jc.replay.map (·.slot)) = some (slotsUsed s) ∧ s.nv.control.fields.day = some .cutoff ∧
      (after (.recoveryFinish none) s).day.state = .cutoff ∧ slotsUsed (after (.recoveryFinish none) s) = 3 ∧
      t.nv.control.fields.day = some .closing ∧ (after (.recoveryFinish none) t).day.state = .closing ∧
      (after (.recoveryFinish (some badRead)) t).day.retainedBad = true ∧
      (after (.recoveryFinish (some badRead)) t).nv.retained.amounts = badRead.amounts ∧
      (after (.recoveryFinish none) t).day.retainedBad = false := by decide +kernel
/-- A balance open at power-on, with its entries at the limit of the control class: no room for both. -/
def finishing (slots : Nat) : State :=
  let q : Replay := { Replay.initial with slot := slots, openBal := wr Replay.initial.openBal 3 (some (.interim, 1)) }
  let s := recovering captureEntry .opened
  { s with jc := { s.jc with replay := some q },
           nv := { s.nv with control := { s.nv.control with fields := { s.nv.control.fields with slotsUsed := slots } } } }
theorem witness_RecoveryFinishReturnsDay_room :
    ∀ n, (finishing n).powered = true ∧ (finishing n).jc.replay.map (·.slot) = some (slotsUsed (finishing n)) ∧
      (finishing n).nv.control.fields.day = some .opened ∧ (n + 1 + 1 ≤ 16256 ↔ n ≤ 16254) :=
  fun n => ⟨rfl, rfl, rfl, by omega⟩

/-- The frame of a LINE CHECK: six header bytes and the CRC after the sync pair. -/
theorem witness_FramerAcceptsEveryFrame :
    runFramer (.hunting true) (frame 0x61 255 0 []) = (.hunting false, [.message [0x61, 255, 0, 0, 0, 0]]) := by
  decide +kernel
/-- A frame whose CRC is wrong, with the frame of a LINE CHECK as its body (R172): the inner message is handed on. -/
def damaged : List Byte := [0xC3, 0x3C] ++ headerBytes 0x10 3 0 10 ++ frame 0x61 255 0 [] ++ [0, 0]
theorem witness_DiscardedAndUnknownFrames :
    branch.powered = true ∧ branch.line.framer = .hunting false ∧
      (runFramer branch.line.framer [0xC3, 0x3C, 0, 0, 0, 0, 0xFF]).2.all (· == .discarded) = true ∧
      (runFramer branch.line.framer damaged).2.filter (fun e => e != .discarded) = [.message [0x61, 255, 0, 0, 0, 0]] ∧
      (after (.frameDiscard ⟨damaged, false, none⟩) (standInOf branch)).line.state = .online ∧
      (after (.frameDiscard ⟨(frame 0x31 0 7 [13, 0, 0]), false, none⟩) branch).line.outbound.map (·.tag) = [7] ∧
      branch.day.state ≠ .recovering := by decide +kernel
theorem witness_EveryMessageKeepsLineUp :
    isMessage (.restart ⟨⟨0, 0⟩, false⟩) = true ∧ isMessage (.unknownKind ⟨0, 0⟩ 0x62) = true ∧
      isMessage (.unknownKind ⟨0, 0⟩ 0x61) = false ∧ branch.powered = true := by decide
theorem witness_OnlyLossTakesLineDown :
    branch.line.state = .online ∧ (after .lineLoss branch).line.state = .standIn := by decide
theorem witness_LineCheckRestartsOrReturnsLine :
    branch.powered = true ∧ branch.line.state = .online ∧ (standInOf branch).line.state = .standIn ∧
      (after (.lineCheck ⟨255, 0⟩) (standInOf branch)).line.state = .online := by decide
theorem witness_LineLossReleasesPositions :
    let s := branch.updPos 4 fun r => { r with state := .awaiting, outstanding := some 7 }
    s.powered = true ∧ s.line.state = .online ∧ s.line.timer = some ⟨45, 0⟩ ∧ (rd s.posns 4).state = .awaiting ∧
      (rd (after .lineLoss s).posns 4).inDoubt = some 7 := by decide +kernel
theorem witness_OutboundQueueSendsHeadFirst :
    let s := enqueue ⟨255, 0, .report (.recoveryDone (.unreadable 0))⟩ branch
    let t := s.updLine fun l => { l with sending := true }
    s.powered = true ∧ s.line.outbound.length = 1 ∧ s.line.sending = false ∧ t.line.sending = true ∧
      t.engine.state ≠ .active ∧ (after .outboundSendDone t).line.outbound = [] := by decide
theorem windowHeld_transferring {st : EngineState} (h : st ≠ .idle) (k : BatchKind) (f : Option Nat) (s : State) :
    WindowHeld (transferring st (batchOf k f) s) := by
  refine ⟨⟨fun e => absurd e h, fun e => (by cases e)⟩, fun e => (by cases e), fun b e => ?_⟩
  cases e
  exact ⟨Nat.zero_le 2, by show 2 - 0 ≤ 4; decide, by show 0 < 3; decide, by show 3 ≤ 2 + 1; decide, rfl⟩
/-- A batch in ACTIVE with room for two more blocks, and a message about to leave. -/
def sendingBlocks : State :=
  (transferring .active { batchOf .day none with nextSlot := 0 } (journaled (entryOf .online .notNeeded .none))).updLine fun l =>
    { l with outbound := [⟨255, 0, .report (.recoveryDone (.unreadable 0))⟩], sending := true }
theorem witness_OutboundQueueSendsHeadFirst_block :
    sendingBlocks.powered = true ∧ sendingBlocks.engine.state = .active ∧ sendingBlocks.line.outbound.length = 1 ∧
      ((after .outboundSendDone sendingBlocks).engine.batch.map (·.highest)) = some 3 ∧
      (after .outboundSendDone sendingBlocks).line.outbound.length = 1 := by decide +kernel
theorem witness_RecoveringAnswersRequests :
    (recovering openingEntry .opened).powered = true ∧ (recovering openingEntry .opened).day.state = .recovering := by decide
theorem witness_FormIsShown :
    Takes (typing .transmit) ∧ (⟨9, 1⟩ : Hdr).pos = (9 : Pos).val ∧ rd (typing .transmit).tables.forms 22 = some form22 ∧
      rd branch.tables.forms 31 = none ∧ formOk 14 form14 = true ∧
      (let t := after (.form ⟨9, 1⟩ 14 true) ((typing .transmit).updPos 9 fun r => { r with state := .awaiting })
       (rd t.posns 9).state = .ready ∧ rd (rd (rd t.screens 9).area 3) 10 = ⟨0x44, .normal, true⟩ ∧
         rd (rd (rd t.screens 9).area 1) 10 = ⟨0x20, .normal, false⟩ ∧ rd (rd (rd t.screens 9).area 0) 0 = ⟨0x20, .normal, true⟩) :=
  ⟨takes_of _ (by decide) (by decide), rfl, by decide +kernel, by decide +kernel, by decide +kernel, by decide +kernel⟩
theorem witness_PaintWritesFormArea :
    Takes branch ∧ (15 : Nat) ≤ 15 ∧ (79 : Nat) ≤ 79 ∧
      (let t := after (.paint ⟨9, 1⟩ ⟨15, 79, some .down, some .bright, false, false, [0x41, 0x42]⟩) (typing .transmit)
       rd (rd (rd t.screens 9).area 14) 79 = ⟨0x41, .bright, false⟩ ∧ rd (rd (rd t.screens 9).area 0) 79 = ⟨0x42, .bright, false⟩) ∧
      (after (.paint ⟨9, 1⟩ ⟨16, 0, some .down, some .bright, false, false, []⟩) branch).screens = branch.screens ∧
      (rd (after (.paint ⟨9, 1⟩ ⟨15, 79, some .down, some .bright, true, true, [0x41]⟩) (typing .transmit)).screens 9).form =
        none := ⟨takes_of _ (by decide) (by decide), by decide, by decide, by decide +kernel, by decide +kernel, by decide +kernel⟩
theorem witness_NoticeWritesRing : Takes reviewing ∧ payNotice.attr = some .normal ∧
    (rd (arrived reviewing).screens 3).column < 80 ∧
    (let t := after (.notice ⟨3, 1⟩ ⟨some .normal, false, [0x41]⟩) (reviewing.updScreen 3 fun sc => { sc with column := 80 })
     (rd t.screens 3).newest = 6 ∧ (rd t.screens 3).column = 1) ∧
    (rd (after (.notice ⟨3, 1⟩ ⟨some .normal, false, [0x08]⟩) reviewing).screens 3).column = 0 ∧
    (after (.notice ⟨3, 1⟩ ⟨none, false, []⟩) reviewing).screens = reviewing.screens :=
  ⟨takes_of _ (by decide) (by decide), rfl, by decide +kernel, by decide +kernel, by decide +kernel, by decide +kernel⟩
theorem witness_StationEventsMoveRows :
    let s := typing .transmit
    s.powered = true ∧ (rd s.screens 9).review = 0 ∧ (rd s.screens 9).present = true ∧ (rd s.screens 9).inFlight = false ∧
      (rd s.screens 9).dirty = 0 :: List.range' 1 19 ∧
      (rd (s.updScreen 9 fun sc => { sc with review := 12 }).screens 9).review = 12 ∧
      (rd (after (.reviewUp 9) (s.updScreen 9 fun sc => { sc with review := 11 })).screens 9).review = 12 := by decide +kernel
theorem witness_AcceptedLoadsReplaceEntry :
    branch.powered = true ∧ Content.bad codeOk (.define (code .cashIn false)) = false ∧
      Content.bad (formOk 22) (.define form22) = false ∧ (∀ p, (rd branch.screens p).form ≠ some 22) ∧
      Content.bad layoutOk (.define ⟨30, 8, 15, 0, 10, 20, 12, 34, 14, 50⟩) = false ∧
      (∀ n, (rd branch.printers n).state = .empty ∧ rd branch.queues n = []) ∧
      (after (.parametersLoad ⟨0, 1⟩ 0 (.define ⟨10, 5, 5, 1, 15⟩)) branch).tables.params = ⟨10, 5, 5, 1, 15⟩ ∧
      (after (.parametersLoad ⟨0, 1⟩ 0 (.define ⟨600, 300, 120, 15, 600⟩)) branch).tables.params = ⟨600, 300, 120, 15, 600⟩ ∧
      (after (.parametersLoad ⟨0, 1⟩ 0 (.define ⟨601, 5, 5, 1, 15⟩)) branch).tables.params = ⟨45, 30, 20, 5, 60⟩ := by
  decide +kernel
theorem witness_ConditionalLoadsKeepTheirTerms :
    State.reset.day.state = .closed true ∧ Content.bad (currencyOk State.reset 0) (.define ⟨txt ['A','A','A'], 2, 5⟩) = false ∧
      branch.day.state = .opened ∧ Content.bad (positionOk 2) (.define ⟨.leader, 0, some 1, 100⟩) = false ∧
      (rd branch.posns 2).state = .signedOff ∧ (rd (typing .transmit).posns 9).state ≠ .signedOff ∧
      isLeader (wr branch.tables.positions 2 (some ⟨.leader, 0, some 1, 100⟩)) 2 = isLeader branch.tables.positions 2 ∧
      rd (after (.ratesLoad ⟨0, 1⟩ 1 (.define ⟨5, 5⟩)) { branch with tables := { tables with
        serials := wr tables.serials 1 65535 } }).tables.serials 1 = 0 := by
  decide +kernel
/-- Position 5 made a leader while position 2, its leader, is BALANCING (R77). -/
theorem witness_ConditionalLoadsKeepTheirTerms_locked :
    let s := branch.updPos 2 fun r => { r with state := .balancing }
    let new := wr s.tables.positions 5 (some ⟨.leader, 0, none, 100⟩)
    isLeader new 5 ≠ isLeader s.tables.positions 5 ∧ 2 ∈ groupOf s.tables.positions 5 ∧
      (after (.positionsLoad ⟨0, 1⟩ 5 (.define ⟨.leader, 0, none, 100⟩)) s).line.outbound =
        [⟨0, 1, .reply .memberBalancing .none⟩] ∧
      rd (after (.positionsLoad ⟨0, 1⟩ 5 (.define ⟨.leader, 0, none, 100⟩)) branch).tables.positions 5 =
        some ⟨.leader, 0, none, 100⟩ := by decide +kernel
theorem witness_QueriesChangeNothing :
    branch.powered = true ∧ indexOk 3 255 = true ∧ indexOk 1 32 = false ∧ (10 : Nat) ≤ 13 ∧
      ((after (.tableQuery ⟨0, 1⟩ (some (5, 1))) branch).line.outbound.map (·.body)) =
        [.reply .accepted (.query 5 1 false (.rates (some ⟨13456789, 13912345⟩) 7))] ∧
      ((after (.tableQuery ⟨0, 1⟩ (some (2, 16))) branch).line.outbound.map (·.body)) = [.reply .badIndex .none] := by
  decide +kernel
theorem witness_CashRoundingTakesNearestMultiple : 0 < (10 : Nat) ∧ 2 * (1005 - cashRound 1005 10).natAbs = 10 := by decide
theorem witness_LocalLegsSumAsTheLawSays :
    (match checkPosting (postRequest ⟨3, 77⟩ buy) (arrived branch) with
      | .ok pl => some (pl.code.cls, pl.slot)
      | .error _ => none) = some (.exchangeBuy, 1) := by decide +kernel
theorem witness_RefusedPostChangesNothing :
    Takes branch ∧ postMalformed ⟨none, some 1, some 5, none, none, none, none⟩ = true ∧
      postMalformed ⟨some 40, some 1, some 0, none, none, none, none⟩ = false ∧
      (match checkPosting (postRequest ⟨3, 1⟩ ⟨some 40, some 1, some 0, none, none, none, none⟩) (arrived branch) with
        | .error st => some st
        | .ok _ => none) = some .amountRange :=
  ⟨takes_of _ (by decide) (by decide), by decide, by decide, by decide +kernel⟩
/-- The first check that fails may be named at its place in the list. -/
theorem firstFails_here {c : Prop} {st : Status} {rest : List (Prop × Status)} (h : ¬c) : FirstFails ((c, st) :: rest) st :=
  Or.inl ⟨h, rfl⟩
theorem firstFails_later {c : Prop} {st x : Status} {rest : List (Prop × Status)} (h : c) (k : FirstFails rest x) :
    FirstFails ((c, st) :: rest) x := Or.inr ⟨h, k⟩
/-- Where every check holds none fails. -/
theorem noneFails {cs : List (Prop × Status)} (h : ∀ c ∈ cs, c.1) (st : Status) : ¬FirstFails cs st := by
  induction cs with
  | nil => exact id
  | cons c rest ih =>
    rintro (⟨n, _⟩ | ⟨_, k⟩)
    · exact n (h c List.mem_cons_self)
    · exact ih (fun d hd => h d (List.mem_cons_of_mem _ hd)) k
theorem codeIs_unique {s : State} {n : Nat} {e f : CodeEntry} (h : CodeIs s n e) (k : CodeIs s n f) : e = f := by
  obtain ⟨_, i, hi, he⟩ := h
  obtain ⟨_, j, hj, hf⟩ := k
  have : i = j := Fin.ext (hi.trans hj.symm)
  subst this
  exact Option.some.inj (he.symm.trans hf)
theorem currencyIs_unique {s : State} {n : Nat} {c d : Fin 8} {e f : CurrencyEntry} (h : CurrencyIs s n c e)
    (k : CurrencyIs s n d f) : c = d ∧ e = f := by
  have : c = d := Fin.ext (h.1.trans k.1.symm)
  subst this
  exact ⟨rfl, Option.some.inj (h.2.symm.trans k.2)⟩
theorem buyCode : CodeIs branch 40 (code .exchangeBuy false) := ⟨by decide, 40, rfl, by decide +kernel⟩
theorem buyCurrency : CurrencyIs branch 1 1 ⟨txt ['B','B','B'], 2, 5⟩ := ⟨rfl, by decide +kernel⟩
/-- The purchase of section 1.7 passes every check of Table 1-1; a closed day fails the second. -/
theorem witness_RefusedPostChangesNothing_none : ∀ st, ¬FirstFails (postingChecks (postRequest ⟨3, 77⟩ buy) branch) st := by
  refine noneFails ?_
  simp only [postingChecks, List.forall_mem_cons]
  refine ⟨(by intro h; cases h), Or.inl rfl, rfl, (by decide), ⟨_, buyCode⟩, ⟨_, _, buyCurrency, ?_⟩, (by decide), ?_, ?_, ?_,
    ?_, (by decide +kernel), (by intro x h; cases h)⟩
  · intro e he _; decide
  · intro e c cur he hc _
    obtain ⟨rfl, rfl⟩ := currencyIs_unique buyCurrency hc
    obtain rfl := codeIs_unique buyCode he
    exact ⟨⟨13456789, 13912345⟩, by decide +kernel, by decide, by decide⟩
  · intro e c cur he hc _
    obtain ⟨rfl, rfl⟩ := currencyIs_unique buyCurrency hc
    decide
  · intro e he h
    obtain rfl := codeIs_unique buyCode he
    exact absurd h (by decide)
  · intro e c cur he hc
    obtain ⟨rfl, rfl⟩ := currencyIs_unique buyCurrency hc
    obtain rfl := codeIs_unique buyCode he
    decide +kernel
theorem witness_RefusedPostChangesNothing_first :
    FirstFails (postingChecks (postRequest ⟨3, 77⟩ buy) { branch with day := { branch.day with state := .closing } }) .dayState :=
  firstFails_later (by intro h; cases h) (firstFails_here (by rintro (h | ⟨_, h⟩) <;> cases h))
theorem witness_AcceptedPostIsJournaledAndApplied :
    Takes branch ∧ postMalformed buy = false ∧
      (match checkPosting (postRequest ⟨3, 77⟩ buy) (arrived branch) with
        | .ok _ => true
        | .error _ => false) = true :=
  ⟨takes_of _ (by decide) (by decide), by decide, by decide +kernel⟩

/-- A POST of a passbook line for account 4455, whose list holds all but one, and all, of the lines it may (R125). -/
def listOf (n : Nat) : State := { branch with store := [⟨[4, 4, 5, 5], none, List.replicate n line900, false⟩] }
theorem witness_AcceptedPostIsJournaledAndApplied_line :
    postMalformed bookPost = false ∧
      (match checkPosting (postRequest ⟨2, 5⟩ bookPost) (arrived (listOf 31)) with
        | .ok pl => pl.code.passbook
        | .error _ => false) = true ∧
      (after (.post ⟨2, 5⟩ bookPost) (listOf 31)).nv.entries.map (·.print) = [.stored] ∧
      rd (after (.post ⟨2, 5⟩ bookPost) (listOf 31)).queues 0 = [⟨[4, 4, 5, 5], 2⟩] ∧
      (after (.post ⟨2, 5⟩ bookPost) (listOf 32)).nv.entries.map (·.print) = [.overflow] ∧
      rd (after (.post ⟨2, 5⟩ bookPost) (listOf 32)).queues 0 = [] := by decide +kernel

/-- A POST that answers entry 7 of position 3, which is AWAITING it; and one that comes after the entry is in doubt. -/
def answer : PostBody := { buy with entryRef := some 7 }
theorem witness_PostMatchesOutstandingEntry :
    let s := branch.updPos 3 fun r => { r with state := .awaiting, outstanding := some 7 }
    let u := branch.updPos 3 fun r => { r with state := .ready, inDoubt := some 7 }
    postMalformed answer = false ∧ (rd s.posns 3).outstanding = some 7 ∧
      (rd (after (.post ⟨3, 77⟩ answer) s).posns 3).state = .ready ∧
      (rd (after (.post ⟨3, 77⟩ answer) s).posns 3).inDoubt = none ∧
      (rd (after (.post ⟨3, 77⟩ answer) u).posns 3).inDoubt = none ∧
      (after (.post ⟨3, 77⟩ answer) u).line.outbound.length = 2 := by decide +kernel

/-- Two lines for account 4455 (R126). -/
def twoLines : List BookLineItem := [⟨20260302, List.replicate 8 0x41, 5, 2, none⟩, ⟨20260302, List.replicate 8 0x42, -5, 2, some 7⟩]
theorem witness_BookLinesAreJournaledAndKept :
    Takes branch ∧ bookLinesBad [4, 4, 5, 5] 1 twoLines = false ∧ branch.clock.isSet = true ∧
      slotsUsed branch + (midnightBodies branch).length + twoLines.length ≤ 16128 ∧
      (branch.store.map (·.account)).Nodup ∧
      storedLines (after (.bookLines ⟨2, 1⟩ (.full [4, 4, 5, 5] 1 twoLines)) branch) = 2 ∧
      (after (.bookLines ⟨2, 1⟩ (.full [4, 4, 5, 5] 1 twoLines)) (listOf 31)).nv.entries.map (·.print) = [.stored, .overflow] ∧
      (after (.bookLines ⟨2, 1⟩ (.full [4, 4, 5, 5] 1 twoLines)) (listOf 32)).store = (listOf 32).store :=
  ⟨takes_of _ (by decide) (by decide), by decide, by decide, by decide, by decide, by decide +kernel, by decide +kernel,
    by decide +kernel⟩

/-! ### Balances -/

/-- Position 6 READY with a balance key; and position 6 BALANCING on form 1 with a count of 100 and TRANSMIT waiting. -/
def withKey (t : Token) : State := place 6 .ready (some 14) [t] [] branch
def balancing (k : BalKind) : State :=
  (place 6 .balancing (some 1) [.transmit] [txt ['1','0','0']] branch).updDrawer 6 fun d =>
    { d with captureNo := 1, ctx := some ⟨k, 1, none, some 14⟩, lines := wr d.lines 0 ⟨90, 1, false⟩ }
theorem witness_SingleBalanceCaptures :
    let s := withKey .balance
    s.powered = true ∧ s.day.state = .opened ∧ s.clock.isSet = true ∧ slotsUsed s + (midnightBodies s).length + 4 ≤ 16256 ∧
      (rd s.posns 6).state = .ready ∧ (rd s.keys 6).queue = [.balance] ∧
      (rd (after (.balance 6) s).posns 6).state = .balancing ∧
      (rd (after (.signOff 6) (withKey .signOff)).posns 6).state = .balancing ∧
      (rd (after (.positionControlBalance ⟨6, 1⟩ (some .final)) s).drawers 6).captureNo = 1 ∧
      (after (.positionControlBalance ⟨6, 1⟩ none) s).drawers = s.drawers := by decide +kernel
theorem witness_GroupBalanceCapturesGroup :
    let s := withKey .groupBalance
    s.powered = true ∧ isLeader s.tables.positions 6 = true ∧
      (∀ q ∈ groupOf s.tables.positions 6, (rd s.posns q).state ≠ .balancing) ∧
      slotsUsed s + ((groupBodies .interim 6 s).map kindSlots).sum ≤ 16256 ∧
      slotsUsed s + ((groupBodies .final 6 s).map kindSlots).sum ≤ 16256 ∧
      rd (after (.groupBalance 6) s).groups 6 = some ⟨.interim, [6], []⟩ ∧
      rd (after (.positionControlGroupBalance ⟨6, 1⟩ (some .final)) branch).groups 6 = none ∧
      (after (.positionControlGroupBalance ⟨6, 1⟩ (some .final)) branch).nv.entries.length = 12 ∧
      (after (.positionControlGroupBalance ⟨6, 1⟩ none) branch).nv = branch.nv := by decide +kernel
/-- The same balance as the last of position 2's group, and with position 5 still to declare. -/
def inGroup (pend : List Pos) (s : State) : State :=
  { s.updDrawer 6 fun d => { d with ctx := d.ctx.map fun c => { c with leader := some 2 } } with
    groups := wr s.groups 2 (some ⟨.final, pend, []⟩) }
theorem witness_DeclarationEndsBalance_group :
    let s := inGroup [6] (balancing .final)
    let t := after (.transmit 6) s
    groupEndBodies 6 (some 2) false s = [.groupEnd 2 .final []] ∧ rd t.groups 2 = none ∧
      (t.nv.entries.getLast?.map (·.body)) = some (.groupEnd 2 .final []) ∧
      rd (after (.transmit 6) (inGroup [5, 6] (balancing .final))).groups 2 = some ⟨.final, [5], []⟩ := by decide +kernel
theorem witness_DeclarationEndsBalance_filled : ∀ i, ∀ f : FieldDesc, form1.fields[i]? = some f → f.mandatory = true →
    isFilled f (fieldValue (balancing .final) 6 i) = true := by
  intro i f h _
  match i with
  | 0 => cases h; decide +kernel
  | i + 1 => simp [form1] at h
theorem witness_DeclarationEndsBalance :
    let s := balancing .final
    s.powered = true ∧ (rd s.posns 6).state = .balancing ∧ (rd s.screens 6).form = some 1 ∧
      rd s.tables.forms 1 = some form1 ∧ firstUnfilled s 6 = none ∧ (rd s.keys 6).queue = [.transmit] ∧
      (rd s.drawers 6).ctx = some ⟨.final, 1, none, some 14⟩ ∧
      (match declareSlots s 6 .final form1 (List.finRange 8) with
        | .ok xs => xs
        | .error _ => []) = [⟨0, 100, 90, 10, some (-10), 0⟩] ∧
      (rd (rd (after (.transmit 6) s).drawers 6).lines 0).amount = 100 ∧
      (rd (after (.transmit 6) s).posns 6).state = .signedOff ∧
      (rd (after (.transmit 6) (balancing .interim)).posns 6).state = .ready := by decide +kernel

/-! ### The day and the clock -/

/-- An OPEN for a branch whose last day is CLOSED-undelivered and is discarded. -/
def opening : OpenBody := ⟨20260303, some .supplied, List.replicate 16 [100, 0, 0, 0, 0, 0, 0, 0], true⟩
def closed : State := { branch with day := ⟨.closed true, some 20260302, none, true, []⟩ }
theorem witness_OpenStartsDay :
    closed.powered = true ∧ closed.day.state = .closed true ∧ openMalformed opening = false ∧
      openRefusal opening closed = none ∧ (after (.openDay ⟨255, 1⟩ opening) closed).nv.entries.length = 16 ∧
      openMalformed { opening with amounts := List.replicate 17 [0, 0, 0, 0, 0, 0, 0, 0] } = true ∧
      openMalformed { opening with source := none } = false ∧
      (after (.openDay ⟨255, 1⟩ { opening with source := none }) closed).day = closed.day ∧
      (after (.openDay ⟨255, 1⟩ { opening with discard := false }) closed).line.outbound.map (·.body) =
        [.reply .undeliveredDay .none] := by decide +kernel
/-- Every check of R63 holds for that OPEN; without the discard mark the second fails first. -/
theorem witness_OpenStartsDay_none : ∀ st, ¬FirstFails (openingChecks opening (openingAmounts opening closed) closed) st := by
  refine noneFails ?_
  simp only [openingChecks, List.forall_mem_cons]
  refine ⟨⟨true, rfl⟩, fun _ => rfl, rfl, (by decide +kernel), ⟨fun h => absurd h (by decide +kernel), fun _ => by decide +kernel⟩,
    (by intro h; cases h), ?_, (by intro x h; cases h)⟩
  have k : (∀ (p : Pos) (c : Fin 8), (∀ cur ∈ rd closed.tables.currencies c,
      rd (rd (openingAmounts opening closed) p) c % (cur.unit : Int) = 0) ∧ (rd closed.tables.currencies c = none →
      rd (rd (openingAmounts opening closed) p) c = 0)) := by decide +kernel
  exact fun p c => ⟨fun cur h => (k p c).1 cur (by rw [h]; rfl), (k p c).2⟩
theorem witness_OpenStartsDay_first : FirstFails
    (openingChecks { opening with discard := false } (openingAmounts opening closed) closed) .undeliveredDay :=
  firstFails_later ⟨true, rfl⟩ (firstFails_here (by intro h; cases h rfl))
/-- The branch with its alarm due; and with the journal at the control limit, where no CUTOFF entry fits. -/
def alarmDue : State := branch.updDay fun d => { d with alarm := some ⟨36000, true⟩ }
def full : State :=
  { alarmDue with nv := { branch.nv with control := ⟨⟨20260302, some .opened, 16256, 0, 0, true⟩, 0⟩ } }
theorem witness_CutoffIsEntered :
    alarmDue.powered = true ∧ alarmDue.day.state = .opened ∧ slotsUsed alarmDue + (midnightBodies alarmDue).length + 1 ≤ 16256 ∧
      ¬(slotsUsed full + (midnightBodies full).length + 1 ≤ 16256) ∧ (after .cutoffAlarmFire alarmDue).day.state = .cutoff ∧
      (after .cutoffAlarmFire full).day.state = .opened ∧ (after (.closeDay ⟨255, 1⟩) branch).day.state = .cutoff ∧
      (after (.closeDay ⟨255, 1⟩) full).line.outbound = [⟨255, 1, .reply .journalFull .none⟩] := by decide +kernel
theorem witness_ClockAndAlarmRequests :
    Takes branch ∧ (after (.setTime ⟨255, 1⟩ 86399) branch).clock.time = 86399 ∧
      (after (.setTime ⟨255, 1⟩ 86400) branch).clock = branch.clock ∧
      (after (.setCutoff ⟨255, 1⟩ 36000) branch).day.alarm = some ⟨36000, false⟩ ∧
      (after (.clearCutoff ⟨255, 1⟩) alarmDue).day.alarm = none :=
  ⟨takes_of _ (by decide) (by decide), by decide +kernel, by decide +kernel, by decide +kernel, by decide +kernel⟩
theorem witness_ClockAdvanceCountsSecond :
    branch.powered = true ∧ State.reset.clock.isSet = false ∧
      (after .clockAdvance { branch with clock := ⟨86399, true, 255⟩ }).clock = ⟨0, true, 255⟩ ∧
      (after .clockAdvance branch).clock = ⟨36001, true, 0⟩ := by decide +kernel
theorem witness_ClosingIsEntered :
    cutoff.powered = true ∧ cutoff.day.state = .cutoff ∧ (∀ p, (rd cutoff.posns p).state = .signedOff) ∧
      (∀ n, (rd cutoff.printers n).holds = false) ∧ slotsUsed cutoff + (backlogs cutoff).length + 2 ≤ 16384 ∧
      (rd (typing .transmit).posns 9).state ≠ .signedOff ∧
      (after (.closingConditionTest none) cutoff).day.state = .closing ∧
      (after (.closingConditionTest none) cutoff).engine.state = .active := by decide +kernel
/-- With a line to backlog, a pending midnight and a FORWARD batch that goes on or has failed (R67, R73, R169). -/
theorem witness_ClosingIsEntered_book :
    let s := { cutoffBook with clock := { cutoffBook.clock with midnights := 1 } }
    let t := after (.closingConditionTest (some badRead)) s
    backlogs s = [([4, 4, 5, 5], [1])] ∧ t.nv.entries.map (·.print) = [.backlogged, .none, .none, .none] ∧
      t.nv.entries.map (·.kind) = [2, 7, 0x0B, 0x0C] ∧ t.store = [] ∧ t.day.retainedBad = true ∧
      (after (.closingConditionTest none) (transferring .paused (batchOf .forward none) s)).engine.dayAwaited = true ∧
      ((after (.closingConditionTest none) (transferring .failed (batchOf .forward none) s)).engine.batch.map (·.kind)) =
        some .day := by decide +kernel
theorem witness_CompletionDeliversDay :
    let s := { cutoff with day := ⟨.closing, some 20260302, none, false, [20260302]⟩ }
    s.powered = true ∧ s.day.completions = [20260302] ∧ businessDate s = 20260302 ∧
      (after .dayBatchCompletion s).day.state = .closed false ∧
      (after .dayBatchCompletion { s with day := { s.day with completions := [20260301] } }).day.state = .closing := by
  decide +kernel
theorem witness_ForceCloseEndsDay :
    Takes (withBook .printing (some ⟨5, 5⟩)) ∧ (withBook .printing none).day.state = .opened ∧
      (rd (after (.forceClose ⟨255, 1⟩ none) (withBook .printing none)).printers 0).state = .ejecting ∧
      (after (.forceClose ⟨255, 1⟩ none) (withBook .printing none)).nv.entries.map (·.print) =
        [.backlogged, .none, .none] ∧
      (after (.forceClose ⟨255, 1⟩ none) closed).day = closed.day ∧
      (after (.forceClose ⟨255, 1⟩ none) (balancing .final)).nv.entries.map (·.kind) = [9, 0x0C] ∧
      (after (.forceClose ⟨255, 1⟩ none) { cutoff with day := ⟨.closing, some 20260302, none, false, []⟩ }).day.state =
        .closed true :=
  ⟨takes_of _ (by decide) (by decide), by decide, by decide +kernel, by decide +kernel, by decide +kernel, by decide +kernel,
    by decide +kernel⟩
theorem witness_SendStartsOrResumesBatch :
    let s := { journaled (entryOf .standIn .pending .none) with day := ⟨.closing, some 20260302, none, false, []⟩ }
    let u := journaled (entryOf .standIn .pending .none)
    s.powered = true ∧ s.engine.batch = none ∧ (carriedFrom .day s.nv.control.fields.delivered (slotsUsed s) s).length = 1 ∧
      (after (.sendDay ⟨⟨255, 1⟩, false⟩) s).engine.state = .active ∧
      (carriedFrom .forward 0 (slotsUsed u) u).length = 1 ∧ u.jc.pendingCount = 1 ∧
      (after (.sendForward ⟨⟨255, 1⟩, false⟩ .forward) u).engine.state = .active ∧
      (after (.sendDay ⟨⟨255, 1⟩, false⟩) (transferring .failed (batchOf .day none) s)).engine.state = .active ∧
      (after (.sendForward ⟨⟨255, 1⟩, false⟩ .noKnownKind) u).line.outbound.map (·.body) = [.reply .malformed .none] ∧
      (after (.sendForward ⟨⟨255, 1⟩, false⟩ .noKnownRequest) u).line.outbound.length = 1 ∧
      (after (.sendDay ⟨⟨255, 1⟩, false⟩) u).line.outbound.map (·.body) = [.reply .dayState .none] := by decide +kernel
/-- R170: with the line just returned, a SEND taken after the notice finds the batch that the return started, and before
it starts the batch itself; either way one batch goes on. -/
theorem witness_SendStartsOrResumesBatch_notices :
    let s := standInOf { journaled (entryOf .standIn .pending .none) with day := ⟨.closing, some 20260302, none, false, []⟩ }
    (arrived s).engine.notices = [.back] ∧
      (after (.sendDay ⟨⟨255, 1⟩, true⟩) s).engine.notices = [] ∧ (after (.sendDay ⟨⟨255, 1⟩, true⟩) s).engine.lastBatch = 1 ∧
      (after (.sendDay ⟨⟨255, 1⟩, false⟩) s).engine.notices = [.back] ∧ (after (.sendDay ⟨⟨255, 1⟩, false⟩) s).engine.lastBatch = 1 := by
  decide +kernel

/-! ### Positions and keys -/

theorem witness_PositionRequestsChangeState :
    Takes branch ∧ (rd (after (.signOn ⟨6, 1⟩ (.request (some [1, 2, 3, 4, 5, 6]))) branch).posns 6).state = .ready ∧
      (rd (after (.unlock ⟨6, 1⟩) (branch.updPos 6 fun r => { r with state := .awaiting, outstanding := some 3 })).posns 6).inDoubt =
        some 3 ∧
      (rd (after (.forceSignOff ⟨9, 1⟩) (typing .transmit)).posns 9).state = .signedOff ∧
      (rd (balancing .final).drawers 6).ctx = some ⟨.final, 1, none, some 14⟩ ∧
      (after (.forceSignOff ⟨6, 1⟩) (balancing .final)).nv.entries.length = 1 ∧
      (after (.forceSignOff ⟨6, 1⟩) (inGroup [6] (balancing .final))).nv.entries.map (·.body) =
        [.abandoned 6 .final 1 .forceSignOff, .groupEnd 2 .final [6]] ∧
      rd (after (.forceSignOff ⟨6, 1⟩) (inGroup [5, 6] (balancing .final))).groups 2 = some ⟨.final, [5], [6]⟩ :=
  ⟨takes_of _ (by decide) (by decide), by decide +kernel, by decide +kernel, by decide +kernel, by decide +kernel,
    by decide +kernel, by decide +kernel, by decide +kernel⟩
theorem witness_TokensQueueAndTimerReleases :
    let s := (branch.updPos 6 fun r => { r with state := .awaiting, outstanding := some 3 }).updKeys 6 fun k =>
      { k with timer := some ⟨30, 0⟩, queue := List.replicate 15 .transmit }
    s.powered = true ∧ (rd s.keys 6).queue.length < 16 ∧ (rd (after (.keyToken 6 .clear) s).keys 6).queue.length = 16 ∧
      (rd (after (.keyToken 6 .clear) (after (.keyToken 6 .clear) s)).keys 6).queue.length = 16 ∧
      (rd (after (.entryTimerExpiry 6) s).posns 6).inDoubt = some 3 := by decide +kernel

/-- The editor on form 14 at its TEXT field with a full text position, and at its NUMERIC field. -/
def atText (t : Token) (pos : Nat) : State := (typing t).updKeys 9 fun k => { k with cursorField := some 1, textPos := pos }
theorem acts_typing (t u : Token) : Acts (typing u) 9 t := Or.inl rfl
theorem witness_EditorEditsCursorField :
    (typing .clear).powered = true ∧ (rd (typing .clear).keys 9).cursorField = some 0 ∧
      (currentFields (typing .clear) 9)[0]? = some amountField ∧
      (currentFields (atText .clear 9) 9)[1]? = some accountField ∧
      (rd (after (.fieldNext 9) (typing .fieldNext)).keys 9).cursorField = some 1 ∧
      (rd (after (.fieldBack 9) (typing .fieldBack)).keys 9).cursorField = some 1 ∧
      (rd (after (.character 9) (atText (.character 0x37) 9)).keys 9).cursorField = some 0 ∧
      (rd (after (.character 9) (atText (.character 0x37) 8)).keys 9).textPos = 9 ∧
      (after (.character 9) (atText (.character 0x7F) 8)).out = [.tone 9] ∧
      fieldValue (after (.backspace 9) (typing .backspace)) 9 0 = txt ['1','2','5','0'] ∧
      fieldValue (after (.eraseField 9) (typing .eraseField)) 9 0 = [] ∧
      (rd (after (.clear 9) (typing .clear)).keys 9).values = form14.fields.map presetValue := by decide +kernel
/-- The amount of 60,000 of section 10.6 passes Table 1-1 and fails the fourth check of Table 10-1; of the fields of the
sign-on form none is mandatory. -/
def overLimit : State := standInTeller ['1','0'] ['0'] ['6','0','0','0','0'] 0 30
theorem witness_TransmitSendsOrStandsIn_overLimit :
    ∃ req pl, standInRequest overLimit 6 form22 = .ok req ∧ checkPosting req overLimit = .ok pl ∧
      FirstFails (standInChecks 6 form22 req pl overLimit) .overLimit := by
  let req : PostReq := ⟨.standIn, 6, 10, 0, 60000, none, none, none, none⟩
  have r : standInRequest overLimit 6 form22 = .ok req := by rfl
  have k : (match checkPosting req overLimit with
      | .ok pl => decide (pl.code = code .cashOut true ∧ pl.value = 60000)
      | .error _ => false) = true := by decide +kernel
  cases h : checkPosting req overLimit with
  | error st => rw [h] at k; cases k
  | ok pl =>
  rw [h] at k
  obtain ⟨hcode, hvalue⟩ := of_decide_eq_true k
  refine ⟨req, pl, r, h, firstFails_later (by decide +kernel) <| firstFails_later rfl <|
    firstFails_later (by rw [hcode]; rfl) <| firstFails_here ?_⟩
  rw [hcode, hvalue]
  rintro ⟨c, hc, most, hm, _, hv⟩
  have e : c = 1 := Fin.ext hc
  subst e
  have e : most = 50000 := by
    have k : rd overLimit.tables.limits 1 = some 50000 := by decide +kernel
    exact Option.some.inj (hm.symm.trans k)
  subst e
  exact absurd hv (by decide)
theorem witness_TransmitSendsOrStandsIn :
    let s := typing .transmit
    s.powered = true ∧ (rd s.keys 9).queue = [.transmit] ∧ (rd s.screens 9).form = some 14 ∧
      rd s.tables.forms 14 = some form14 ∧ firstUnfilled s 9 = none ∧ (14 : Fin 32) ≠ 1 ∧ s.line.outbound.length < 28 ∧
      (match standInCheck (standInTeller ['1','0'] ['0'] ['4','0','0','0','0'] 0 30) 6 form22 with
        | .ok _ => true
        | .error _ => false) = true ∧
      (match standInCheck (standInTeller ['1','0'] ['0'] ['6','0','0','0','0'] 0 30) 6 form22 with
        | .ok _ => none
        | .error st => some st) = some .overLimit ∧
      (rd (after (.transmit 9) (place 9 .signedOff (some 0) [.transmit] [List.replicate 6 0x31] branch)).posns 9).entryNo = 1 ∧
      (after (.attention 9) (typing .attention)).line.outbound.length = 1 := by decide +kernel

/-! ### Passbooks and printers -/

/-- Position 2 on form 14 with account 4455 filled and the line kept; without and with its job. -/
def bookKey (t : Token) (jobs : List Job) (st : PrnState) : State :=
  place 2 .ready (some 14) [t] [[], txt ['4','4','5','5',' ',' ',' ',' ',' ',' '], presetValue labelField]
    { withBook st none with queues := wr branch.queues 0 jobs,
                            store := [⟨[4, 4, 5, 5], some 1, [line900], !jobs.isEmpty⟩] }
/-- R121: a value with a blank among its digits is the number without it; one with a letter is refused. -/
theorem witness_BookKeysPlaceAndCancelJobs_account :
    let v (bs : List Byte) := (bookKey .printBook [] .empty).updKeys 2 fun k => { k with values := k.values.set 1 bs }
    formOk 14 form14 = true ∧ form14.fields[1]? = some accountField ∧
      keyAccount (v (txt ['4','4',' ','5','5',' ',' ',' ',' ',' '])) 2 = some [4, 4, 5, 5] ∧
      keyAccount (v (txt ['4','4','X',' ',' ',' ',' ',' ',' ',' '])) 2 = none ∧
      keyAccount (v (List.replicate 10 0x20)) 2 = none ∧
      (after (.printBook 2) (v (List.replicate 10 0x20))).out = [.tone 2] := by decide +kernel
theorem witness_BookKeysPlaceAndCancelJobs :
    let s := bookKey .printBook [] .empty
    s.powered = true ∧ keyAccount s 2 = some [4, 4, 5, 5] ∧ (rd s.keys 2).queue = [.printBook] ∧
      jobMarked [4, 4, 5, 5] s = false ∧ accountLines [4, 4, 5, 5] s = [line900] ∧ (rd s.queues 0).length < 8 ∧
      (rd (after (.printBook 2) s).printers 0).state = .waitBook ∧
      rd (after (.cancelBook 2) (bookKey .cancelBook [⟨[1], 4⟩, ⟨[4, 4, 5, 5], 2⟩] .empty)).queues 0 = [⟨[1], 4⟩] ∧
      (rd (after (.cancelBook 2) (bookKey .cancelBook [⟨[4, 4, 5, 5], 2⟩] .held)).printers 0).job.cancelPending = true ∧
      (rd (after (.cancelBook 2) (bookKey .cancelBook [⟨[4, 4, 5, 5], 2⟩] .reading)).printers 0).state = .ejecting ∧
      (rd (after (.cancelBook 2) (bookKey .cancelBook [⟨[4, 4, 5, 5], 2⟩] .waitBook)).printers 0).state = .empty ∧
      rd (after (.cancelBook 2) (bookKey .cancelBook [⟨[4, 4, 5, 5], 2⟩] .homing)).queues 0 = [] ∧
      (rd (after (.cancelBook 2) ((bookKey .cancelBook [⟨[4, 4, 5, 5], 2⟩] .writingStripe).updPrinter 0 fun r =>
        { r with reason := some .turnPage })).printers 0).reason = some .cancelled ∧
      (after (.cancelBook 2) (bookKey .cancelBook [] .empty)).out = [.tone 2] := by decide +kernel
theorem witness_PrinterComesUpAndTakesBook :
    (rd State.reset.printers 1).state = .offline ∧ (rd branch.printers 1).state = .empty ∧
      (rd (after (.ready 1) State.reset).printers 1).state = .homing ∧
      (rd (after (.homeDone 0) (withBook .homing none)).printers 0).state = .waitBook ∧
      (rd (after (.bookIn 0) (withBook .waitBook none)).printers 0).state = .reading ∧
      (after (.bookIn 1) branch).out = [.printer 1 .eject] := by decide +kernel
theorem witness_StripeIsJudged :
    let s := withBook .reading none
    s.powered = true ∧ rd s.queues 0 = [⟨[4, 4, 5, 5], 2⟩] ∧
      findAccount [4, 4, 5, 5] s = some ⟨[4, 4, 5, 5], some 1, [line900], true⟩ ∧
      (rd (after (.stripeData 0 ⟨[4, 4, 5, 5], 1, 3, 7⟩) s).printers 0).state = .held ∧
      (rd (after (.stripeData 0 ⟨[4, 4, 5, 5], 1, 3, 31⟩) s).printers 0).nextPage = 4 ∧
      (rd (after (.stripeData 0 ⟨[4, 4, 5, 5], 1, 8, 31⟩) s).printers 0).reason = some .bookFull ∧
      (rd (after (.stripeData 0 ⟨[9], 1, 3, 7⟩) s).printers 0).reason = some .wrongBook ∧
      (rd (after (.stripeFail 0) s).printers 0).job.attempts = 1 := by decide +kernel
theorem witness_PrinterDecidesAndPrints :
    let s := withBook .held none
    let t := withBook .printing none
    s.powered = true ∧ accountLines [4, 4, 5, 5] s = [line900] ∧ (rd s.printers 0).nextPage = (rd s.printers 0).openPage ∧
      (rd (after (.printerDecision 0) s).printers 0).state = .printing ∧ (t.store.map (·.account)).Nodup ∧
      entryAt 1 t = some (entryOf .online .notNeeded .stored) ∧ accountLines [4, 4, 5, 5] (after (.lineDone 0) t) = [] ∧
      (after (.lineDone 0) t).nv.entries.map (·.print) = [.printed] ∧
      (rd (after (.printerDecision 0) (after (.lineDone 0) t)).printers 0).reason = some .complete := by decide +kernel
theorem witness_BookLeavesPrinter :
    let out (w : Reason) (tries : Nat) := (withBook .ejecting none).updPrinter 0 fun r =>
      { r with ejectJob := true, reason := some w, job := { r.job with attempts := tries } }
    (rd (after (.ejectDone 0) (out .turnPage 0)).printers 0).state = .waitBook ∧
      rd (after (.ejectDone 0) (out .wrongBook 2)).queues 0 = [⟨[4, 4, 5, 5], 2⟩] ∧
      rd (after (.ejectDone 0) (out .wrongBook 3)).queues 0 = [] ∧
      (rd (after (.stripeWritten 0) (withBook .writingStripe none)).printers 0).job.lastStripe = some (3, 7) ∧
      (rd (after (.stripeWriteFail 0) (withBook .writingStripe none)).printers 0).job.stripeFailed = true ∧
      (rd (after (.ejectDone 1) (branch.updPrinter 1 fun r => { r with state := .ejecting })).printers 1).state = .empty ∧
      (rd (after (.ejectDone 0) (withBook .ejecting none)).printers 0).state = .waitBook := by decide +kernel
theorem witness_PrinterFaultsAndGivesUp :
    (rd (withBook .waitBook (some ⟨60, 0⟩)).printers 0).timer = some ⟨60, 0⟩ ∧ faultTimer .printing = some .linePrintTimer ∧
      rd (after (.bookWaitExpiry 0) (withBook .waitBook (some ⟨60, 0⟩))).queues 0 = [] ∧
      (rd (after (.printerTimerExpiry 0) (withBook .printing (some ⟨5, 0⟩))).printers 0).state = .offline ∧
      rd (after (.fault 0) (withBook .waitBook none)).queues 1 = [⟨[4, 4, 5, 5], 2⟩] ∧
      (rd (after (.fault 0) (withBook .waitBook none)).printers 1).state = .waitBook := by decide +kernel
/-- R131: the alternate of position 2 OFFLINE or full, its queued job is dropped with NO PRINTER and its lines stay. -/
theorem witness_PrinterFaultsAndGivesUp_dropped :
    let s := withBook .waitBook none
    let t := after (.fault 0) (s.updPrinter 1 fun r => { r with state := .offline })
    let u := after (.fault 0) { s with queues := wr s.queues 1 (List.replicate 8 ⟨[9], 6⟩) }
    alternateFor 0 s s.queues ⟨[4, 4, 5, 5], 2⟩ = some 1 ∧ rd t.queues 1 = [] ∧ (rd t.screens 2).noPrinter = true ∧
      jobMarked [4, 4, 5, 5] t = false ∧ accountLines [4, 4, 5, 5] t = [line900] ∧ (rd u.queues 1).length = 8 ∧
      (rd u.screens 2).noPrinter = true := by decide +kernel

/-! ### Transfer and RESTART -/

/-- The acknowledgement of block 1 or 2 of batch 9. -/
def ack (n : Nat) (st : AckStatus) : AckBody := ⟨9, n, st⟩
def flightEntry : State := transferring .active (batchOf .forward none) (journaled (entryOf .standIn .pending .none))
theorem witness_AckAcknowledgesOrFails :
    let d := transferring .active (batchOf .day (some 1)) (journaled (entryOf .online .notNeeded .none))
    Takes flightEntry ∧ flightEntry.engine.state = .active ∧
      flightEntry.engine.flights.find? (fun f => f.number == 1) = some (flightOf 1 0 1) ∧
      (flightEntries .forward (flightOf 1 0 1) flightEntry).map (·.2) = [entryOf .standIn .pending .none] ∧
      (after (.transferAck ⟨⟨255, 1⟩, false⟩ (ack 1 .accept)) flightEntry).nv.entries.map (·.fwd) = [.forwarded] ∧
      ((after (.transferAck ⟨⟨255, 1⟩, false⟩ (ack 2 .accept)) flightEntry).engine.batch.map (·.acked)) = some 2 ∧
      (after (.transferAck ⟨⟨255, 1⟩, false⟩ (ack 3 .accept)) flightEntry).engine = flightEntry.engine ∧
      (after (.transferAck ⟨⟨255, 1⟩, false⟩ (ack 1 .refuse)) flightEntry).engine.state = .failed ∧
      atBoundary 2 d = true ∧ (after (.transferAck ⟨⟨255, 1⟩, false⟩ (ack 1 .accept)) d).day.completions = [20260302] :=
  ⟨takes_of _ (by decide) (by decide), by decide +kernel, by decide +kernel, by decide +kernel, by decide +kernel,
    by decide +kernel, by decide +kernel, by decide +kernel, by decide +kernel, by decide +kernel⟩
/-- R168, R169: the final block of a FORWARD batch with a posting still PENDING, with a DAY batch awaited, and refused. -/
theorem witness_AckAcknowledgesOrFails_final :
    let b : Batch := { batchOf .forward (some 2) with acked := 1 }
    let s := { journaled (entryOf .standIn .pending .none) with
      engine := { Engine.initial with state := .active, batch := some b, lastBatch := 9, flights := [flightOf 2 2 3] } }
    let w := s.updEngine fun e => { e with dayAwaited := true }
    Takes s ∧ WindowHeld s ∧ ((after (.transferAck ⟨⟨255, 1⟩, false⟩ (ack 2 .accept)) s).engine.batch.map (·.number)) = some 10 ∧
      ((after (.transferAck ⟨⟨255, 1⟩, false⟩ (ack 2 .accept)) w).engine.batch.map (·.kind)) = some .day ∧
      ((after (.transferAck ⟨⟨255, 1⟩, false⟩ (ack 2 .refuse)) w).engine.batch.map (·.kind)) = some .day := by
  refine ⟨takes_of _ (by decide) (by decide), ⟨⟨fun e => (by cases e), fun e => (by cases e)⟩, fun e => (by cases e), fun b e => ?_⟩,
    by decide +kernel, by decide +kernel, by decide +kernel⟩
  cases e
  decide
theorem witness_EngineTakesNotices :
    let s (n : LineNotice) (st : EngineState) := (transferring st (batchOf .forward none) branch).updEngine fun e =>
      { e with notices := [n] }
    let idle := (journaled (entryOf .standIn .pending .none)).updEngine fun e => { e with notices := [.back], recoveryDone := true }
    (after .transferLineLoss (s .loss .active)).engine.state = .paused ∧
      (after .transferLineReturn (s .back .paused)).engine.state = .active ∧
      (after .transferLineReturn (s .back .failed)).engine.state = .failed ∧
      (after .transferLineReturn idle).engine.state = .active ∧
      (after .transferRecoveryFinish idle).engine.state = .active ∧
      ((after .ackTimerExpiry (s .back .active)).engine.batch.map (·.retries)) = some 1 ∧
      (after .ackTimerExpiry (transferring .active { batchOf .forward none with retries := 5 } branch)).engine.state = .failed := by
  decide +kernel
theorem witness_EngineTakesNotices_window : WindowHeld (transferring .paused (batchOf .forward none) branch) :=
  windowHeld_transferring (by decide) _ _ _
theorem witness_RestartRepaintsAndKeeps :
    Takes (withBook .printing none) ∧ ((withBook .printing none).store.map (·.account)).Nodup ∧
      (rd (after (.restart ⟨⟨255, 1⟩, false⟩) (withBook .printing none)).printers 0).state = .ejecting ∧
      (rd (after (.restart ⟨⟨255, 1⟩, false⟩) (typing .clear)).keys 9).queue = [] :=
  ⟨takes_of _ (by decide) (by decide), by decide +kernel, by decide +kernel, by decide +kernel⟩

/-! ### Refusals, and the clauses beside the accepted cases -/

/-- The bodies of what a command has queued. -/
def said (c : Instr) (s : State) : List OutBody := (after c s).line.outbound.map (·.body)

/-- R54: slots used go on and journal memory holds no entry. -/
theorem witness_ReplayStopsAtBadEntry_missing :
    let s := { recovering openingEntry .opened with nv := { (recovering openingEntry .opened).nv with entries := [] } }
    s.powered = true ∧ 0 < slotsUsed s ∧ s.nv.entries[0]? = none ∧ (after .replayEntry s).day.state = .closed true := by
  decide +kernel

/-- Content of every table that its load takes, and content that it does not (R3, R95, R133, R178, R1, R2, R77). -/
theorem codeSound : CodeSound (code .cashIn false) :=
  ⟨by decide, by unfold PrintableText; decide, by decide, fun h => (by cases h), fun _ => ⟨rfl, rfl⟩, fun h => (by cases h)⟩
theorem formSound : FormSound 14 form14 := by
  refine ⟨by decide, ?_, ?_, ?_, fun c h => (by cases h), fun h => (by cases h)⟩
  · intro f h
    simp only [form14, List.mem_cons, List.not_mem_nil, or_false] at h
    rcases h with rfl | rfl | rfl <;>
      exact ⟨by decide, by decide, by decide, by decide, by decide,
        by unfold PrintableText; decide, by decide, by decide, by decide, by decide, by decide, by decide, by decide,
        fun c e => by cases e⟩
  · decide
  · decide
theorem layoutSound : LayoutSound ⟨30, 8, 15, 0, 10, 20, 12, 34, 14, 50⟩ := by unfold LayoutSound; decide +kernel
theorem currencySound : CurrencySound State.reset 0 ⟨txt ['A','A','A'], 2, 5⟩ := by
  refine ⟨by decide, by decide, by decide, by decide, by decide, fun d f _ h => ?_⟩
  have k : ∀ d, rd State.reset.tables.currencies d = none := by decide +kernel
  rw [k d] at h
  cases h
theorem sound_notFaulty {α : Type} {p : α → Prop} {e : α} (h : p e) : ¬Faulty p (.define e) := by
  rintro (k | ⟨_, k, n⟩)
  · cases k
  · cases k
    exact n h
theorem witness_AcceptedLoadsReplaceEntry_refused :
    ¬Faulty CodeSound (.define (code .cashIn false)) ∧ ¬Faulty (FormSound 14) (.define form14) ∧
      ¬Faulty LayoutSound (.define ⟨30, 8, 15, 0, 10, 20, 12, 34, 14, 50⟩) ∧ Faulty CodeSound .incomplete ∧
      Faulty LayoutSound (.define ⟨41, 8, 15, 0, 10, 20, 12, 34, 14, 50⟩) ∧ Faulty ParamsSound (.define ⟨9, 30, 20, 5, 60⟩) ∧
      (rd (typing .clear).screens 9).form = some 14 ∧ rd (withBook .held none).queues 0 ≠ [] ∧
      [said (.postingCodesLoad ⟨0, 1⟩ 256 .clear) branch, said (.postingCodesLoad ⟨0, 1⟩ 255 .incomplete) branch,
        said (.formFieldsLoad ⟨0, 1⟩ 14 (.define form14)) (typing .clear), said (.formTextLoad ⟨0, 1⟩ 225 .clear) (typing .clear),
        said (.formTextLoad ⟨0, 1⟩ 224 .clear) branch,
        said (.bookLayoutsLoad ⟨0, 1⟩ 0 .clear) (withBook .held none), said (.parametersLoad ⟨0, 1⟩ 1 .clear) branch] =
        [.badIndex, .malformed, .inUse, .inUse, .badIndex, .printersBusy, .badIndex].map fun st => [.reply st .none] := by
  refine ⟨sound_notFaulty codeSound, sound_notFaulty formSound, sound_notFaulty layoutSound, Or.inl rfl,
    Or.inr ⟨_, rfl, fun h => absurd h.2.1 (by decide)⟩, Or.inr ⟨_, rfl, fun h => absurd h.1 (by decide)⟩, by decide +kernel,
    by decide +kernel, by decide +kernel⟩
theorem witness_ConditionalLoadsKeepTheirTerms_refused :
    ¬Faulty (CurrencySound State.reset 0) (.define ⟨txt ['A','A','A'], 2, 5⟩) ∧
      Faulty (CurrencySound State.reset 0) (.define ⟨txt ['A','A'], 2, 5⟩) ∧ ¬Faulty RateSound (.define ⟨5, 5⟩) ∧
      Faulty RateSound (.define ⟨6, 5⟩) ∧ ¬Faulty (PositionSound 0) (.define ⟨.leader, 0, some 1, 100⟩) ∧
      Faulty (PositionSound 0) (.define ⟨.member, 0, some 1, 100⟩) ∧
      [said (.currenciesLoad ⟨0, 1⟩ 8 .clear) branch, said (.currenciesLoad ⟨0, 1⟩ 0 .incomplete) closed,
        said (.ratesLoad ⟨0, 1⟩ 0 .clear) branch, said (.ratesLoad ⟨0, 1⟩ 1 (.define ⟨6, 5⟩)) branch,
        said (.positionsLoad ⟨0, 1⟩ 16 .clear) branch] =
        [.badIndex, .malformed, .badIndex, .malformed, .badIndex].map (fun st => [.reply st .none]) ∧
      rd (after (.ratesLoad ⟨0, 1⟩ 1 (.define ⟨6, 5⟩)) branch).tables.serials 1 = 7 := by
  refine ⟨sound_notFaulty currencySound, Or.inr ⟨_, rfl, fun h => absurd h.1 (by decide)⟩,
    sound_notFaulty ⟨by decide, by decide, by decide⟩, Or.inr ⟨_, rfl, fun h => absurd h.2.2 (by decide)⟩,
    sound_notFaulty ⟨by decide, fun a h => by cases h; decide, by decide, fun _ => rfl⟩,
    Or.inr ⟨_, rfl, fun h => absurd (h.2.2.2 rfl) (by decide)⟩, by decide +kernel, by decide +kernel⟩

/-- R126: a line of a name too short is MALFORMED; a good body fails the third check at position 16. -/
theorem witness_BookLinesAreJournaledAndKept_refused :
    (∀ l ∈ twoLines, LineSound l) ∧ ¬LineSound ⟨20260302, [0x41], 5, 2, none⟩ ∧
      FirstFails [ (branch.day.state = .opened ∨ branch.day.state = .cutoff, .dayState), (branch.clock.isSet = true, .clockUnset),
        ((16 : Nat) < 16, .badPosition), ((2 : Nat) ≤ 16128, .journalFull) ] .badPosition ∧
      [said (.bookLines ⟨2, 1⟩ .incomplete) branch, said (.bookLines ⟨2, 1⟩ (.full [] 1 twoLines)) branch,
        said (.bookLines ⟨2, 1⟩ (.full [1] 1 [⟨20260302, [0x41], 5, 2, none⟩])) branch,
        said (.bookLines ⟨16, 1⟩ (.full [1] 1 twoLines)) branch, said (.bookLines ⟨2, 1⟩ (.full [1] 1 twoLines)) full] =
        [.malformed, .malformed, .malformed, .badPosition, .journalFull].map fun st => [.reply st .none] := by
  refine ⟨?_, fun h => absurd h.2.1 (by decide), firstFails_later (Or.inl rfl) (firstFails_later rfl (firstFails_here (by decide))),
    by decide +kernel⟩
  intro l h
  simp only [twoLines, List.mem_cons, List.not_mem_nil, or_false] at h
  rcases h with rfl | rfl
  · exact ⟨by decide, by decide, by unfold PrintableText; decide, by decide, by decide, fun v e => by cases e⟩
  · exact ⟨by decide, by decide, by unfold PrintableText; decide, by decide, by decide, fun v e => by cases e; decide⟩

/-- R25, R26, R28: a key with the clock unset, a key and a request without room, a member, a leader whose group balances. -/
def unset (s : State) : State := { s with clock := ⟨0, false, 0⟩ }
def filled (s : State) : State := { s with nv := full.nv }
theorem witness_SingleBalanceCaptures_refused :
    ¬Trading (unset (withKey .balance)) ∧ Trading (filled (withKey .balance)) ∧ Acts (filled (withKey .balance)) 6 .balance ∧
      16256 < slotsUsed (filled (withKey .balance)) + (midnightBodies (filled (withKey .balance))).length + 4 ∧
      (after (.balance 6) (unset (withKey .balance))).out = [.tone 6] ∧
      (after (.balance 6) (unset (withKey .balance))).screens = (withKey .balance).screens ∧
      (after (.balance 6) (filled (withKey .balance))).out = [.tone 6] ∧
      rd (rd (rd (after (.balance 6) (filled (withKey .balance))).screens 6).ring 0) 0 = ⟨0x4A, .bright⟩ ∧
      [said (.positionControlBalance ⟨6, 1⟩ (some .final)) (unset branch), said (.positionControlBalance ⟨16, 1⟩ (some .final)) branch,
        said (.positionControlBalance ⟨6, 1⟩ (some .final)) branch,
        said (.positionControlBalance ⟨6, 1⟩ (some .final)) (filled (withKey .clear))] =
        [.clockUnset, .badPosition, .positionState, .journalFull].map fun st => [.reply st .none] :=
  ⟨fun h => absurd h.2 (by decide), ⟨Or.inl rfl, rfl⟩, Or.inl rfl, by decide +kernel, by decide +kernel, by decide +kernel,
    by decide +kernel, by decide +kernel, by decide +kernel⟩
theorem witness_GroupBalanceCapturesGroup_refused :
    let s := (withKey .groupClose).updPos 7 fun r => { r with state := .balancing }
    let m := place 7 .ready (some 14) [.groupBalance] [] branch
    Trading s ∧ Acts s 6 .groupClose ∧ 7 ∈ groupOf s.tables.positions 6 ∧ isLeader m.tables.positions 7 = false ∧
      rd (rd (rd (after (.groupClose 6) s).screens 6).ring 0) 0 = ⟨0x4D, .bright⟩ ∧ (after (.groupClose 6) s).out = [.tone 6] ∧
      (after (.groupBalance 7) m).out = [.tone 7] ∧ (after (.groupBalance 7) m).screens = m.screens ∧
      16256 < slotsUsed (filled (withKey .groupBalance)) +
        ((groupBodies .interim 6 (filled (withKey .groupBalance))).map kindSlots).sum ∧
      [said (.positionControlGroupBalance ⟨6, 1⟩ (some .final)) (unset branch),
        said (.positionControlGroupBalance ⟨16, 1⟩ (some .final)) branch,
        said (.positionControlGroupBalance ⟨7, 1⟩ (some .final)) branch, said (.positionControlGroupBalance ⟨6, 1⟩ (some .final)) s,
        said (.positionControlGroupBalance ⟨6, 1⟩ (some .final)) (filled branch)] =
        [.clockUnset, .badPosition, .notLeader, .memberBalancing, .journalFull].map fun st => [.reply st .none] :=
  ⟨⟨Or.inl rfl, rfl⟩, Or.inl rfl, by decide +kernel, by decide +kernel, by decide +kernel, by decide +kernel, by decide +kernel,
    by decide +kernel, by decide +kernel, by decide +kernel⟩
/-- R30: a count of 101 with a cash unit of 5 fails the second check of slot 0; one of 100 without room is JOURNAL_FULL. -/
def oddCount : State := (balancing .final).updKeys 6 fun k => { k with values := [txt ['1','0','1']] }
theorem witness_DeclarationEndsBalance_refused :
    CountsIn oddCount form1 0 ⟨txt ['A','A','A'], 2, 5⟩ 0 ∧
      FirstFails (countChecks oddCount 6 .final 0 ⟨txt ['A','A','A'], 2, 5⟩ (digitsValue (fieldValue oddCount 6 0))) .notCashable ∧
      (after (.transmit 6) oddCount).out = [.tone 6] ∧ (after (.transmit 6) oddCount).nv = branch.nv ∧
      rd (rd (rd (after (.transmit 6) oddCount).screens 6).ring 0) 0 = ⟨0x4E, .bright⟩ ∧
      16256 < slotsUsed (filled (balancing .final)) + 4 ∧
      rd (rd (rd (after (.transmit 6) (filled (balancing .final))).screens 6).ring 0) 0 = ⟨0x4A, .bright⟩ := by
  refine ⟨⟨by decide +kernel, ⟨_, rfl, rfl⟩, fun j f h => absurd h (Nat.not_lt_zero j)⟩, ?_, by decide +kernel, by decide +kernel,
    by decide +kernel, by decide +kernel, by decide +kernel⟩
  exact firstFails_later (by decide +kernel) (firstFails_here (by decide +kernel))
theorem witness_DeclarationEndsBalance_checked :
    ∀ c cur i st, CountsIn (balancing .final) form1 c cur i →
      ¬FirstFails (countChecks (balancing .final) 6 .final c cur (digitsValue (fieldValue (balancing .final) 6 i))) st := by
  rintro c cur i st ⟨hc, ⟨f, hf, hr⟩, _⟩
  match i with
  | i + 1 => simp [form1] at hf
  | 0 =>
    cases hf
    have e : c = 0 := Fin.ext (FieldRole.count.inj hr).symm
    subst e
    have k : rd (balancing .final).tables.currencies 0 = some ⟨txt ['A','A','A'], 2, 5⟩ := by decide +kernel
    cases k.symm.trans hc
    refine noneFails ?_ st
    simp only [countChecks, List.forall_mem_cons]
    exact ⟨by decide +kernel, by decide +kernel, fun _ => by decide +kernel, fun _ => by decide +kernel, fun _ h => absurd rfl h,
      fun _ h => absurd rfl h, fun x h => (by cases h)⟩
theorem witness_CutoffIsEntered_closed :
    Takes closed ∧ closed.day.state ≠ .opened ∧ said (.closeDay ⟨255, 1⟩) closed = [.reply .dayState .none] :=
  ⟨takes_of _ (by decide) (by decide), by decide, by decide +kernel⟩
/-- R48: the flag clear and slots used passing 15,872, ONLINE. -/
theorem witness_LowSpaceTold :
    let s := { branch with nv := { branch.nv with control := ⟨⟨20260302, some .opened, 15871, 3, 0, true⟩, 0⟩ } }
    let t := after (.post ⟨3, 77⟩ buy) s
    s.jc.lowSpace = false ∧ t.jc.lowSpace = true ∧
      t.line.outbound = [⟨255, 0, .report (.journalLow 15873 4 20260302)⟩, ⟨3, 77, .reply .accepted .none⟩] ∧
      (after (.post ⟨3, 77⟩ buy) t).line.outbound.length = 3 ∧
      (after (.post ⟨3, 77⟩ buy) branch).jc.lowSpace = false := by decide +kernel
/-- R52: the journal's answer of an OPEN day carries the undelivered mark of the control record. -/
theorem witness_QueriesChangeNothing_mark :
    said (.journalStatusQuery ⟨255, 1⟩ 0) branch =
      [.reply .accepted (.query 12 0 false (.journal ⟨some 20260302, .opened, true, 0, 0, 1, 0, 0, false, false, false⟩))] := by
  decide +kernel
/-- R170: a SEND FORWARD that returns the line in CLOSING, the notice first: the DAY batch has started and its BLOCK stands
before the REPLY. -/
theorem witness_SendStartsOrResumesBatch_forwardFirst :
    let s := standInOf { journaled (entryOf .standIn .pending .none) with day := ⟨.closing, some 20260302, none, false, []⟩ }
    (after (.sendForward ⟨⟨255, 1⟩, true⟩ .forward) s).engine.state = .active ∧
      (after (.sendForward ⟨⟨255, 1⟩, true⟩ .forward) s).line.outbound.map (·.tag) = [0, 1] ∧
      (after (.sendForward ⟨⟨255, 1⟩, false⟩ .forward) s).engine.state = .idle ∧
      (after (.sendForward ⟨⟨255, 1⟩, true⟩ .noKnownKind) s).line.outbound.map (·.tag) = [0, 1] := by decide +kernel
theorem witness_PositionRequestsChangeState_refused :
    [said (.signOn ⟨16, 1⟩ (.request none)) branch, said (.unlock ⟨255, 1⟩) branch, said (.forceSignOff ⟨16, 1⟩) branch,
      said (.signOn ⟨16, 1⟩ .noKnownRequest) branch] =
      [.badPosition, .badPosition, .badPosition, .malformed].map fun st => [.reply st .none] := by decide +kernel
/-- R110: a token that waits in AWAITING, one discarded on form 14 and one on form 0 of a SIGNED_OFF position; and R115: CLEAR
of a form with nothing but a protected field. -/
def labelOnly : FormDesc := ⟨[labelField], false, none⟩
def onLabel : State :=
  { place 9 .ready (some 31) [.clear] [[]] branch with tables := { tables with forms := wr tables.forms 31 (some labelOnly) } }
theorem witness_EditorEditsCursorField_taken :
    let waits := place 9 .awaiting (some 14) [.clear] [] branch
    (rd (after (takeOf 9 .clear) waits).keys 9) = rd waits.keys 9 ∧ (after (takeOf 9 .clear) waits).out = [] ∧
      (after (takeOf 9 .clear) (place 9 .signedOff (some 14) [.clear] [] branch)).out = [.tone 9] ∧
      (after (takeOf 9 .attention) (place 9 .signedOff (some 0) [.attention] [] branch)).out = [.tone 9] ∧
      (rd onLabel.screens 9).form = some 31 ∧ rd onLabel.tables.forms 31 = some labelOnly ∧
      (rd onLabel.keys 9).values.length = labelOnly.fields.length ∧ firstUnprotected labelOnly.fields = none ∧
      (rd (after (.clear 9) onLabel).keys 9).values = [presetValue labelField] ∧
      rd (rd (rd (after (.clear 9) onLabel).screens 9).area 3) 10 = { rd (rd (rd onLabel.screens 9).area 3) 10 with ch := 0x44 } := by
  decide +kernel
/-- R116: an empty mandatory AMOUNT; form 1 from READY; a sign-on in STAND_IN; no form. -/
theorem witness_TransmitSendsOrStandsIn_refused :
    let empty := (typing .transmit).updKeys 9 fun k => { k with values := [[], [], []], cursorField := some 1, textPos := 4 }
    let one := place 9 .ready (some 1) [.transmit] [txt ['5']] branch
    let off := standInOf (place 9 .signedOff (some 0) [.transmit] [List.replicate 6 0x31] branch)
    let bare := place 9 .ready none [.transmit] [] branch
    form14.fields[0]? = some amountField ∧ amountField.mandatory = true ∧ isFilled amountField (fieldValue empty 9 0) = false ∧
      (rd (after (.transmit 9) empty).keys 9).cursorField = some 0 ∧ (after (.transmit 9) empty).out = [.tone 9] ∧
      (after (.transmit 9) one).out = [.tone 9] ∧ (after (.transmit 9) one).line = one.line ∧
      Acts off 9 .transmit ∧ (after (.transmit 9) off).out = [.tone 9] ∧
      rd (rd (rd (after (.transmit 9) off).screens 9).ring 0) 0 = ⟨0x54, .bright⟩ ∧
      (rd (after (.transmit 9) off).posns 9).entryNo = (rd off.posns 9).entryNo ∧ (after (.transmit 9) bare).out = [.tone 9] :=
  ⟨rfl, rfl, by decide +kernel, by decide +kernel, by decide +kernel, by decide +kernel, by decide +kernel,
    Or.inr (Or.inr ⟨by decide +kernel, by decide +kernel, rfl⟩), by decide +kernel, by decide +kernel, by decide +kernel,
    by decide +kernel⟩
/-- Section 10.6: the refused item shows OVER_LIMIT with the cursor in the AMOUNT field; the accepted one shows ACCEPTED on a
form back at its presets; and with an ACCOUNT field, a passbook line marked stand-in, STORED, with its job. -/
def form23 : FormDesc := ⟨form22.fields ++ [⟨3, 10, .text, 10, 0, .normal, false, false, true, [], .account⟩], true, none⟩
def standInBook : State :=
  let s := standInTeller ['1','0'] ['0'] ['4','0','0','0','0'] 0 30
  { s.updKeys 6 fun k => { k with values := k.values ++ [txt ['4','4','5','5',' ',' ',' ',' ',' ',' ']] } with
    tables := { tables with forms := wr tables.forms 22 (some form23) } }
theorem witness_TransmitSendsOrStandsIn_accepted :
    let t := after (.transmit 6) standInBook
    (rd (after (.transmit 6) overLimit).keys 6).cursorField = some 2 ∧
      rd (rd (rd (after (.transmit 6) overLimit).screens 6).ring 0) 0 = ⟨0x4F, .bright⟩ ∧
      rd (rd (rd t.screens 6).ring 0) 0 = ⟨0x41, .bright⟩ ∧ rd (rd (rd t.screens 6).ring 0) 9 = ⟨0x31, .bright⟩ ∧
      (rd standInBook.keys 6).values.length = form23.fields.length ∧
      (rd t.keys 6).values = form23.fields.map presetValue ∧ (rd t.keys 6).cursorField = some 0 ∧
      (accountLines [4, 4, 5, 5] t).map (fun l => (l.amount, l.balance, l.standIn, l.source)) = [(-40000, none, true, 1)] ∧
      t.nv.entries.map (·.print) = [.stored] ∧ rd t.queues 0 = [⟨[4, 4, 5, 5], 6⟩] ∧ t.line = standInBook.line := by
  decide +kernel
/-- R130: the head job of a printer that ejects a book of no job goes at once, without a report. -/
theorem witness_BookKeysPlaceAndCancelJobs_ejecting :
    let s := bookKey .cancelBook [⟨[4, 4, 5, 5], 2⟩] .ejecting
    (rd s.printers 0).ejectJob = false ∧ rd (after (.cancelBook 2) s).queues 0 = [] ∧
      (rd (after (.cancelBook 2) s).printers 0).state = .ejecting ∧ (after (.cancelBook 2) s).line = s.line := by decide +kernel
/-- R136, R144: page 0 is an unreadable stripe; events out of their states are ignored. -/
theorem witness_StripeIsJudged_ignored :
    (rd (after (.stripeData 0 ⟨[4, 4, 5, 5], 1, 0, 7⟩) (withBook .reading none)).printers 0).reason = some .unreadable ∧
      (rd (withBook .held none).printers 0).state ≠ .reading ∧
      ([Instr.homeDone 0, .stripeData 0 ⟨[4, 4, 5, 5], 1, 3, 7⟩, .stripeFail 0, .lineDone 0, .stripeWritten 0, .stripeWriteFail 0,
        .ejectDone 0, .bookIn 0].all fun c => let t := after c (withBook .held none)
        decide (t.printers = (withBook .held none).printers) && decide (t.queues = (withBook .held none).queues) &&
          decide (t.store = (withBook .held none).store) && decide (t.out = [])) = true := by
  decide +kernel
/-- R104, R105: a window row whose cells differ is marked by REVIEW_UP. -/
theorem witness_StationEventsMoveRows_window :
    let s := branch.updScreen 3 fun sc => { sc with dirty := [], newest := 5, ring := wr sc.ring 5 (Vector.replicate 80 ⟨0x41, .normal⟩) }
    (rd s.screens 3).windowLine 3 ≠ (rd (after (.reviewUp 3) s).screens 3).windowLine 3 ∧
      (rd (after (.reviewUp 3) s).screens 3).dirty = [0, 19] := by decide +kernel
/-- R107: a READY position without a form is cleared, one with a form shown again. -/
theorem witness_RestartRepaintsAndKeeps_cells :
    let t := after (.restart ⟨⟨255, 1⟩, false⟩) (typing .clear)
    (rd t.screens 9).form = some 14 ∧ rd (rd (rd t.screens 9).area 3) 10 = ⟨0x44, .normal, true⟩ ∧
      (rd t.keys 9).values = form14.fields.map presetValue ∧ (rd t.screens 3).form = some 0 ∧
      (rd (after (.restart ⟨⟨255, 1⟩, false⟩) State.reset).screens 3).form = none := by decide +kernel

/-! ### Invariants: the branch of the tests, and the state after a command, meet them -/

/-- A book on printer 0 with its job, the account marked. -/
def printing : State := withBook .printing none
theorem printing_oneJobEach : OneJobEach printing := by
  intro a
  have q : (allPrn.flatMap fun n => rd printing.queues n) = [⟨[4, 4, 5, 5], 2⟩] := by decide +kernel
  by_cases h : a = [4, 4, 5, 5]
  · subst h
    decide +kernel
  · have n : (([4, 4, 5, 5] : Account) == a) = false := beq_false_of_ne fun e => h e.symm
    have m : jobMarked a printing = false := by
      show (([⟨[4, 4, 5, 5], some 1, [line900], true⟩] : List AccountRec).find? fun r => r.account == a).any (·.jobMark) = false
      rw [List.find?_cons_of_neg (by simp [n])]
      rfl
    rw [q, m]
    simp [n]
theorem printing_slotsBounded : SlotsBounded printing := by
  have c : ∀ k, cutMemory k false printing = (cutMemory 0 false printing) := by
    intro k
    have e : printing.nvLog = [] := rfl
    rw [cutMemory, cutMemory, e, List.take_nil, List.take_nil, List.getElem?_nil, List.getElem?_nil]
  refine ⟨fun _ => by decide +kernel, fun _ => by decide +kernel, fun _ _ => by decide +kernel, fun k _ => ?_,
    fun h => absurd h (by decide), fun _ => rfl, fun p h => absurd (?_ : (rd printing.drawers p).ctx = none) h⟩
  · rw [c k]
    exact fun _ => by decide +kernel
  · revert p
    decide +kernel
theorem witness_StepKeepsBounds : WithinBounds printing ∧ RestsOutsideTrading printing := by
  have k : ∀ n : Fin 32, ∀ d ∈ rd printing.tables.forms n, formOk n.val d = true := by decide +kernel
  exact ⟨⟨by decide, by decide +kernel, by decide +kernel, by decide, by decide, by decide, by decide +kernel,
    fun n d h => k n d (by rw [h]; rfl), ⟨by decide, by decide, by decide, by decide⟩, printing_oneJobEach,
    printing_slotsBounded⟩, ⟨fun h => absurd rfl h, by decide +kernel, by intro h; exact absurd h (by decide +kernel)⟩⟩
theorem witness_StepKeepsWindow : WindowHeld flightEntry := windowHeld_transferring (by decide) _ _ _
theorem witness_StepKeepsRestOutsideTrading : RestsOutsideTrading (withBook .printing none) :=
  ⟨fun h => absurd rfl h, by decide +kernel, by intro h; exact absurd h (by decide +kernel)⟩
theorem flightEntry_pending : PendingIsStandIn flightEntry.nv := by
  intro e h _
  have e' : flightEntry.nv.entries = [entryOf .standIn .pending .none] := rfl
  rw [e', List.mem_singleton] at h
  subst h
  exact ⟨postingOf .standIn, rfl, rfl⟩
theorem witness_StepKeepsForwardLaw : ForwardLaw flightEntry := by
  refine ⟨flightEntry_pending, fun k e h => ?_⟩
  have c : (cutMemory k false flightEntry).entries = [] := by
    have : flightEntry.nvLog = [] := rfl
    rw [cutMemory, this, List.take_nil]
    rfl
  rw [c] at h
  exact absurd h List.not_mem_nil

end Sys2Proof.Tests
end

/-! SUPPORT and CERTIFICATES. The posting arithmetic (Section 1) and the tables it reads: what a load takes and leaves, what
RECOVERING answers, the conversion and the rounding, the checks of Table 1-1, POST and TRANSMIT. -/

namespace Sys2Proof.Machine

/-! ## Places of a table named by a number -/

theorem rd_updN {α : Type} {n : Nat} (v : Vector α n) (i j : Fin n) (f : α → α) :
    rd (updN v i.val f) j = if j = i then f (rd v j) else rd v j := by
  simp only [updN, i.isLt, dite_true, rd_upd]
  split
  · next h => rw [h]
  · rfl

/-! ## What a load takes -/

/-- The check of a load's content fails exactly for faulty content, when it decides what its table takes. -/
theorem bad_iff_faulty {α : Type} {ok : α → Bool} {sound : α → Prop} (h : ∀ e, ok e = true ↔ sound e) (c : Content α) :
    Content.bad ok c = true ↔ Faulty sound c := by
  cases c with
  | clear => simp [Content.bad, Faulty]
  | incomplete => simp [Content.bad, Faulty]
  | define e => simp [Content.bad, Faulty, ← h]

theorem allPrintable_iff (bs : List Byte) : allPrintable bs = true ↔ PrintableText bs := by
  simp [allPrintable, isPrintable, PrintableText]

theorem codeOk_iff (e : CodeEntry) : codeOk e = true ↔ CodeSound e := by
  obtain ⟨name, cls, line, dir, book, si, lim⟩ := e
  cases cls <;> cases line <;> cases dir <;> simp [codeOk, CodeSound, allPrintable_iff, and_assoc]

theorem rateOk_iff (e : RateEntry) : rateOk e = true ↔ RateSound e := by
  simp only [rateOk, RateSound, Bool.and_eq_true, Bool.or_eq_true, decide_eq_true_eq, beq_iff_eq, and_assoc, or_assoc]
  rfl

theorem paramsOk_iff (e : Params) : paramsOk e = true ↔ ParamsSound e := by
  simp [paramsOk, ParamsSound, and_assoc]

theorem positionOk_iff (p : Pos) (e : PositionEntry) : positionOk p.val e = true ↔ PositionSound p e := by
  have z : p.val = 0 ↔ p = 0 := Fin.val_eq_zero_iff
  simp only [positionOk, PositionSound, Bool.and_eq_true, Bool.or_eq_true, decide_eq_true_eq, beq_iff_eq, bne_iff_ne, ne_eq,
    and_assoc, z, Option.all_eq_true, ← imp_iff_not_or]
  rfl

theorem currencyOk_iff (s : State) (i : Fin 8) (e : CurrencyEntry) : currencyOk s i.val e = true ↔ CurrencySound s i e := by
  simp [currencyOk, CurrencySound, and_assoc, or_iff_not_imp_left, ← Fin.ext_iff, Option.all_eq_true]
  exact fun _ _ _ _ _ => forall_congr' fun _ => forall_comm

theorem allApart_iff (l : List (Nat × Nat)) :
    allApart l = true ↔ l.Pairwise fun i j => i.1 + i.2 ≤ j.1 ∨ j.1 + j.2 ≤ i.1 := by
  induction l with
  | nil => simp [allApart]
  | cons a l ih => simp [allApart, apart, ih, List.pairwise_cons]

/-- The columns of the five items of a layout follow from its widths and their ends, so that R133's column ranges add
nothing to the 80 columns. -/
theorem layoutOk_iff (y : Layout) : layoutOk y = true ↔ LayoutSound y := by
  simp only [layoutOk, LayoutSound, allApart_iff, Bool.and_eq_true, decide_eq_true_eq, List.forall_mem_cons]
  constructor
  · rintro ⟨h, hp⟩
    exact ⟨by omega, by omega, by omega, by omega, by omega, by omega, by omega, by omega, by omega,
      ⟨by omega, by omega, by omega, by omega, by omega, by simp⟩, hp⟩
  · rintro ⟨h1, h2, h3, h4, h5, h6, h7, h8, h9, ⟨h10, h11, h12, h13, h14, -⟩, hp⟩
    exact ⟨by omega, hp⟩

/-! ### Forms -/

/-- A field's checks that look at the field alone are those of R94 and R95. -/
theorem fieldOk_iff (form : Nat) (f : FieldDesc) : fieldOk form f = true ↔ FieldSound form f := by
  obtain ⟨row, col, kind, length, decimals, attr, prot, mandatory, sent, preset, role⟩ := f
  cases kind <;> cases role <;>
    simp [fieldOk, FieldSound, allPrintable_iff, isDigit, and_assoc, or_iff_not_imp_left]

/-- Each field before the next one is each field before all that follow it. -/
theorem fieldsOrdered_iff (l : List FieldDesc) :
    fieldsOrdered l = true ↔ l.Pairwise fun f g => f.row < g.row ∨ (f.row = g.row ∧ f.col + fieldWidth f ≤ g.col) := by
  induction l with
  | nil => simp [fieldsOrdered]
  | cons f l ih =>
    cases l with
    | nil => simp [fieldsOrdered]
    | cons g l =>
      simp only [fieldsOrdered, Bool.and_eq_true, ih, List.pairwise_cons (a := f), List.forall_mem_cons, Bool.or_eq_true,
        decide_eq_true_eq, beq_iff_eq]
      constructor
      · rintro ⟨h, hl⟩
        refine ⟨⟨h, fun x hx => ?_⟩, hl⟩
        have := (List.pairwise_cons.1 hl).1 x hx
        omega
      · rintro ⟨⟨h, -⟩, hl⟩
        exact ⟨h, hl⟩

theorem rolesOnce_iff (l : List FieldDesc) :
    rolesOnce l = true ↔ l.Pairwise fun f g => f.role = .none ∨ f.role ≠ g.role := by
  induction l with
  | nil => simp [rolesOnce]
  | cons f l ih =>
    simp only [rolesOnce, List.pairwise_cons, ← ih, Bool.and_eq_true, Bool.or_eq_true, beq_iff_eq, List.all_eq_true,
      bne_iff_ne]
    refine and_congr_left fun _ => ⟨fun h g hg => h.imp id fun h => (h g hg).symm, fun h => ?_⟩
    by_cases r : f.role = .none
    · exact Or.inl r
    · exact Or.inr fun g hg => ((h g hg).resolve_left r).symm

theorem hasRole_iff (fs : List FieldDesc) (r : FieldRole) : hasRole fs r = true ↔ ∃ f ∈ fs, f.role = r := by
  simp [hasRole]

theorem formOk_iff (form : Nat) (d : FormDesc) : formOk form d = true ↔ FormSound form d := by
  have code : hasRole d.fields .code = true ↔ ∃ f ∈ d.fields, f.role = .code := hasRole_iff ..
  simp only [formOk, FormSound, Bool.and_eq_true, decide_eq_true_eq, List.all_eq_true, fieldOk_iff, fieldsOrdered_iff,
    rolesOnce_iff, and_assoc, ← code, ← hasRole_iff d.fields .amount]
  refine and_congr_right fun _ => and_congr_right fun _ => and_congr_right fun _ => and_congr_right fun _ => ?_
  cases d.standIn <;> cases d.fixedCode <;> cases hasRole d.fields .code <;> simp [and_assoc]

theorem formInUse_iff (s : State) (n : Nat) : formInUse s n = true ↔ ∃ p f, (rd s.screens p).form = some f ∧ f.val = n := by
  simp [formInUse, allPos, Option.any_eq_true]

theorem printersIdle_iff (s : State) : printersIdle s = true ↔
    ∀ n, ((rd s.printers n).state = .offline ∨ (rd s.printers n).state = .empty) ∧ rd s.queues n = [] := by
  simp [printersIdle, allPrn]

/-! ## What a load leaves -/

theorem answerLoad_error (h : Hdr) (st : Status) (s : State) : answerLoad h (.error st) s = answered h st .none s :=
  reply_eq ..

/-- An accepted load: its table changed and ACCEPTED queued. -/
theorem answerLoad_ok (h : Hdr) (g : Tables → Tables) (s : State) :
    answerLoad h (.ok ((arrived s).updTables g)) (arrived s) =
      { answered h .accepted .none (arrived s) with tables := g s.tables } := by
  simp only [answerLoad, reply_eq, State.updTables, (arrived_frame s).1]
  rfl

section
variable {h : Hdr} {f : State → State} {r : Except Status State} {s : State}

/-- A load whose checks end in a status is answered with it and changes no entry (R175). -/
theorem load_refused (hp : s.powered = true) {st : Status} (hf : f (arrived s) = answerLoad h r (arrived s))
    (hr : r = .error st) : tableMessage f s = .next (answered h st .none (arrived s)) := by
  rw [tableMessage_eq _ hp, hf, hr, answerLoad_error]

/-- A load whose checks all pass changes its table and is answered ACCEPTED (R175). -/
theorem load_accepted (hp : s.powered = true) {g : Tables → Tables} (hf : f (arrived s) = answerLoad h r (arrived s))
    (hr : r = .ok ((arrived s).updTables g)) :
    tableMessage f s = .next { answered h .accepted .none (arrived s) with tables := g s.tables } := by
  rw [tableMessage_eq _ hp, hf, hr, answerLoad_ok]

end

/-! ### What the checks of a load see when its message arrives -/

/-- The arrival of a message changes the ring, the review offset and the dirty rows of a screen at most (R151, R153). -/
theorem arrived_screen (s : State) (p : Pos) :
    rd (arrived s).screens p = rd s.screens p ∨
      rd (arrived s).screens p = ((rd s.screens p).partNotice textLineRestored).mark 0 := by
  rw [arrived_eq]
  unfold arrive
  dsimp only
  split
  · exact Or.inl (by simp)
  · exact Or.inr (by simp [lineReturn, markRow0All, noticeAll])

/-- A change seen through the window leaves what the change made, dirty rows aside. -/
@[simp] theorem withWindow_frame (f : Screen → Screen) (sc : Screen) :
    (sc.withWindow f).area = (f sc).area ∧ (sc.withWindow f).form = (f sc).form ∧
    (sc.withWindow f).cursor = (f sc).cursor ∧ (sc.withWindow f).ring = (f sc).ring ∧
    (sc.withWindow f).newest = (f sc).newest ∧ (sc.withWindow f).column = (f sc).column ∧
    (sc.withWindow f).review = (f sc).review ∧ (sc.withWindow f).prompts = (f sc).prompts ∧
    (sc.withWindow f).noPrinter = (f sc).noPrinter ∧ (sc.withWindow f).inFlight = (f sc).inFlight ∧
    (sc.withWindow f).present = (f sc).present := by
  have h := withWindow_same f sc
  simp only [SameButDirty, Screen.mk.injEq] at h
  obtain ⟨h1, h2, h3, h4, h5, h6, h7, h8, h9, -, h10, h11⟩ := h
  exact ⟨h1.symm, h2.symm, h3.symm, h4.symm, h5.symm, h6.symm, h7.symm, h8.symm, h9.symm, h10.symm, h11.symm⟩

/-- A part notice leaves all of a screen but the ring, its newest line and column, the review offset and dirty rows (R103). -/
@[simp] theorem partNotice_frame (x : List Byte) (sc : Screen) :
    (sc.partNotice x).area = sc.area ∧ (sc.partNotice x).form = sc.form ∧ (sc.partNotice x).cursor = sc.cursor ∧
    (sc.partNotice x).prompts = sc.prompts ∧ (sc.partNotice x).noPrinter = sc.noPrinter ∧
    (sc.partNotice x).inFlight = sc.inFlight ∧ (sc.partNotice x).present = sc.present := by
  unfold Screen.partNotice Screen.advanceLine
  dsimp only
  split <;> simp

theorem arrived_form (s : State) (p : Pos) : (rd (arrived s).screens p).form = (rd s.screens p).form := by
  rcases arrived_screen s p with e | e <;> rw [e]
  exact (partNotice_frame ..).2.1

theorem formInUse_arrived (s : State) (n : Nat) :
    formInUse (arrived s) n = true ↔ ∃ p f, (rd s.screens p).form = some f ∧ f.val = n := by
  simp only [formInUse_iff, arrived_form]

theorem printersIdle_arrived (s : State) : printersIdle (arrived s) = printersIdle s := by
  simp [printersIdle]

/-- Settles O22: each load's checks in the order of its rule, and the entry it leaves. -/
theorem acceptedLoadsReplaceEntry : Obligations.AcceptedLoadsReplaceEntry := by
  intro h s hp
  refine ⟨⟨fun n c hn => ?_, fun i c hi => ⟨fun hc => ?_, fun hc => ?_⟩⟩,
    ⟨fun n c hn => ?_, fun i c => ⟨fun hc => ?_, fun hc => ?_⟩⟩,
    ⟨fun n c hn => ?_, fun i c => ⟨fun hc => ?_, fun hc hu => ?_, fun hc hu => ?_⟩⟩,
    ⟨fun n c hn => ?_, fun i c hi => ⟨fun hc => ?_, fun hc hu => ?_, fun hc hu => ?_⟩⟩,
    ⟨fun n c hn => ?_, fun i c => ⟨fun hc => ?_, fun hc hu => ?_, fun hc hu => ?_⟩⟩,
    fun n c hn => ?_, fun c hc => ?_, fun x hx => ?_, ?_⟩
  -- Posting Codes (R3)
  · exact load_refused hp rfl (if_pos (by omega))
  · exact load_refused hp rfl ((if_neg (by omega)).trans (if_pos ((bad_iff_faulty codeOk_iff c).2 hc)))
  · exact ⟨_, load_accepted hp rfl ((if_neg (by omega)).trans (if_neg (mt (bad_iff_faulty codeOk_iff c).1 hc))),
      fun j => rd_updN .., rfl⟩
  -- Limit Classes (R4)
  · exact load_refused hp rfl (if_pos (by omega))
  · exact load_refused hp rfl ((if_neg (by omega)).trans (if_pos ((bad_iff_faulty (fun _ => decide_eq_true_iff) c).2 hc)))
  · exact ⟨_, load_accepted hp rfl ((if_neg (by omega)).trans
      (if_neg (mt (bad_iff_faulty (fun _ => decide_eq_true_iff) c).1 hc))), fun j => rd_updN .., rfl⟩
  -- Form Fields (R95)
  · exact load_refused hp rfl (if_pos (by omega))
  · exact load_refused hp rfl ((if_neg (by omega)).trans (if_pos ((bad_iff_faulty (formOk_iff i.val) c).2 hc)))
  · obtain ⟨p, hu⟩ := hu
    exact load_refused hp rfl ((if_neg (by omega)).trans ((if_neg (mt (bad_iff_faulty (formOk_iff i.val) c).1 hc)).trans
      (if_pos ((formInUse_arrived s _).2 ⟨p, i, hu, rfl⟩))))
  · have free : ¬formInUse (arrived s) i.val = true := fun k => by
      obtain ⟨p, f, hf, e⟩ := (formInUse_arrived s _).1 k
      exact hu ⟨p, hf.trans (congrArg some (Fin.ext e))⟩
    exact ⟨_, load_accepted hp rfl ((if_neg (by omega)).trans
      ((if_neg (mt (bad_iff_faulty (formOk_iff i.val) c).1 hc)).trans (if_neg free))), fun j => rd_updN .., rfl⟩
  -- Form Text (R95)
  · exact load_refused hp rfl (if_pos (by omega))
  · exact load_refused hp rfl ((if_neg (by omega)).trans (if_pos ((bad_iff_faulty (fun _ => decide_eq_true_iff) c).2 hc)))
  · exact load_refused hp rfl ((if_neg (by omega)).trans
      ((if_neg (mt (bad_iff_faulty (fun _ => decide_eq_true_iff) c).1 hc)).trans
        (if_pos ((formInUse_arrived s _).2 hu))))
  · exact ⟨_, load_accepted hp rfl ((if_neg (by omega)).trans
      ((if_neg (mt (bad_iff_faulty (fun _ => decide_eq_true_iff) c).1 hc)).trans
        (if_neg (mt (formInUse_arrived s _).1 hu)))), fun j => rd_updN .., rfl⟩
  -- Book Layouts (R133)
  · exact load_refused hp rfl (if_pos (by omega))
  · exact load_refused hp rfl ((if_neg (by omega)).trans (if_pos ((bad_iff_faulty layoutOk_iff c).2 hc)))
  · exact load_refused hp rfl ((if_neg (by omega)).trans ((if_neg (mt (bad_iff_faulty layoutOk_iff c).1 hc)).trans
      (if_pos (by rw [printersIdle_arrived]; exact Bool.eq_false_iff.2 (mt (printersIdle_iff s).1 hu)))))
  · exact ⟨_, load_accepted hp rfl ((if_neg (by omega)).trans ((if_neg (mt (bad_iff_faulty layoutOk_iff c).1 hc)).trans
      (if_neg (by rw [printersIdle_arrived, (printersIdle_iff s).2 hu]; decide)))), fun j => rd_updN .., rfl⟩
  -- Parameters (R178)
  · exact load_refused hp rfl (if_pos hn)
  · exact load_refused hp rfl ((if_neg (by omega)).trans (if_pos ((bad_iff_faulty paramsOk_iff c).2 hc)))
  · exact load_accepted (g := fun t => { t with params := x }) hp rfl ((if_neg (by omega)).trans
      (if_neg (mt (bad_iff_faulty paramsOk_iff _).1 (by simp [Faulty, hx]))))
  · exact load_accepted (g := fun t => { t with params := Params.initial }) hp rfl rfl

/-! ### The loads with conditions of their own -/

/-- A Currencies load outside CLOSED (R1); RECOVERING is such a state too. -/
theorem currenciesLoad_notClosed {h : Hdr} {i : Nat} {c : Content CurrencyEntry} {s : State} (hp : s.powered = true)
    (hi : i < 8) (hd : ∀ u, s.day.state ≠ .closed u) :
    exec (.currenciesLoad h i c) s = .next (answered h .dayState .none (arrived s)) :=
  load_refused hp rfl ((if_neg (not_not_intro hi)).trans (if_pos (by
    simp only [arrived_frame, hd, or_self, not_false_eq_true])))

theorem currencyOk_arrived (s : State) (i : Nat) : currencyOk (arrived s) i = currencyOk s i := by
  funext e; simp [currencyOk]

theorem posOf_val (p : Pos) : posOf p.val = some p := by simp [posOf, p.isLt]

theorem groupBalancing_iff (s : State) (t : Vector (Option PositionEntry) 16) (p : Pos) :
    groupBalancing s t p = true ↔ ∃ q, (rd s.posns q).state = .balancing ∧ q ∈ groupOf t p := by
  simp [groupBalancing, and_comm]

/-- A Positions load of a position, with its checks in R77's order. -/
theorem loadPosition_eq (h : Hdr) (p : Pos) (c : Content PositionEntry) (s : State) :
    loadPosition h p.val c s = answerLoad h
      (if Content.bad (positionOk p.val) c then .error .malformed
       else if (rd s.posns p).state ≠ .signedOff then .error .positionState
       else if isLeader s.tables.positions p ≠ isLeader (wr s.tables.positions p (Content.entry c)) p ∧
           (groupBalancing s s.tables.positions p ∨ groupBalancing s (wr s.tables.positions p (Content.entry c)) p) then
         .error .memberBalancing
       else .ok (s.updTables fun t => { t with positions := wr s.tables.positions p (Content.entry c) })) s := by
  rw [loadPosition, posOf_val]

/-- Settles O23: the day and position conditions of the three loads beside their content's. -/
theorem conditionalLoadsKeepTheirTerms : Obligations.ConditionalLoadsKeepTheirTerms := by
  refine ⟨fun h n s hp => ⟨fun c hn => ?_, fun c hn => ?_, fun c hn => ?_⟩,
    fun h i c s hp => ⟨fun hd => ?_, fun u hd hc => ?_, fun u hd hc => ?_⟩,
    fun h i c s hp hi => ⟨fun hc => ?_, fun hc => ?_⟩,
    fun h p c s hp => ?_⟩
  -- an index outside the table (R175)
  · exact load_refused hp rfl (if_pos (by omega))
  · exact load_refused hp rfl (if_pos (by omega))
  · have none : posOf n = none := dif_neg (by omega)
    exact load_refused (r := .error .badIndex) hp (by rw [loadPosition, none]) rfl
  -- Currencies (R1)
  · exact currenciesLoad_notClosed hp i.isLt hd
  · have closed : (arrived s).day.state = .closed u := by simpa using hd
    exact load_refused hp rfl ((if_neg (by omega)).trans ((if_neg (by rw [closed]; cases u <;> simp)).trans
      (if_pos (by rw [currencyOk_arrived]; exact (bad_iff_faulty (currencyOk_iff s i) c).2 hc))))
  · have closed : (arrived s).day.state = .closed u := by simpa using hd
    exact ⟨_, load_accepted hp rfl ((if_neg (by omega)).trans ((if_neg (by rw [closed]; cases u <;> simp)).trans
      (if_neg (by rw [currencyOk_arrived]; exact mt (bad_iff_faulty (currencyOk_iff s i) c).1 hc)))),
      fun j => rd_updN .., rfl⟩
  -- Rates (R2)
  · exact load_refused hp rfl ((if_neg (by omega)).trans (if_pos ((bad_iff_faulty rateOk_iff c).2 hc)))
  · exact ⟨_, load_accepted hp rfl ((if_neg (by omega)).trans (if_neg (mt (bad_iff_faulty rateOk_iff c).1 hc))),
      fun j => rd_updN .., fun j => rd_updN .., rfl⟩
  -- Positions (R77)
  · intro old new locked sound
    have content : Content.bad (positionOk p.val) c = true ↔ ¬sound :=
      (bad_iff_faulty (positionOk_iff p) c).trans Classical.not_not.symm
    have role : (isLeader (arrived s).tables.positions p ≠
          isLeader (wr (arrived s).tables.positions p (Content.entry c)) p ∧
        (groupBalancing (arrived s) (arrived s).tables.positions p ∨
          groupBalancing (arrived s) (wr (arrived s).tables.positions p (Content.entry c)) p)) ↔ locked := by
      simp only [arrived_frame, groupBalancing_iff, ← exists_or, ← and_or_left]
      exact and_congr_left fun _ => ne_comm
    have state : (rd (arrived s).posns p).state = (rd s.posns p).state := by simp
    refine ⟨fun hs => ?_, fun hs hst => ?_, fun hs hst hl => ?_, fun hs hst hl => ?_⟩
    · exact load_refused hp (loadPosition_eq ..) (if_pos (content.2 hs))
    · exact load_refused hp (loadPosition_eq ..) ((if_neg (mt content.1 (not_not_intro hs))).trans
        (if_pos (by rwa [state])))
    · exact load_refused hp (loadPosition_eq ..) ((if_neg (mt content.1 (not_not_intro hs))).trans
        ((if_neg (by rw [state]; exact not_not_intro hst)).trans (if_pos (role.2 hl))))
    · refine ⟨_, load_accepted hp (loadPosition_eq ..) ((if_neg (mt content.1 (not_not_intro hs))).trans
        ((if_neg (by rw [state]; exact not_not_intro hst)).trans (if_neg (mt role.1 hl)))), fun q => ?_, rfl⟩
      simp only [arrived_frame, rd_wr]

/-! ## RECOVERING -/

/-- Settles O17: every such request is a `message`, which R56 stops on its arrival. -/
theorem recoveringAnswersRequests : Obligations.RecoveringAnswersRequests := by
  intro h s hp hd
  refine ⟨fun c hc => ?_, fun b f => silentMessage_recovering _ hp hd, fun f => silentMessage_recovering _ hp hd,
    event_eq _ hp, fun i c hi => currenciesLoad_notClosed hp hi (by simp [hd])⟩
  have answer := fun f => message_recovering h f hp hd
  rcases hc with ⟨k, hk, rfl⟩ | ⟨b, rfl⟩ | ⟨n, u, rfl⟩ | ⟨b, rfl⟩ | ⟨b, rfl⟩ | ⟨b, rfl⟩ | ⟨b, rfl⟩ | rfl | ⟨n, rfl⟩ |
    ⟨n, rfl⟩ | rfl | ⟨b, rfl⟩ | ⟨f, rfl⟩ | ⟨k, f, rfl⟩ | ⟨b, rfl⟩ | rfl | rfl | ⟨k, rfl⟩ | ⟨k, rfl⟩
  case inl =>
    have unknown : ¬inboundKinds.contains k = true := fun m => hk (List.contains_iff_mem.1 m)
    exact (congrFun (if_neg unknown) s).trans (answer _)
  all_goals
    dsimp only [exec, execPaint, execForm, execNotice, execPost, execBookLines, execOpen, execClose, execSetTime,
      execSetCutoff, execClearCutoff, execForceClose, execSendDay, execSendForward, execSignOn, execForceSignOff, execUnlock,
      execPositionControlBalance, execPositionControlGroupBalance]
    exact answer _

end Sys2Proof.Machine

namespace Sys2Proof.Machine
/-! ## Conversion and cash rounding -/

/-- Settles O25: quotient and remainder say on which side of the half the exact value lies. -/
theorem conversionRoundsHalfToEven : Obligations.ConversionRoundsHalfToEven := by
  intro a r el ef n d q
  have hd : 0 < d := Nat.pow_pos (by decide)
  have hn : d * (n / d) + n % d = n := Nat.div_add_mod n d
  have hr : n % d < d := Nat.mod_lt n hd
  have hq : q = if 2 * (n % d) < d then n / d else if d < 2 * (n % d) then n / d + 1
      else if n / d % 2 = 0 then n / d else n / d + 1 := rfl
  clear_value q n d
  generalize n / d = k at *
  generalize n % d = m at *
  have down : 2 * k * d = 2 * (d * k) := by ring
  have up : 2 * (k + 1) * d = 2 * (d * k) + 2 * d := by ring
  split_ifs at hq <;> subst hq
  · rw [down]; omega
  · rw [up]; omega
  · rw [down]; omega
  · rw [up]; omega

/-- The rounded magnitude is a multiple of the unit, no further from the amount than half the unit; at the half it lies
below (R13). -/
theorem roundMagnitude_spec (m : Nat) {c : Nat} (hc : 0 < c) :
    c ∣ roundMagnitude m c ∧ 2 * m ≤ 2 * roundMagnitude m c + c ∧ 2 * roundMagnitude m c < 2 * m + c := by
  have hm : c * (m / c) + m % c = m := Nat.div_add_mod m c
  have hr : m % c < c := Nat.mod_lt m hc
  have up : (m / c + 1) * c = c * (m / c) + c := by ring
  have down : m / c * c = c * (m / c) := by ring
  unfold roundMagnitude
  dsimp only
  split
  · exact ⟨Dvd.intro_left _ rfl, by rw [up]; omega, by rw [up]; omega⟩
  · exact ⟨Dvd.intro_left _ rfl, by rw [down]; omega, by rw [down]; omega⟩

/-- Settles O26: the magnitude's law, with the amount's sign. -/
theorem cashRoundingTakesNearestMultiple : Obligations.CashRoundingTakesNearestMultiple := by
  intro a c hc
  obtain ⟨hdvd, hlo, hhi⟩ := roundMagnitude_spec a.natAbs hc
  have cast : (c : Int) ∣ (roundMagnitude a.natAbs c : Int) := Int.natCast_dvd_natCast.2 hdvd
  have zero : a = 0 → roundMagnitude a.natAbs c = 0 := by rintro rfl; simp [roundMagnitude]
  unfold cashRound
  split
  · exact ⟨cast, by omega, by omega, by omega, by omega⟩
  · exact ⟨cast.neg_right, by omega, by omega, by omega, by omega⟩

end Sys2Proof.Machine

namespace Sys2Proof.Machine

/-! ## Checks in order -/

/-- The first failing check gives one status. -/
theorem FirstFails.unique {l : List (Prop × Status)} {a b : Status} (h : FirstFails l a) (k : FirstFails l b) : a = b := by
  induction l with
  | nil => exact h.elim
  | cons x l ih =>
    rcases h with ⟨n, rfl⟩ | ⟨y, h⟩ <;> rcases k with ⟨m, rfl⟩ | ⟨z, k⟩
    · rfl
    · exact absurd z n
    · exact absurd y m
    · exact ih h k

/-- An answer follows a list of checks: the status of the first that fails, or a good value when none fails. -/
def Follows {α : Type} (l : List (Prop × Status)) (good : α → Prop) : Except Status α → Prop
  | .error st => FirstFails l st
  | .ok a => (∀ st, ¬FirstFails l st) ∧ good a

section
variable {α : Type} {l : List (Prop × Status)} {good : α → Prop} {r : Except Status α} {c : Prop} {st : Status}

theorem Follows.fails (h : ¬c) : Follows ((c, st) :: l) good (.error st) := Or.inl ⟨h, rfl⟩

theorem Follows.passes (h : c) (k : Follows l good r) : Follows ((c, st) :: l) good r := by
  cases r with
  | error x => exact Or.inr ⟨h, k⟩
  | ok a => exact ⟨fun x f => f.elim (fun f => f.1 h) fun f => k.1 x f.2, k.2⟩

/-- One check of an answer that tests it first. -/
theorem Follows.check {d : Prop} [Decidable d] (hd : d ↔ ¬c) (k : c → Follows l good r) :
    Follows ((c, st) :: l) good (if d then .error st else r) := by
  split
  · next h => exact fails (hd.1 h)
  · next h => exact passes (Classical.not_not.1 (mt hd.2 h)) (k (Classical.not_not.1 (mt hd.2 h)))

/-- A list of checks whose first failure is given is answered with its status. -/
theorem Follows.error (h : Follows l good r) (f : FirstFails l st) : r = .error st := by
  cases r with
  | error x => exact congrArg _ (FirstFails.unique h f)
  | ok a => exact absurd f (h.1 st)

/-- A list of checks none of which fails gives a value. -/
theorem Follows.ok (h : Follows l good r) (f : ∀ st, ¬FirstFails l st) : ∃ a, r = .ok a := by
  cases r with
  | error x => exact absurd h (f x)
  | ok a => exact ⟨a, rfl⟩

end

/-! ## The checks of Table 1-1 -/

/-- What a request that passes Table 1-1 has shown, and the plan made of it (R7, R11, R12, R14). -/
structure Passes (req : PostReq) (pl : Plan) (s : State) (cur : CurrencyEntry) : Prop where
  day : s.day.state = .opened ∨ (req.origin = .online ∧ s.day.state = .cutoff)
  clock : s.clock.isSet = true
  pos : req.pos = pl.pos.val
  code : CodeIs s req.code pl.code
  currency : CurrencyIs s req.slot pl.slot cur
  exchange : pl.code.cls = .exchangeBuy ∨ pl.code.cls = .exchangeSell → pl.slot ≠ 0
  room : fits .business 2 s = true
  exponent : pl.exponent = cur.exponent
  value : pl.value = localValue s pl.code.cls pl.slot cur req.amount
  serial : pl.serial = if pl.slot = 0 then 0 else rd s.tables.serials pl.slot
  legs : pl.legs = formLegs pl.code pl.pos pl.slot req.amount pl.value (localUnit s) (counterpartyOf req pl.pos)

theorem codeEntry_eq_some (s : State) (n : Nat) (e : CodeEntry) : codeEntry s n = some e ↔ CodeIs s n e := by
  unfold codeEntry CodeIs
  by_cases h : n < 256
  · have i (i : Fin 256) : i.val = n ↔ i = ⟨n, h⟩ := by rw [Fin.ext_iff]
    simp only [rdN, h, dite_true, Option.join_some, i, exists_eq_left]
    split
    · next z => simp [z]
    · exact ⟨fun k => ⟨by omega, k⟩, fun k => k.2⟩
  · have i (i : Fin 256) : i.val ≠ n := by omega
    simp [rdN, h, i]

theorem CodeIs.unique {s : State} {n : Nat} {e f : CodeEntry} (h : CodeIs s n e) (k : CodeIs s n f) : e = f :=
  Option.some.inj (((codeEntry_eq_some ..).2 h).symm.trans ((codeEntry_eq_some ..).2 k))

theorem CurrencyIs.unique {s : State} {n : Nat} {c d : Fin 8} {e f : CurrencyEntry} (h : CurrencyIs s n c e)
    (k : CurrencyIs s n d f) : d = c ∧ f = e := by
  obtain ⟨rfl, h⟩ := h
  obtain ⟨e', k⟩ := k
  obtain rfl := Fin.ext e'
  exact ⟨rfl, Option.some.inj (k.symm.trans h)⟩

theorem isExchange_iff (c : PClass) : isExchange c = true ↔ c = .exchangeBuy ∨ c = .exchangeSell := by
  simp [isExchange]

theorem ratesSet_iff (s : State) (c : PClass) (slot : Fin 8) : ratesSet s c slot = true ↔
    (slot ≠ 0 → ∃ r, rd s.tables.rates slot = some r ∧ r.buy ≠ 0 ∧ (c = .exchangeSell → r.sell ≠ 0)) := by
  simp [ratesSet, Option.any_eq_true, or_iff_not_imp_left]

/-- A request whose position, code and slot are known, in the terms of the checks that name them. -/
theorem forall_code {s : State} {n : Nat} {e : CodeEntry} (h : CodeIs s n e) (P : CodeEntry → Prop) :
    (∀ f, CodeIs s n f → P f) ↔ P e :=
  ⟨fun k => k e h, fun k _ hf => h.unique hf ▸ k⟩

theorem forall_codeCurrency {s : State} {n m : Nat} {e : CodeEntry} {c : Fin 8} {cur : CurrencyEntry} (h : CodeIs s n e)
    (k : CurrencyIs s m c cur) (P : CodeEntry → Fin 8 → CurrencyEntry → Prop) :
    (∀ f d g, CodeIs s n f → CurrencyIs s m d g → P f d g) ↔ P e c cur :=
  ⟨fun all => all e c cur h k, fun p f d g hf hg => by
    obtain ⟨rfl, rfl⟩ := k.unique hg
    exact h.unique hf ▸ p⟩

theorem fits_business_iff (s : State) : fits .business 2 s = true ↔ slotsUsed s + (midnightBodies s).length + 2 ≤ 16128 := by
  have m : (midnightBodies s).length = if midnightAhead .business s then 1 else 0 := by
    unfold midnightBodies
    by_cases h : 0 < s.clock.midnights <;> simp [midnightAhead, h]
  rw [m]
  have limit : CapClass.limit .business = 16128 := rfl
  unfold fits
  rw [decide_eq_true_eq, limit]
  omega

theorem counterpartyOf_isSome (req : PostReq) (p : Pos) (hp : req.pos = p.val) :
    counterpartyOf req p ≠ none ↔ ∃ q, req.counterparty = some q ∧ q < 16 ∧ q ≠ req.pos := by
  unfold counterpartyOf
  cases req.counterparty with
  | none => simp
  | some q =>
    by_cases h : q < 16
    · simp [posOf, h, hp, Fin.ext_iff, Option.filter_some]
    · simp [posOf, h]

/-- The checks of Table 1-1 in their order, and what a request that passes them has shown (R7). -/
theorem checkPosting_follows (req : PostReq) (s : State) :
    Follows (postingChecks req s) (fun pl => ∃ cur, Passes req pl s cur) (checkPosting req s) := by
  refine Follows.check (by tauto) fun _ => Follows.check Iff.rfl fun hday => Follows.check (by simp) fun hclock => ?_
  cases hp : posOf req.pos with
  | none => exact Follows.fails fun h => by simp [posOf, h] at hp
  | some p =>
  have pos : req.pos = p.val := by
    unfold posOf at hp
    split at hp
    · cases hp; rfl
    · cases hp
  refine Follows.passes (pos ▸ p.isLt) ?_
  cases he : codeEntry s req.code with
  | none => exact Follows.fails fun ⟨e, h⟩ => by simp [(codeEntry_eq_some ..).2 h] at he
  | some e =>
  have code : CodeIs s req.code e := (codeEntry_eq_some ..).1 he
  refine Follows.passes ⟨e, code⟩ ?_
  dsimp only
  by_cases hs : req.slot < 8
  case neg =>
    rw [dif_neg hs]
    exact Follows.fails fun ⟨c, cur, h, _⟩ => hs (h.1 ▸ c.isLt)
  rw [dif_pos hs]
  cases hc : rd s.tables.currencies ⟨req.slot, hs⟩ with
  | none =>
    refine Follows.fails fun ⟨c, cur, ⟨slot, hcur⟩, _⟩ => ?_
    rw [show (⟨req.slot, hs⟩ : Fin 8) = c from Fin.ext slot.symm, hcur] at hc
    cases hc
  | some cur =>
  have currency : CurrencyIs s req.slot ⟨req.slot, hs⟩ cur := ⟨rfl, hc⟩
  generalize (⟨req.slot, hs⟩ : Fin 8) = slot at *
  have exchange : (∃ c cur, CurrencyIs s req.slot c cur ∧ ∀ e, CodeIs s req.code e →
      (e.cls = .exchangeBuy ∨ e.cls = .exchangeSell) → c ≠ 0) ↔
        (e.cls = .exchangeBuy ∨ e.cls = .exchangeSell → slot ≠ 0) :=
    ⟨fun ⟨c, f, h, k⟩ => by obtain ⟨rfl, rfl⟩ := currency.unique h; exact k e code,
      fun k => ⟨slot, cur, currency, (forall_code code _).2 k⟩⟩
  refine Follows.check (by rw [exchange, isExchange_iff]; tauto) fun hx =>
    Follows.check Iff.rfl fun _ =>
    Follows.check (by rw [forall_codeCurrency code currency, ← ratesSet_iff, Bool.not_eq_true]) fun _ =>
    Follows.check (by rw [forall_codeCurrency code currency]; tauto) fun _ =>
    Follows.check (by rw [forall_code code, ← counterpartyOf_isSome req p pos]; tauto) fun _ =>
    Follows.check (by rw [forall_codeCurrency code currency, Bool.not_eq_true]) fun _ =>
    Follows.check (by rw [← fits_business_iff, Bool.not_eq_true]) fun room => ?_
  exact ⟨fun st h => h, cur, hday, hclock, pos, code, currency, exchange.1 hx, (fits_business_iff s).2 room, rfl, rfl, rfl, rfl⟩

/-- The inversion of the checks: what a request that passes them has shown. -/
theorem checkPosting_ok {req : PostReq} {pl : Plan} {s : State} (h : checkPosting req s = .ok pl) :
    ∃ cur, Passes req pl s cur := by
  have k := checkPosting_follows req s
  rw [h] at k
  exact k.2

/-! ## The legs of Table 1-2 -/

/-- The sum of the legs on the lines the law of R16 speaks of: local cash, exchange and rounding. -/
def localSum (gs : List Leg) : Int :=
  ((gs.filter fun g => g.line = 0 ∨ g.line = 13 ∨ g.line = 14).map fun g => g.amount).sum

@[simp] theorem localSum_nil : localSum [] = 0 := rfl

@[simp] theorem localSum_cons (g : Leg) (gs : List Leg) :
    localSum (g :: gs) = (if g.line = 0 ∨ g.line = 13 ∨ g.line = 14 then g.amount else 0) + localSum gs := by
  unfold localSum
  by_cases h : g.line = 0 ∨ g.line = 13 ∨ g.line = 14 <;> simp [h]

@[simp] theorem localSum_append (gs hs : List Leg) : localSum (gs ++ hs) = localSum gs + localSum hs := by
  simp [localSum]

/-- The rounding leg carries the whole rounding difference: one of 0 is left out (R15). -/
@[simp] theorem localSum_roundingLeg (p : Pos) (d : Int) : localSum (roundingLeg p d) = d := by
  unfold roundingLeg
  split
  · next h => simp [h]
  · simp

/-- The cash of a foreign slot is no local-currency line (R21). -/
theorem cashLine_foreign {c : Fin 8} (h : c ≠ 0) : ¬(cashLine c = 0 ∨ cashLine c = 13 ∨ cashLine c = 14) := by
  have : c.val ≠ 0 := fun e => h (Fin.ext e)
  simp only [cashLine, Fin.ext_iff]
  omega

/-- Settles O27: class by class of Table 1-2, the rounding leg makes up for what cash rounding takes. -/
theorem localLegsSumAsTheLawSays : Obligations.LocalLegsSumAsTheLawSays := by
  intro req late pl s hok loc
  obtain ⟨cur, ok⟩ := checkPosting_ok hok
  have hloc : loc.sum = localSum pl.legs := rfl
  rw [hloc, ok.legs]
  refine ⟨fun hc => ?_, fun hc hs => ?_, fun hc hs => ?_⟩
  · have foreign := cashLine_foreign (ok.exchange hc)
    rcases hc with hc | hc <;> simp only [formLegs, hc, localSum_append, localSum_cons, localSum_nil, localSum_roundingLeg,
      foreign, if_false, if_true, true_or, or_true] <;> omega
  · simp [formLegs, hc, hs]
  · simp [formLegs, hc, hs]

/-! ## POST -/

/-- The bodies R6 takes none of: a part missing, or one out of its range. -/
theorem postMalformed_iff (b : PostBody) : postMalformed b = true ↔
    b.code = none ∨ b.slot = none ∨ b.amount = none ∨
      (∃ a, b.account = some a ∧ (a = [] ∨ 19 < a.length)) ∨ (b.passbook ≠ none ∧ b.account = none) ∨
      (∃ k, b.passbook = some k ∧ (3 < k.bookType ∨ k.page = 0 ∨ 32 < k.page ∨ k.line = 0 ∨ 40 < k.line ∨
        ∃ v, k.balance = some v ∧ 99999999999999 < v.natAbs)) ∨ ∃ n, b.entryRef = some n ∧ 4095 < n := by
  have account (a : Account) : accountOk a = false ↔ a = [] ∨ 19 < a.length := by
    rw [← Bool.not_eq_true, accountOk, Bool.and_eq_true, decide_eq_true_eq, decide_eq_true_eq, ← List.length_eq_zero_iff]
    omega
  simp only [postMalformed, passbookBad, Bool.or_eq_true, Bool.and_eq_true, Option.any_eq_true, Option.isNone_iff_eq_none,
    Option.isSome_iff_ne_none, Bool.not_eq_true', account, decide_eq_true_eq, beq_iff_eq, or_assoc]
  rfl

/-- A POST taken on its arrival (R6, R7): MALFORMED, or the answer of Table 1-1. -/
theorem execPost_eq (h : Hdr) (b : PostBody) {s : State} (ht : Takes s) :
    exec (.post h b) s = .next (if postMalformed b then answered h .malformed .none (arrived s) else
      match checkPosting (postRequest h b) (arrived s) with
      | .error st => answered h st .none (arrived s)
      | .ok pl => takePost h (postRequest h b) pl (arrived s)) := by
  simp only [← reply_eq]
  exact (show exec (.post h b) s = execPost h b s from rfl).trans (message_eq h _ ht)

/-- The checks read the day, the clock, the tables and the journal alone. -/
theorem checkPosting_congr (req : PostReq) {s t : State} (hday : t.day = s.day) (hclock : t.clock = s.clock)
    (htables : t.tables = s.tables) (hnv : t.nv = s.nv) : checkPosting req t = checkPosting req s := by
  have code : codeEntry t = codeEntry s := by funext n; simp only [codeEntry, htables]
  have rates : ratesSet t = ratesSet s := by funext c slot; simp only [ratesSet, htables]
  have value : localValue t = localValue s := by
    funext c slot cur a; simp only [localValue, rateFor, localExponent, htables]
  have unit : localUnit t = localUnit s := by simp only [localUnit, htables]
  have amounts : amountsFit t = amountsFit s := by funext c slot a v; simp only [amountsFit, unit]
  have room : fits .business 2 t = fits .business 2 s := by
    unfold fits midnightAhead slotsUsed; rw [hclock, hnv]
  unfold checkPosting
  rw [hday, hclock, code, rates, value, unit, amounts, room, htables]

theorem checkPosting_arrived (req : PostReq) (s : State) : checkPosting req (arrived s) = checkPosting req s :=
  checkPosting_congr req (by simp) (by simp) (by simp) (by simp)

/-- Settles O29: R6's test, then the checks of Table 1-1 in their order. -/
theorem refusedPostChangesNothing : Obligations.RefusedPostChangesNothing := by
  intro h b s ht malformed
  have follows := checkPosting_follows (postRequest h b) s
  rw [execPost_eq h b ht, checkPosting_arrived]
  refine ⟨fun hm => ?_, fun hm st f => ?_, follows.ok⟩
  · rw [if_pos ((postMalformed_iff b).2 hm)]
  · rw [if_neg (mt (postMalformed_iff b).1 hm), follows.error f]

end Sys2Proof.Machine

namespace Sys2Proof.Machine

/-! ## The passbook line store -/

section
variable (a y : Account) (s : State)

/-- A lookup reads the store alone. -/
theorem findAccount_congr {s t : State} (h : t.store = s.store) : findAccount a t = findAccount a s := by
  simp only [findAccount, h]

theorem accountLines_congr {s t : State} (h : t.store = s.store) : accountLines a t = accountLines a s := by
  simp only [accountLines, findAccount_congr a h]

theorem jobMarked_congr {s t : State} (h : t.store = s.store) : jobMarked a t = jobMarked a s := by
  simp only [jobMarked, findAccount_congr a h]

theorem accountLines_eq : accountLines a s = ((findAccount a s).map (·.lines)).getD [] := by
  unfold accountLines
  cases findAccount a s <;> rfl

theorem findAccount_account {r : AccountRec} (h : findAccount a s = some r) : r.account = a := by
  simpa using List.find?_some h

/-- The record of an account after a change of records that leaves their keys. -/
theorem findAccount_updAccount {f : AccountRec → AccountRec} (hf : ∀ r, (f r).account = r.account) :
    findAccount y (updAccount a f s) = if y = a then (findAccount a s).map f else findAccount y s := by
  have key : ((fun r : AccountRec => r.account == y) ∘ fun r => if r.account == a then f r else r) =
      fun r => r.account == y := by
    funext r
    by_cases h : r.account = a <;> simp [h, hf]
  simp only [findAccount, updAccount, List.find?_map, key]
  by_cases h : y = a
  · subst h
    simp only [if_true]
    cases e : s.store.find? fun r => r.account == y with
    | none => rfl
    | some r => simp [findAccount_account y s e]
  · rw [if_neg h]
    cases e : s.store.find? fun r => r.account == y with
    | none => rfl
    | some r => simp [findAccount_account y s e, h]

/-- The record of the account a line is added to (R124, R125). -/
theorem findAccount_addLine_self (t : Option Nat) (l : PLine) : findAccount a (addLine a t l s) =
    some (match findAccount a s with
      | some r => { r with lines := r.lines ++ [l], bookType := t.orElse fun _ => r.bookType }
      | none => ⟨a, t, [l], false⟩) := by
  unfold addLine
  cases h : findAccount a s with
  | some r => simp [findAccount_updAccount, h]
  | none =>
    have : s.store.find? (fun r => r.account == a) = none := h
    simp [findAccount, List.find?_append, this]

theorem findAccount_addLine_other (t : Option Nat) (l : PLine) (h : y ≠ a) :
    findAccount y (addLine a t l s) = findAccount y s := by
  unfold addLine
  split
  · refine (findAccount_updAccount a y s ?_).trans (if_neg h)
    exact fun _ => rfl
  · have : (a == y) = false := by simpa using h.symm
    simp [findAccount, List.find?_append, this]

theorem storeKeeps_iff : storeKeeps a s = true ↔ StoreHasRoom a s := by
  unfold storeKeeps StoreHasRoom
  cases findAccount a s with
  | none =>
    simp only [Bool.and_eq_true, decide_eq_true_eq, true_imp_iff, reduceCtorEq, false_imp_iff, implies_true, and_true]
    exact Iff.rfl
  | some r =>
    simp only [Bool.and_eq_true, decide_eq_true_eq, reduceCtorEq, false_imp_iff, true_and, Option.some.injEq, forall_eq']
    exact and_comm

end

/-! ## Screens that differ in prompts -/

/-- A screen after changes of its printer prompts and its NO PRINTER mark: nothing else differs, and no dirty row is lost. -/
def PromptsOnly (a b : Screen) : Prop :=
  b = { a with prompts := b.prompts, noPrinter := b.noPrinter, dirty := b.dirty } ∧ ∀ r ∈ a.dirty, r ∈ b.dirty

theorem PromptsOnly.rfl (a : Screen) : PromptsOnly a a := ⟨Eq.refl _, fun _ h => h⟩

theorem PromptsOnly.trans {a b c : Screen} (h : PromptsOnly a b) (k : PromptsOnly b c) : PromptsOnly a c :=
  ⟨k.1.trans (by rw [h.1]), fun r hr => k.2 r (h.2 r hr)⟩

theorem PromptsOnly.markNoPrinter (b : Bool) (sc : Screen) : PromptsOnly sc (sc.markNoPrinter b) :=
  ⟨Eq.refl _, fun r h => by simp [Screen.markNoPrinter, h]⟩

theorem PromptsOnly.setPrompt (n : Prn) (x : Prompt) (sc : Screen) : PromptsOnly sc (sc.setPrompt n x) :=
  ⟨Eq.refl _, fun r h => by simp [Screen.setPrompt, h]⟩

/-! ## Jobs -/

/-- A number as a printer. -/
theorem prnOf_eq_some (n : Nat) (m : Prn) : prnOf n = some m ↔ n = m.val := by
  unfold prnOf
  split
  · rw [Option.some.injEq, Fin.ext_iff]
  · next h => exact ⟨nofun, fun e => absurd m.isLt (by omega)⟩

theorem takesJob_iff (s : State) (n : Prn) : takesJob s n = true ↔ TakesJob n s := by
  simp only [takesJob, TakesJob, Bool.and_eq_true, bne_iff_ne, decide_eq_true_eq]
  exact Iff.rfl

/-- A printer that starts to wait for the head of its queue (R139): its record and the prompt on the owner's screen. -/
theorem startWaiting_head {n : Prn} {s : State} {j : Job} {js : List Job} (hq : rd s.queues n = j :: js) :
    startWaiting n s = if (rd s.printers n).state = .empty then
      setPrompt j.owner n .insertBook (s.updPrinter n fun r =>
        { r with state := .waitBook, timer := Timer.start s.tables.params.bookWait, ejectJob := false, reason := none })
      else s := by
  simp only [startWaiting, enterWait, hq]

section
variable (n : Prn) (a : Account) (p : Pos) (s : State)

/-- The state a job is placed in before its printer is told (R128). -/
def queued : State :=
  setNoPrinter p false (updAccount a (fun r => { r with jobMark := true }) (s.updQueue n fun q => q ++ [⟨a, p⟩]))

/-- A job placed, by what it finds of the queue and of the printer (R128, R137, R139). -/
theorem placeJob_eq : placeJob n ⟨a, p⟩ s =
    if rd s.queues n = [] then
      let t := (queued n a p s).updPrinter n fun r => { r with job := JobRec.initial }
      if (rd s.printers n).state = .empty then
        setPrompt p n .insertBook (t.updPrinter n fun r => { r with
          state := .waitBook, timer := Timer.start s.tables.params.bookWait, ejectJob := false, reason := none })
      else t
    else queued n a p s := by
  by_cases hq : rd s.queues n = []
  · have head : rd ((queued n a p s).updPrinter n fun r => { r with job := JobRec.initial }).queues n = [⟨a, p⟩] := by
      simp [queued, hq]
    have state : (rd ((queued n a p s).updPrinter n fun r => { r with job := JobRec.initial }).printers n).state =
        (rd s.printers n).state := by simp [queued]
    rw [if_pos hq, ← state]
    refine Eq.trans ?_ (startWaiting_head head)
    simp [placeJob, hq, queued]
  · simp [placeJob, hq, queued]

theorem findAccount_queued (y : Account) : findAccount y (queued n a p s) =
    if y = a then (findAccount a s).map fun r => { r with jobMark := true } else findAccount y s := by
  refine (findAccount_congr y (s := updAccount a (fun r => { r with jobMark := true }) s) rfl).trans ?_
  refine findAccount_updAccount a y s ?_
  exact fun _ => rfl

/-- The record of an account after a job is placed: its mark alone changes (R128). -/
theorem findAccount_placeJob (y : Account) : findAccount y (placeJob n ⟨a, p⟩ s) =
    if y = a then (findAccount a s).map fun r => { r with jobMark := true } else findAccount y s := by
  rw [← findAccount_queued n a p s y, placeJob_eq]
  refine findAccount_congr y ?_
  dsimp only
  split
  · split <;> simp
  · rfl

/-- The owner's screen after a job is placed: its NO PRINTER mark clear, and the prompt of a printer that starts to wait
(R128, R139). -/
theorem placeJob_screen : rd (placeJob n ⟨a, p⟩ s).screens p =
    if rd s.queues n = [] ∧ (rd s.printers n).state = .empty then
      ((rd s.screens p).markNoPrinter false).setPrompt n .insertBook
    else (rd s.screens p).markNoPrinter false := by
  rw [placeJob_eq, ite_and]
  dsimp only
  split
  · split <;> simp [queued]
  · simp [queued]

theorem placeJob_screen_promptsOnly : PromptsOnly (rd s.screens p) (rd (placeJob n ⟨a, p⟩ s).screens p) := by
  rw [placeJob_screen]
  split
  · exact (PromptsOnly.markNoPrinter false _).trans (PromptsOnly.setPrompt n _ _)
  · exact PromptsOnly.markNoPrinter false _

theorem placeJob_screen_other {q : Pos} (h : q ≠ p) : rd (placeJob n ⟨a, p⟩ s).screens q = rd s.screens q := by
  rw [placeJob_eq]
  dsimp only
  split
  · split <;> simp [queued, rd_upd_ne _ _ h]
  · simp [queued, rd_upd_ne _ _ h]

/-- A job placed for an account that has a record is as R128 to R139 say. -/
theorem placeJob_placed (h : findAccount a s ≠ none) : JobPlaced n p a s (placeJob n ⟨a, p⟩ s) := by
  obtain ⟨r, hr⟩ := Option.ne_none_iff_exists'.1 h
  refine ⟨?_, fun m hm => ?_, ?_, ?_, ?_, fun hq he => ⟨?_, ?_⟩, fun hq he => ?_, fun hq => ?_⟩
  · rw [placeJob_eq]
    dsimp only
    (repeat' split) <;> simp [queued]
  · rw [placeJob_eq]
    dsimp only
    (repeat' split) <;> simp [queued, rd_upd_ne _ _ hm]
  · simp [jobMarked, findAccount_placeJob, hr]
  · rw [placeJob_screen]
    split <;> simp [Screen.markNoPrinter, Screen.setPrompt]
  · rw [placeJob_screen]
    split <;> simp [Screen.markNoPrinter, Screen.setPrompt]
  · rw [placeJob_screen, if_pos ⟨hq, he⟩]
    simp [Screen.setPrompt]
  · rw [placeJob_eq, if_pos hq]
    simp [he, queued, Timer.start]
  · rw [placeJob_eq, if_pos hq]
    simp [he, queued]
  · rw [placeJob_eq, if_neg hq]
    simp [queued]

end

/-! ### The attempt to create a job -/

/-- The printer an attempt places its job on (R129): the home printer of the owner when it takes one, else the alternate. -/
def jobPrinterFor (p : Pos) (s : State) : Option Prn :=
  (((positionEntry s p).bind fun e => prnOf e.home).filter (takesJob s)).orElse fun _ =>
    ((positionEntry s p).bind fun e => e.alternate.bind prnOf).filter (takesJob s)

theorem attemptJob_eq {p : Pos} {a : Account} {s : State} (hd : s.day.state = .opened ∨ s.day.state = .cutoff) :
    attemptJob p a s = match jobPrinterFor p s with
      | some n => placeJob n ⟨a, p⟩ s
      | none => setNoPrinter p true s := by
  rw [attemptJob, if_pos hd]
  rfl

section
variable {p : Pos} {s : State}

theorem home_iff (n : Prn) : (∃ e, rd s.tables.positions p = some e ∧ e.home = n.val) ↔
    ((positionEntry s p).bind fun e => prnOf e.home) = some n := by
  simp [positionEntry, Option.bind_eq_some_iff, prnOf_eq_some]

theorem alternate_iff (n : Prn) : (∃ e, rd s.tables.positions p = some e ∧ e.alternate = some n.val) ↔
    ((positionEntry s p).bind fun e => e.alternate.bind prnOf) = some n := by
  simp [positionEntry, Option.bind_eq_some_iff, prnOf_eq_some]

end

/-- An attempt for an account that has a record is as R129 says. -/
theorem attemptJob_attempted {p : Pos} {a : Account} {s : State} (hd : s.day.state = .opened ∨ s.day.state = .cutoff)
    (h : findAccount a s ≠ none) : JobAttempted p a s (attemptJob p a s) := by
  rw [attemptJob_eq hd]
  unfold JobAttempted
  dsimp only
  simp only [home_iff, alternate_iff, ← takesJob_iff]
  unfold jobPrinterFor
  generalize ((positionEntry s p).bind fun e => prnOf e.home) = home
  generalize ((positionEntry s p).bind fun e => e.alternate.bind prnOf) = alt
  refine ⟨fun n hn ht => ?_, fun n hn ht no => ?_, fun no => ?_⟩
  · simpa [hn, ht, Option.filter_some] using placeJob_placed n a p s h
  · have none : home.filter (takesJob s) = none := by
      cases home <;> simp_all
    simpa [none, hn, ht, Option.filter_some] using placeJob_placed n a p s h
  · have none : home.filter (takesJob s) = none ∧ alt.filter (takesJob s) = none := by
      cases home <;> cases alt <;> simp_all
    have mark : jobMarked a (setNoPrinter p true s) = jobMarked a s := jobMarked_congr a rfl
    simp [none, Screen.markNoPrinter, mark]

theorem attemptJob_screen {p : Pos} {a : Account} {s : State} (hd : s.day.state = .opened ∨ s.day.state = .cutoff) :
    PromptsOnly (rd s.screens p) (rd (attemptJob p a s).screens p) := by
  rw [attemptJob_eq hd]
  split
  · exact placeJob_screen_promptsOnly ..
  · simpa using PromptsOnly.markNoPrinter true _

theorem attemptJob_screen_other {p q : Pos} {a : Account} {s : State}
    (hd : s.day.state = .opened ∨ s.day.state = .cutoff) (h : q ≠ p) :
    rd (attemptJob p a s).screens q = rd s.screens q := by
  rw [attemptJob_eq hd]
  split
  · exact placeJob_screen_other _ a p s h
  · simp [rd_upd_ne _ _ h]

/-- An attempt changes no record but for a job mark. -/
theorem attemptJob_record {p : Pos} {a : Account} {s : State} (hd : s.day.state = .opened ∨ s.day.state = .cutoff)
    {β : Type} (v : AccountRec → β) (hv : ∀ r, v { r with jobMark := true } = v r) (y : Account) :
    (findAccount y (attemptJob p a s)).map v = (findAccount y s).map v := by
  rw [attemptJob_eq hd]
  split
  · rw [findAccount_placeJob]
    split
    · next h => subst h; simp [Function.comp_def, hv]
    · rfl
  · rfl

/-! ### What is told of a job holds on -/

/-- What a job placed between two states leaves is told alike of states that agree with them. -/
theorem JobPlaced.congr {n : Prn} {p : Pos} {a : Account} {s s' t t' : State} (h : JobPlaced n p a s t)
    (htables : s'.tables = s.tables) (hq : s'.queues = s.queues) (hp : s'.printers = s.printers)
    (hq' : t'.queues = t.queues) (hp' : t'.printers = t.printers) (hm' : jobMarked a t' = jobMarked a t)
    (hn : (rd t'.screens p).noPrinter = (rd t.screens p).noPrinter) (hx : (rd t'.screens p).prompts = (rd t.screens p).prompts)
    (hd : ∀ r ∈ (rd t.screens p).dirty, r ∈ (rd t'.screens p).dirty) : JobPlaced n p a s' t' := by
  unfold JobPlaced at h ⊢
  rw [htables, hq, hp, hq', hp', hm', hn, hx]
  obtain ⟨h1, h2, h3, h4, h5, h6⟩ := h
  exact ⟨h1, h2, h3, h4, hd 0 h5, h6⟩

theorem JobAttempted.congr {p : Pos} {a : Account} {s s' t t' : State} (h : JobAttempted p a s t)
    (htables : s'.tables = s.tables) (hq : s'.queues = s.queues) (hp : s'.printers = s.printers)
    (hm : jobMarked a s' = jobMarked a s)
    (hq' : t'.queues = t.queues) (hp' : t'.printers = t.printers) (hm' : jobMarked a t' = jobMarked a t)
    (hn : (rd t'.screens p).noPrinter = (rd t.screens p).noPrinter) (hx : (rd t'.screens p).prompts = (rd t.screens p).prompts)
    (hd : ∀ r ∈ (rd t.screens p).dirty, r ∈ (rd t'.screens p).dirty) : JobAttempted p a s' t' := by
  have takes (n : Prn) : TakesJob n s' ↔ TakesJob n s := by simp only [TakesJob, hq, hp]
  have placed (n : Prn) (k : JobPlaced n p a s t) : JobPlaced n p a s' t' := k.congr htables hq hp hq' hp' hm' hn hx hd
  unfold JobAttempted at h ⊢
  simp only [htables, takes]
  obtain ⟨home, alternate, none⟩ := h
  refine ⟨fun n e k => placed n (home n e k), fun n e k m => placed n (alternate n e k m), fun k => ?_⟩
  obtain ⟨h1, h2, h3, h4, h5⟩ := none k
  exact ⟨hq'.trans (h1.trans hq.symm), hp'.trans (h2.trans hp.symm), hm'.trans (h3.trans hm.symm), hn.trans h4, hd 0 h5⟩

/-! ## A line handed on to the store -/

/-- A change of an entry's print state changes the journal memory alone. -/
theorem changePrint_store (q : Nat) (x : PrintState) (s : State) :
    (changePrint q x s).store = s.store ∧ (changePrint q x s).screens = s.screens ∧
    (changePrint q x s).queues = s.queues ∧ (changePrint q x s).printers = s.printers := by
  simp

/-- A line kept for an account (R125, R129): it ends the account's list, and a job is attempted when the account has none. -/
structure LineKept (p : Pos) (a : Account) (bookType : Option Nat) (l : PLine) (s t : State) : Prop where
  lines : accountLines a t = accountLines a s ++ [l]
  others : ∀ y, y ≠ a → accountLines y t = accountLines y s
  book : (findAccount a t).bind (·.bookType) = bookType.orElse fun _ => (findAccount a s).bind (·.bookType)
  marked : jobMarked a s = true → jobMarked a t = true ∧ t.queues = s.queues ∧ t.printers = s.printers
  attempted : jobMarked a s = false → JobAttempted p a s t

/-- What is told of a line kept is told alike of states that agree with those. -/
theorem LineKept.congr {p : Pos} {a : Account} {b : Option Nat} {l : PLine} {s s' t t' : State} (h : LineKept p a b l s t)
    (htables : s'.tables = s.tables) (hs : s'.store = s.store) (hq : s'.queues = s.queues) (hp : s'.printers = s.printers)
    (hs' : t'.store = t.store) (hq' : t'.queues = t.queues) (hp' : t'.printers = t.printers)
    (hn : (rd t'.screens p).noPrinter = (rd t.screens p).noPrinter) (hx : (rd t'.screens p).prompts = (rd t.screens p).prompts)
    (hd : ∀ r ∈ (rd t.screens p).dirty, r ∈ (rd t'.screens p).dirty) : LineKept p a b l s' t' where
  lines := by rw [accountLines_congr a hs', accountLines_congr a hs, h.lines]
  others y hy := by rw [accountLines_congr y hs', accountLines_congr y hs, h.others y hy]
  book := by rw [findAccount_congr a hs', findAccount_congr a hs, h.book]
  marked m := by
    rw [jobMarked_congr a hs', hq', hp', hq, hp]
    exact h.marked (by rwa [jobMarked_congr a hs] at m)
  attempted m := (h.attempted (by rwa [jobMarked_congr a hs] at m)).congr htables hq hp (jobMarked_congr a hs) hq' hp'
    (jobMarked_congr a hs') hn hx hd

section
variable {p : Pos} {a : Account} {bookType : Option Nat} {l : PLine} {s : State}

/-- A change of print state looks at the journal alone. -/
theorem changePrint_nv_congr (q : Nat) (x : PrintState) {s t : State} (h : t.nv = s.nv) :
    (changePrint q x t).nv = (changePrint q x s).nv := by
  have e : entryAt q t = entryAt q s := by simp only [entryAt, journal, h]
  unfold changePrint
  rw [e]
  split
  · split
    · simp [h]
    · exact h
  · exact h

/-- A line kept and its entry STORED, and then the account's job (R125, R129). -/
theorem handOnLine_room (hroom : StoreHasRoom a s) : handOnLine p (some (a, bookType, l)) s =
    jobForKept p a (changePrint l.source .stored (addLine a bookType l s)) := by
  simp only [handOnLine, offerLine, (storeKeeps_iff a s).2 hroom, if_true]

theorem handOnLine_kept_nv (hroom : StoreHasRoom a s) :
    (handOnLine p (some (a, bookType, l)) s).nv = (changePrint l.source .stored s).nv := by
  rw [handOnLine_room hroom]
  have nv : (addLine a bookType l s).nv = s.nv := by simp
  rw [← changePrint_nv_congr _ _ nv]
  simp

theorem handOnLine_kept (hroom : StoreHasRoom a s) (hd : s.day.state = .opened ∨ s.day.state = .cutoff) :
    LineKept p a bookType l s (handOnLine p (some (a, bookType, l)) s) := by
  rw [handOnLine_room hroom]
  obtain ⟨v, hv⟩ : ∃ v, v = changePrint l.source .stored (addLine a bookType l s) := ⟨_, rfl⟩
  have hstore : v.store = (addLine a bookType l s).store := by simp [hv]
  have self := (findAccount_congr a hstore).trans (findAccount_addLine_self a s bookType l)
  have other (y : Account) (hy : y ≠ a) : findAccount y v = findAccount y s :=
    (findAccount_congr y hstore).trans (findAccount_addLine_other a y s bookType l hy)
  have found : findAccount a v ≠ none := by simp [self]
  have hlines : accountLines a v = accountLines a s ++ [l] := by
    unfold accountLines; rw [self]; cases findAccount a s <;> rfl
  have hbook : (findAccount a v).bind (·.bookType) = bookType.orElse fun _ => (findAccount a s).bind (·.bookType) := by
    rw [self]; cases findAccount a s <;> cases bookType <;> rfl
  have hmark : jobMarked a v = jobMarked a s := by
    unfold jobMarked; rw [self]; cases findAccount a s <;> rfl
  have hday : v.day.state = .opened ∨ v.day.state = .cutoff := by simpa [hv] using hd
  have same : v.tables = s.tables ∧ v.queues = s.queues ∧ v.printers = s.printers := by simp [hv]
  obtain ⟨htables, hq, hp⟩ := same
  rw [← hv, jobForKept, hmark]
  by_cases m : jobMarked a s = true
  · rw [if_pos m]
    exact ⟨hlines, fun y hy => by simp only [accountLines, other y hy], hbook, fun _ => ⟨hmark.trans m, hq, hp⟩,
      fun k => absurd (m.symm.trans k) (by decide)⟩
  · rw [if_neg m]
    have record {β : Type} (f : AccountRec → β) (hf : ∀ r, f { r with jobMark := true } = f r) (y : Account) :=
      attemptJob_record (p := p) (a := a) hday f hf y
    have lines (y : Account) : accountLines y (attemptJob p a v) = accountLines y v := by
      rw [accountLines_eq, accountLines_eq, record (·.lines) (fun _ => rfl) y]
    have books : (findAccount a (attemptJob p a v)).bind (·.bookType) = (findAccount a v).bind (·.bookType) := by
      simpa only [Option.bind_map, Function.id_comp] using congrArg (·.bind id) (record (·.bookType) (fun _ => rfl) a)
    refine ⟨(lines a).trans hlines, fun y hy => (lines y).trans (by simp only [accountLines, other y hy]), books.trans hbook,
      fun k => absurd k m, fun _ => ?_⟩
    exact (attemptJob_attempted hday found).congr htables.symm hq.symm hp.symm hmark.symm rfl rfl rfl rfl rfl fun _ h => h

/-- A line the store has no place for leaves the store and the printers as they are (R125). -/
theorem handOnLine_lost (hroom : ¬StoreHasRoom a s) :
    handOnLine p (some (a, bookType, l)) s = changePrint l.source .overflow s := by
  have keeps := mt (storeKeeps_iff a s).1 hroom
  simp [handOnLine, offerLine, keeps]

/-- The owner's screen after a line is handed on: at most its prompts differ. -/
theorem handOnLine_screen (line : Option (Account × Option Nat × PLine))
    (hd : s.day.state = .opened ∨ s.day.state = .cutoff) :
    PromptsOnly (rd s.screens p) (rd (handOnLine p line s).screens p) ∧
      ∀ q, q ≠ p → rd (handOnLine p line s).screens q = rd s.screens q := by
  rcases line with _ | ⟨a, b, l⟩
  · exact ⟨.rfl _, fun _ _ => rfl⟩
  by_cases room : StoreHasRoom a s
  · rw [handOnLine_room room]
    have same : (changePrint l.source .stored (addLine a b l s)).screens = s.screens := by simp
    have day : (changePrint l.source .stored (addLine a b l s)).day = s.day := by simp
    rw [← same]
    rw [← day] at hd
    unfold jobForKept
    split
    · exact ⟨.rfl _, fun _ _ => rfl⟩
    · exact ⟨attemptJob_screen hd, fun q hq => attemptJob_screen_other hd hq⟩
  · rw [handOnLine_lost room, (changePrint_store ..).2.1]
    exact ⟨.rfl _, fun _ _ => rfl⟩

end

end Sys2Proof.Machine

namespace Sys2Proof.Machine

/-! ## A posting in the journal -/

/-- The state of an append of an entry that counts as pending: a stand-in posting adds to the pending count (R50). -/
def counting (b : EntryBody) (s : State) : State :=
  { s with jc := { s.jc with pendingCount := s.jc.pendingCount + if firstForward b = .pending then 1 else 0 } }

theorem counting_notNeeded {b : EntryBody} (h : firstForward b ≠ .pending) (s : State) : counting b s = s := by
  simp [counting, h]

/-- What one append leaves of the journal memory and the journal's marks, the pending count aside. -/
theorem append_counting (b : EntryBody) (s : State) : Appended [b] (counting b s) (append b s) := by
  refine ⟨?_, ?_, ?_, append_retained b s, append_jc b s, append_lowSpace b s⟩
  · exact (congrArg (List.take _) (append_entries b s)).trans (List.take_left ..)
  · rw [append_entries]
    show ((journal s ++ [makeEntry b s]).drop (journal s).length).map _ = _
    rw [List.drop_left]
    rfl
  · rw [append_fields]; simp [counting]

/-- A count of pending entries is carried through what is appended before. -/
theorem Appended.counting {as : List EntryBody} {s t : State} (h : Appended as s t) (b : EntryBody) :
    Appended as (counting b s) (Machine.counting b t) := by
  obtain ⟨h1, h2, h3, h4, h5, h6⟩ := h
  refine ⟨h1, h2, h3, h4, ?_, h6⟩
  show JournalCtl.mk .. = JournalCtl.mk ..
  rw [h5]
  rfl

/-- An entry appended after the pending midnight, if there is one (R47), with its count. -/
theorem placeMidnight_append_counting (b : EntryBody) (s : State) :
    Appended (midnightBodies s ++ [b]) (counting b s) (append b (placeMidnight .business s)) := by
  have ne : CapClass.business ≠ .closing := by decide
  rw [placeMidnight_eq]
  unfold midnightBodies
  by_cases m : 0 < s.clock.midnights
  · rw [if_pos ((midnightAhead_open ne s).2 m), if_pos m]
    have k : Appended [.midnight s.clock.midnights] s
        { append (.midnight s.clock.midnights) s with clock := { s.clock with midnights := 0 } } :=
      (append_appended (by simp [firstForward]) s).of_nv_jc rfl rfl rfl
    have o : s.line.outbound <+: { append (.midnight s.clock.midnights) s with
        clock := { s.clock with midnights := 0 } }.line.outbound := append_outbound _ s
    generalize { append (.midnight s.clock.midnights) s with clock := { s.clock with midnights := 0 } } = u at k o
    exact (k.counting b).trans (append_counting b u) (append_frame b u).1 o (append_outbound b u)
  · rw [if_neg (fun k => m ((midnightAhead_open ne s).1 k)), if_neg m]
    exact append_counting b s

/-- The sequence number of a posting taken now: after the pending midnight, if there is one (R41, R47). -/
def postingSeq (s : State) : Nat := s.nv.control.fields.entryCount + (midnightBodies s).length + 1

theorem nextSeq_placeMidnight (s : State) : nextSeq (placeMidnight .business s) = postingSeq s := by
  have ne : CapClass.business ≠ .closing := by decide
  unfold postingSeq midnightBodies nextSeq
  rw [placeMidnight_eq]
  by_cases m : 0 < s.clock.midnights
  · rw [if_pos ((midnightAhead_open ne s).2 m), if_pos m, append_fields]
    rfl
  · rw [if_neg (fun k => m ((midnightAhead_open ne s).1 k)), if_neg m]
    rfl

/-- A state t in which a posting taken from s stands last in the journal with a print state (R17, R41, R45, R49). -/
structure Posted (r : PostingRec) (x : PrintState) (s t : State) : Prop where
  appended : Appended (midnightBodies s ++ [.posting r]) (counting (.posting r) s) t
  last : ∃ js e, t.nv.entries = js ++ [e] ∧ js.length < postingSeq s ∧ e.body = .posting r ∧ e.seq = postingSeq s ∧
    e.kind = 2 ∧ e.size = 2 ∧ e.time = (if s.clock.isSet then s.clock.time else 0) ∧ e.clockMark = s.clock.isSet ∧
    e.fwd = firstForward (.posting r) ∧ (js.length + 1 = postingSeq s → e.print = x)

section
variable {r : PostingRec} {x : PrintState} {s t u : State}

theorem Posted.count (h : Posted r x s t) : t.nv.control.fields.entryCount = postingSeq s := by
  rw [h.appended.2.2.1]
  simp [counting, postingSeq, Nat.add_assoc]

theorem Posted.slotsUsed (h : Posted r x s t) : slotsUsed t = slotsUsed s + (midnightBodies s).length + 2 := by
  unfold Machine.slotsUsed
  rw [h.appended.2.2.1]
  unfold midnightBodies
  split <;> simp [counting, kindSlots, Nat.add_assoc]

/-- The journal's entry with the posting's number, if the counted entries before it are all there, is the last. -/
theorem Posted.entryAt (h : Posted r x s t) {js : List Entry} {e : Entry} (he : t.nv.entries = js ++ [e]) :
    entryAt (postingSeq s) t = if js.length + 1 = postingSeq s then some e else none := by
  obtain ⟨js', e', he', hlt, -⟩ := h.last
  obtain ⟨rfl, hee⟩ := List.append_inj' (he.symm.trans he') rfl
  have pos : postingSeq s ≠ 0 := Nat.succ_ne_zero _
  unfold Machine.entryAt journal
  rw [if_neg pos, h.count, he, List.getElem?_take, if_pos (by omega)]
  split
  · next k => simp [← k]
  · exact List.getElem?_eq_none (by simp; omega)

/-- The print state the journal shows for the posting. -/
theorem Posted.shows (h : Posted r x s t) {e : Entry} (he : Machine.entryAt (postingSeq s) t = some e) : e.print = x := by
  obtain ⟨js, e', hjs, -, -, -, -, -, -, -, -, hx⟩ := h.last
  rw [h.entryAt hjs] at he
  split at he
  · next k => cases he; exact hx k
  · cases he

/-- A posting just appended shows NONE (R49). -/
theorem posted_append (r : PostingRec) (s : State) : Posted r .none s (append (.posting r) (placeMidnight .business s)) where
  appended := placeMidnight_append_counting _ s
  last := by
    have time : (placeMidnight .business s).clock.time = s.clock.time ∧
        (placeMidnight .business s).clock.isSet = s.clock.isSet := by
      rw [placeMidnight_midnights (by decide)]
      exact ⟨rfl, rfl⟩
    refine ⟨_, _, append_entries _ _, ?_, rfl, nextSeq_placeMidnight s, rfl, rfl, ?_, time.2, rfl, fun _ => rfl⟩
    · rw [← nextSeq_placeMidnight]
      exact Nat.lt_succ_of_le (by simp [journal])
    · show ite _ _ _ = _
      rw [time.1, time.2]

/-- What goes on without an append or a JOURNAL_LOW leaves the posting where it is. -/
theorem Posted.goesOn (h : Posted r x s t) (hn : u.nv = t.nv) (hj : u.jc = t.jc) (hl : u.line.state = t.line.state)
    (ms : List OutMsg) (ho : u.line.outbound = t.line.outbound ++ ms)
    (hm : ∀ n c d, (⟨255, 0, .report (.journalLow n c d)⟩ : OutMsg) ∉ ms) : Posted r x s u :=
  ⟨h.appended.goesOn hn hj hl ms ho hm, hn ▸ h.last⟩

/-- A change of the last entry's print state leaves what was appended. -/
theorem Appended.reprinted {bs : List EntryBody} (h : Appended bs s t) (hb : bs ≠ []) {js : List Entry} {e e' : Entry}
    (ht : t.nv.entries = js ++ [e]) (he : e'.body = e.body) (hn : u.nv = { t.nv with entries := js ++ [e'] })
    (hj : u.jc = t.jc) (hl : u.line = t.line) : Appended bs s u := by
  obtain ⟨h1, h2, h3, h4, h5, h6⟩ := h
  rw [ht] at h1 h2
  have short : (journal s).length ≤ js.length := by
    by_contra k
    rw [List.drop_eq_nil_of_le (by simp; omega)] at h2
    exact hb h2.symm
  unfold Appended
  rw [hn, hj]
  refine ⟨?_, ?_, h3, h4, h5, h6.goesOn (by rw [hj]) (by rw [hl]) [] (by rw [hl, List.append_nil]) fun _ _ _ => nofun⟩
  · show (js ++ [e']).take _ = _
    rw [List.take_append_of_le_length short] at h1 ⊢
    exact h1
  · show ((js ++ [e']).drop _).map _ = _
    rw [List.drop_append_of_le_length short] at h2 ⊢
    simpa [he] using h2

theorem modify_last {α : Type} (l : List α) (a : α) (f : α → α) : (l ++ [a]).modify l.length f = l ++ [f a] := by
  induction l with
  | nil => rfl
  | cons b l ih => simp [ih]

/-- The posting's print state moved on from NONE (R49). -/
theorem Posted.reprinted (h : Posted r .none s t) (hx : printChangeOk .none x = true)
    (hn : u.nv = (changePrint (postingSeq s) x t).nv) (hj : u.jc = t.jc) (hl : u.line = t.line) : Posted r x s u := by
  obtain ⟨js, e, he, hlt, hb, hs, hk, hz, ht, hc, hf, hp⟩ := h.last
  have at_ := h.entryAt he
  by_cases full : js.length + 1 = postingSeq s
  · rw [if_pos full] at at_
    have nv : u.nv = { t.nv with entries := js ++ [{ e with print := x }] } := by
      rw [hn, changePrint, at_]
      dsimp only
      rw [hp full, if_pos hx]
      rw [nvWrite_nv, JournalMem.write, he, show postingSeq s - 1 = js.length by omega, modify_last]
    exact ⟨h.appended.reprinted (by simp) he (e' := { e with print := x }) rfl nv hj hl,
      js, { e with print := x }, by rw [nv], hlt, hb, hs, hk, hz, ht, hc, hf, fun _ => rfl⟩
  · rw [if_neg full] at at_
    have nv : u.nv = t.nv := by rw [hn, changePrint, at_]
    exact ⟨h.appended.of_nv_jc nv hj hl, js, e, by rw [nv, he], hlt, hb, hs, hk, hz, ht, hc, hf, fun k => absurd k full⟩

end

/-! ## A posting recorded and applied -/

/-- The fields of a posting read the tables alone (R17, R19). -/
theorem postingRec_congr (late : Bool) (req : PostReq) (pl : Plan) {s t : State} (h : t.tables = s.tables) :
    postingRec late req pl t = postingRec late req pl s := by
  simp only [postingRec, lineText, localExponent, h]

/-- The state a posting's line is handed on in: its entry appended and its legs applied (R17, R18). -/
def booked (r : PostingRec) (s : State) : State := applyLegs r.legs (append (.posting r) (placeMidnight .business s))

theorem applyLegs_drawers_congr (gs : List Leg) {s t : State} (h : t.drawers = s.drawers) :
    (applyLegs gs t).drawers = (applyLegs gs s).drawers := by
  induction gs generalizing s t with
  | nil => exact h
  | cons g gs ih => exact ih (by simp [h])

theorem businessDate_booked (r : PostingRec) (s : State) : businessDate (booked r s) = businessDate s := by
  have nv : (booked r s).nv = (append (.posting r) (placeMidnight .business s)).nv := by simp [booked]
  unfold businessDate
  rw [nv, (posted_append r s).appended.2.2.1]
  rfl

/-- What the recording of a posting leaves (R18, R47): the drawers' legs, the midnight count, the journal and the messages of
the part aside, nothing changes. -/
theorem booked_frame (r : PostingRec) (s : State) :
    (booked r s).tables = s.tables ∧ (booked r s).posns = s.posns ∧ (booked r s).screens = s.screens ∧
    (booked r s).keys = s.keys ∧ (booked r s).groups = s.groups ∧ (booked r s).day = s.day ∧
    (booked r s).clock = { s.clock with midnights := 0 } ∧ (booked r s).store = s.store ∧
    (booked r s).queues = s.queues ∧ (booked r s).printers = s.printers ∧ (booked r s).engine = s.engine ∧
    (booked r s).powered = s.powered ∧ (booked r s).out = s.out ∧ (booked r s).nvBefore = s.nvBefore ∧
    (booked r s).freeUsed = s.freeUsed ∧ (booked r s).pending = s.pending ∧
    (booked r s).drawers = (applyLegs r.legs s).drawers := by
  have drawers : (booked r s).drawers = (applyLegs r.legs s).drawers := applyLegs_drawers_congr _ (by simp)
  have clock : (placeMidnight .business s).clock = { s.clock with midnights := 0 } := placeMidnight_midnights (by decide) s
  simpa [clock, booked, -Clock.mk.injEq] using drawers

/-- A posting that passed its checks, step by step (R17, R18, R19). -/
theorem applyPosting_eq (late : Bool) (req : PostReq) (pl : Plan) (s : State) :
    applyPosting late req pl s =
      (handOnLine pl.pos (postingLine (businessDate s) (postingSeq s) (postingRec late req pl s))
        (booked (postingRec late req pl s) s), postingSeq s) := by
  rw [← nextSeq_placeMidnight, ← businessDate_booked (postingRec late req pl s) s]
  unfold applyPosting booked
  dsimp only
  rw [postingRec_congr late req pl (placeMidnight_frame .business s).2.2.2.2.1]

end Sys2Proof.Machine

namespace Sys2Proof.Machine

/-! ## What a posting leaves -/

theorem lineIf_eq {l m : LineIf} (h1 : l.state = m.state) (h2 : l.timer = m.timer) (h3 : l.framer = m.framer)
    (h4 : l.sending = m.sending) : l = { m with outbound := l.outbound } := by
  cases l; cases m; simp_all

/-- The line while a posting is recorded: the outbound queue alone gains messages. -/
theorem booked_line (r : PostingRec) (s : State) :
    (booked r s).line = { s.line with outbound := (booked r s).line.outbound } ∧
      s.line.outbound <+: (booked r s).line.outbound := by
  have line : (booked r s).line = (append (.posting r) (placeMidnight .business s)).line := by simp [booked]
  rw [line]
  exact ⟨lineIf_eq (by simp) (by simp) (by simp) (by simp),
    (placeMidnight_outbound .business s).trans (append_outbound _ _)⟩

/-- One append queues one message at most (R48). -/
theorem append_outbound_length (b : EntryBody) (s : State) :
    (append b s).line.outbound.length ≤ s.line.outbound.length + 1 := by
  obtain ⟨u, hu, hl⟩ : ∃ u, append b s = lowSpaceCheck u ∧ u.line = s.line := by
    refine ⟨_, rfl, ?_⟩
    dsimp only
    split <;> rfl
  rw [hu, lowSpaceCheck_eq]
  split
  · rw [report_outbound, List.length_append]
    unfold reportedOf
    split <;> simp [hl]
  · rw [hl]; exact Nat.le_succ _

theorem booked_outbound_length (r : PostingRec) (s : State) :
    (booked r s).line.outbound.length ≤ s.line.outbound.length + 2 := by
  have line : (booked r s).line = (append (.posting r) (placeMidnight .business s)).line := by simp [booked]
  have midnight : (placeMidnight .business s).line.outbound.length ≤ s.line.outbound.length + 1 := by
    rw [placeMidnight_eq]
    split
    · exact append_outbound_length _ s
    · exact Nat.le_succ _
  have entry := append_outbound_length (.posting r) (placeMidnight .business s)
  rw [line]
  omega

theorem storeHasRoom_congr (a : Account) {s t : State} (h : t.store = s.store) : StoreHasRoom a t ↔ StoreHasRoom a s := by
  simp only [StoreHasRoom, storedLines, findAccount_congr a h, h]

section
variable (late : Bool) (req : PostReq) (pl : Plan) (s : State)

theorem applyPosting_seq : (applyPosting late req pl s).2 = postingSeq s := by rw [applyPosting_eq]

/-- What a posting leaves as it was, and the drawers and the clock (R18, R47). -/
theorem applyPosting_frame : let t := (applyPosting late req pl s).1
    t.tables = s.tables ∧ t.posns = s.posns ∧ t.keys = s.keys ∧ t.groups = s.groups ∧ t.day = s.day ∧
    t.clock = { s.clock with midnights := 0 } ∧ t.engine = s.engine ∧ t.powered = s.powered ∧ t.out = s.out ∧
    t.nvBefore = s.nvBefore ∧ t.freeUsed = s.freeUsed ∧ t.pending = s.pending ∧
    t.drawers = (applyLegs pl.legs s).drawers ∧ t.line = (booked (postingRec late req pl s) s).line := by
  rw [applyPosting_eq]
  dsimp only
  simp only [handOnLine_frame, booked_frame]
  simp [postingRec]

end

section
variable {late : Bool} {req : PostReq} {pl : Plan} {s : State}

theorem applyPosting_screen (hd : s.day.state = .opened ∨ s.day.state = .cutoff) : let t := (applyPosting late req pl s).1
    PromptsOnly (rd s.screens pl.pos) (rd t.screens pl.pos) ∧ ∀ q, q ≠ pl.pos → rd t.screens q = rd s.screens q := by
  rw [applyPosting_eq]
  have screens := (booked_frame (postingRec late req pl s) s).2.2.1
  have day := (booked_frame (postingRec late req pl s) s).2.2.2.2.2.1
  rw [← screens]
  exact handOnLine_screen _ (by rw [day]; exact hd)

/-- The journal and the line store's neighbours of the state a posting's line is handed on in. -/
theorem posted_booked (r : PostingRec) (s : State) : Posted r .none s (booked r s) :=
  (posted_append r s).goesOn (by simp [booked]) (by simp [booked]) (by simp [booked]) [] (by simp [booked])
    fun _ _ _ => List.not_mem_nil

/-- A posting that yields no line (R19). -/
theorem applyPosting_noLine (h : (postingRec late req pl s).yielded = none) : let t := (applyPosting late req pl s).1
    t.store = s.store ∧ t.queues = s.queues ∧ t.printers = s.printers ∧ t.screens = s.screens ∧
    Posted (postingRec late req pl s) .none s t := by
  have line (d n : Nat) : postingLine d n (postingRec late req pl s) = none := by
    unfold postingLine
    rw [h]
    split <;> simp_all
  rw [applyPosting_eq, line]
  have k := booked_frame (postingRec late req pl s) s
  exact ⟨k.2.2.2.2.2.2.2.1, k.2.2.2.2.2.2.2.2.1, k.2.2.2.2.2.2.2.2.2.1, k.2.2.1, posted_booked _ s⟩

/-- The passbook line of a posting (R19, R124). -/
def lineOf (r : PostingRec) (x : LineText) (s : State) : PLine :=
  { date := businessDate s, name := x.name, amount := x.amount, exponent := x.exponent, balance := r.balance,
    standIn := r.origin == .standIn, expected := r.book.map fun b => (b.page, b.line), source := postingSeq s }

variable {a : Account} {x : LineText}

theorem postingLine_some {r : PostingRec} (ha : r.account = some a) (hy : r.yielded = some x) :
    postingLine (businessDate s) (postingSeq s) r = some (a, r.book.map (·.bookType), lineOf r x s) := by
  simp only [postingLine, ha, hy, lineOf]

/-- A posting whose line the store keeps (R19, R125, R129). -/
theorem applyPosting_kept (hd : s.day.state = .opened ∨ s.day.state = .cutoff)
    (ha : (postingRec late req pl s).account = some a) (hy : (postingRec late req pl s).yielded = some x)
    (room : StoreHasRoom a s) : let t := (applyPosting late req pl s).1
    LineKept pl.pos a ((postingRec late req pl s).book.map (·.bookType)) (lineOf (postingRec late req pl s) x s) s t ∧
    Posted (postingRec late req pl s) .stored s t := by
  rw [applyPosting_eq, postingLine_some ha hy]
  generalize postingRec late req pl s = r
  obtain ⟨tables, -, screens, -, -, day, -, store, queues, printers, -⟩ := booked_frame r s
  have room' := (storeHasRoom_congr a store).2 room
  refine ⟨(handOnLine_kept room' (by rw [day]; exact hd)).congr tables.symm store.symm queues.symm printers.symm
    rfl rfl rfl rfl rfl fun _ h => h, (posted_booked r s).reprinted rfl (handOnLine_kept_nv room') ?_ ?_⟩ <;> simp

/-- A posting whose line finds no place (R125). -/
theorem applyPosting_lost (ha : (postingRec late req pl s).account = some a)
    (hy : (postingRec late req pl s).yielded = some x) (room : ¬StoreHasRoom a s) : let t := (applyPosting late req pl s).1
    t.store = s.store ∧ t.queues = s.queues ∧ t.printers = s.printers ∧
    Posted (postingRec late req pl s) .overflow s t := by
  rw [applyPosting_eq, postingLine_some ha hy]
  generalize postingRec late req pl s = r
  obtain ⟨tables, -, screens, -, -, day, -, store, queues, printers, -⟩ := booked_frame r s
  have room' := mt (storeHasRoom_congr a store).1 room
  dsimp only
  rw [handOnLine_lost room']
  obtain ⟨store', -, queues', printers'⟩ := changePrint_store (lineOf r x s).source .overflow (booked r s)
  exact ⟨store'.trans store, queues'.trans queues, printers'.trans printers,
    (posted_booked r s).reprinted rfl rfl (by simp) (by simp)⟩

/-- In every case a posting stands last in the journal, with one print state or another (R49). -/
theorem applyPosting_posted (hd : s.day.state = .opened ∨ s.day.state = .cutoff)
    (ha : (postingRec late req pl s).yielded ≠ none → req.account ≠ none) :
    ∃ y, Posted (postingRec late req pl s) y s (applyPosting late req pl s).1 := by
  cases hy : (postingRec late req pl s).yielded with
  | none => exact ⟨_, (applyPosting_noLine hy).2.2.2.2⟩
  | some x =>
    obtain ⟨a, h⟩ := Option.ne_none_iff_exists'.1 (ha (by simp [hy]))
    by_cases room : StoreHasRoom a s
    · exact ⟨_, (applyPosting_kept hd h hy room).2⟩
    · exact ⟨_, (applyPosting_lost h hy room).2.2.2⟩

end

/-! ### What goes on after a posting -/

/-- A state t that goes on from a posting's without an append, a JOURNAL_LOW or a change of store, jobs and printers; a
position keeps its prompts and its dirty rows. -/
structure GoesOn (p : Pos) (T t : State) : Prop where
  nv : t.nv = T.nv
  jc : t.jc = T.jc
  store : t.store = T.store
  queues : t.queues = T.queues
  printers : t.printers = T.printers
  state : t.line.state = T.line.state
  messages : ∃ ms, t.line.outbound = T.line.outbound ++ ms ∧
    ∀ n c d, (⟨255, 0, .report (.journalLow n c d)⟩ : OutMsg) ∉ ms
  prompts : (rd t.screens p).prompts = (rd T.screens p).prompts
  noPrinter : (rd t.screens p).noPrinter = (rd T.screens p).noPrinter
  dirty : ∀ r ∈ (rd T.screens p).dirty, r ∈ (rd t.screens p).dirty

section
variable {late : Bool} {req : PostReq} {pl : Plan} {s t : State}

theorem GoesOn.posted {p : Pos} {T : State} (h : GoesOn p T t) {r : PostingRec} {x : PrintState} (k : Posted r x s T) :
    Posted r x s t := by
  obtain ⟨ms, ho, hm⟩ := h.messages
  exact k.goesOn h.nv h.jc h.state ms ho hm

theorem GoesOn.noLine (h : GoesOn pl.pos (applyPosting late req pl s).1 t)
    (hy : (postingRec late req pl s).yielded = none) : t.store = s.store ∧ t.queues = s.queues ∧ t.printers = s.printers ∧
      (rd t.screens pl.pos).prompts = (rd s.screens pl.pos).prompts ∧
      (rd t.screens pl.pos).noPrinter = (rd s.screens pl.pos).noPrinter ∧ Posted (postingRec late req pl s) .none s t := by
  obtain ⟨store, queues, printers, screens, k⟩ := applyPosting_noLine hy
  exact ⟨h.store.trans store, h.queues.trans queues, h.printers.trans printers, by rw [h.prompts, screens],
    by rw [h.noPrinter, screens], h.posted k⟩

theorem GoesOn.kept (h : GoesOn pl.pos (applyPosting late req pl s).1 t)
    (hd : s.day.state = .opened ∨ s.day.state = .cutoff) {a : Account} {x : LineText} (ha : req.account = some a)
    (hy : (postingRec late req pl s).yielded = some x) (room : StoreHasRoom a s) :
    LineKept pl.pos a ((postingRec late req pl s).book.map (·.bookType)) (lineOf (postingRec late req pl s) x s) s t ∧
      Posted (postingRec late req pl s) .stored s t := by
  obtain ⟨kept, k⟩ := applyPosting_kept hd ha hy room
  exact ⟨kept.congr rfl rfl rfl rfl h.store h.queues h.printers h.noPrinter h.prompts h.dirty, h.posted k⟩

theorem GoesOn.lost (h : GoesOn pl.pos (applyPosting late req pl s).1 t) {a : Account} {x : LineText}
    (ha : req.account = some a) (hy : (postingRec late req pl s).yielded = some x) (room : ¬StoreHasRoom a s) :
    t.store = s.store ∧ t.queues = s.queues ∧ t.printers = s.printers ∧ Posted (postingRec late req pl s) .overflow s t := by
  obtain ⟨store, queues, printers, k⟩ := applyPosting_lost ha hy room
  exact ⟨h.store.trans store, h.queues.trans queues, h.printers.trans printers, h.posted k⟩

end

/-! ## An accepted POST -/

section
variable (p : Pos) (ref : Option Nat) (s : State)

/-- The matching of a reference leaves every other position, and of its own screen all but a dirty row 0 (R157). -/
theorem matchEntry_others {q : Pos} (h : q ≠ p) : rd (matchEntry p ref s).posns q = rd s.posns q ∧
    rd (matchEntry p ref s).keys q = rd s.keys q ∧ rd (matchEntry p ref s).screens q = rd s.screens q := by
  unfold matchEntry
  dsimp only
  (repeat' split) <;> simp [markRow0, rd_upd_ne _ _ h]

theorem matchEntry_screen : rd (matchEntry p ref s).screens p = rd s.screens p ∨
    rd (matchEntry p ref s).screens p = (rd s.screens p).mark 0 := by
  unfold matchEntry
  dsimp only
  (repeat' split) <;> simp [markRow0]

theorem matchEntry_usage (q : Pos) : (rd (matchEntry p ref s).posns q).usage = (rd s.posns q).usage := by
  by_cases h : q = p
  · subst h
    unfold matchEntry
    dsimp only
    (repeat' split) <;> simp [markRow0]
  · rw [(matchEntry_others p ref s h).1]

end

/-- The messages a POST queues after its entry: ACCEPTED when it finds a place, and LATE_POSTING when it is raised. -/
theorem takePost_messages (h : Hdr) (req : PostReq) (pl : Plan) (s : State) :
    let T := (applyPosting (lateFlag (rd s.posns pl.pos) req.entryRef) req pl s).1
    ∃ ms, (takePost h req pl s).line.outbound = T.line.outbound ++ ms ∧
      (∀ n c d, (⟨255, 0, .report (.journalLow n c d)⟩ : OutMsg) ∉ ms) ∧
      (T.line.outbound.length < 32 → (⟨h.pos, h.tag, .reply .accepted .none⟩ : OutMsg) ∈ ms) := by
  intro T
  have answer : ∃ ms, (matchEntry pl.pos req.entryRef (reply h .accepted T)).line.outbound = T.line.outbound ++ ms ∧
      (∀ n c d, (⟨255, 0, .report (.journalLow n c d)⟩ : OutMsg) ∉ ms) ∧
      (T.line.outbound.length < 32 → (⟨h.pos, h.tag, .reply .accepted .none⟩ : OutMsg) ∈ ms) := by
    rw [(matchEntry_frame ..).1, reply_eq]
    unfold answered
    dsimp only
    split
    · exact ⟨_, rfl, by simp, by simp⟩
    · next k => exact ⟨[], by simp, by simp, fun l => absurd l k⟩
  obtain ⟨ms, ho, hlow, hreply⟩ := answer
  unfold takePost
  dsimp only
  unfold reportLate
  split
  · split
    · exact ⟨ms, ho, hlow, hreply⟩
    · rw [report_outbound, ho, List.append_assoc]
      refine ⟨_, rfl, fun n c d m => ?_, fun l => List.mem_append_left _ (hreply l)⟩
      rcases List.mem_append.1 m with m | m
      · exact hlow n c d m
      · unfold reportedOf at m
        split at m
        · simp at m
        · cases m
  · exact ⟨ms, ho, hlow, hreply⟩

/-- What a POST does after its entry, its legs and its line (R20, R157, R158). -/
theorem takePost_frame (h : Hdr) (req : PostReq) (pl : Plan) (s : State) :
    let T := (applyPosting (lateFlag (rd s.posns pl.pos) req.entryRef) req pl s).1
    let t := takePost h req pl s
    t.line.state = T.line.state ∧ t.line.timer = T.line.timer ∧ t.line.framer = T.line.framer ∧
    t.line.sending = T.line.sending ∧ t.tables = T.tables ∧ t.drawers = T.drawers ∧ t.groups = T.groups ∧ t.nv = T.nv ∧
    t.jc = T.jc ∧ t.day = T.day ∧ t.clock = T.clock ∧ t.store = T.store ∧ t.queues = T.queues ∧ t.printers = T.printers ∧
    t.engine = T.engine ∧ t.powered = T.powered ∧ t.out = T.out ∧ t.nvBefore = T.nvBefore ∧ t.freeUsed = T.freeUsed ∧
    t.pending = T.pending := by
  simp [takePost]

theorem takePost_others (h : Hdr) (req : PostReq) (pl : Plan) (s : State) {q : Pos} (hq : q ≠ pl.pos) :
    let T := (applyPosting (lateFlag (rd s.posns pl.pos) req.entryRef) req pl s).1
    let t := takePost h req pl s
    rd t.posns q = rd T.posns q ∧ rd t.keys q = rd T.keys q ∧ rd t.screens q = rd T.screens q := by
  simp [takePost, matchEntry_others _ _ _ hq]

theorem takePost_screen (h : Hdr) (req : PostReq) (pl : Plan) (s : State) :
    let T := (applyPosting (lateFlag (rd s.posns pl.pos) req.entryRef) req pl s).1
    let t := takePost h req pl s
    rd t.screens pl.pos = rd T.screens pl.pos ∨ rd t.screens pl.pos = (rd T.screens pl.pos).mark 0 := by
  simpa [takePost] using matchEntry_screen pl.pos req.entryRef
    (reply h .accepted (applyPosting (lateFlag (rd s.posns pl.pos) req.entryRef) req pl s).1)

theorem takePost_usage (h : Hdr) (req : PostReq) (pl : Plan) (s : State) (q : Pos) :
    (rd (takePost h req pl s).posns q).usage = (rd s.posns q).usage := by
  have same := (applyPosting_frame (lateFlag (rd s.posns pl.pos) req.entryRef) req pl s).2.1
  simp [takePost, matchEntry_usage, same]

/-- A POST goes on from its entry, its legs and its line. -/
theorem takePost_goesOn (h : Hdr) (req : PostReq) (pl : Plan) (s : State) :
    GoesOn pl.pos (applyPosting (lateFlag (rd s.posns pl.pos) req.entryRef) req pl s).1 (takePost h req pl s) := by
  obtain ⟨state, -, -, -, -, -, -, nv, jc, -, -, store, queues, printers, -⟩ := takePost_frame h req pl s
  obtain ⟨ms, ho, hm, -⟩ := takePost_messages h req pl s
  have screen := takePost_screen h req pl s
  refine ⟨nv, jc, store, queues, printers, state, ⟨ms, ho, hm⟩, ?_, ?_, fun r hr => ?_⟩ <;>
    rcases screen with e | e <;> rw [e]
  case refine_1.inr | refine_2.inr => rfl
  · exact hr
  · exact (mark_dirty ..).2 (Or.inr hr)

end Sys2Proof.Machine

namespace Sys2Proof.Machine

/-! ### The fields of an accepted POST -/

theorem lateFlag_iff (r : PosRec) (ref : Option Nat) :
    lateFlag r ref = true ↔ ∃ n, ref = some n ∧ ¬(r.state = .awaiting ∧ r.outstanding = some n) := by
  simp only [lateFlag, answersOutstanding, Option.any_eq_true, Bool.not_eq_true', ← Bool.not_eq_true, Bool.and_eq_true,
    beq_iff_eq]

/-- The text of the line a posting yields, by class (R19). -/
theorem lineText_eq (s : State) (req : PostReq) (pl : Plan) : lineText s req pl =
    if pl.code.cls = .nonCash then
      ⟨pl.code.name, if pl.code.direction = some .decrease then -(pl.value : Int) else pl.value, localExponent s⟩
    else ⟨pl.code.name, if pl.code.cls = .cashOut then -(req.amount : Int) else req.amount, pl.exponent⟩ := by
  unfold lineText
  cases pl.code.cls <;> simp

section
variable {late : Bool} {req : PostReq} {pl : Plan} {s : State}

theorem yielded_none (h : yieldsLine req pl.code = false) : (postingRec late req pl s).yielded = none := by
  simp [postingRec, h]

theorem yielded_some (h : yieldsLine req pl.code = true) :
    (postingRec late req pl s).yielded = some (lineText s req pl) := by
  simp [postingRec, h]

/-- The local value of a posting, in terms of its entry (R11). -/
theorem Passes.local_value {cur : CurrencyEntry} (ok : Passes req pl s cur) {c : CurrencyEntry}
    (hc : rd s.tables.currencies pl.slot = some c) : pl.exponent = c.exponent ∧ pl.value = if pl.slot = 0 then req.amount
      else convert req.amount (rateFor s pl.code.cls pl.slot) (localExponent s) c.exponent := by
  obtain rfl : cur = c := Option.some.inj (ok.currency.2.symm.trans hc)
  exact ⟨ok.exponent, ok.value⟩

end

/-- What a body that is not MALFORMED has (R6). -/
theorem postMalformed_false {b : PostBody} (h : postMalformed b = false) :
    (∃ n, b.code = some n) ∧ (∃ n, b.slot = some n) ∧ (∃ n, b.amount = some n) ∧
      (b.passbook ≠ none → b.account ≠ none) := by
  have k := mt (postMalformed_iff b).2 (Bool.not_eq_true _ ▸ h)
  simp only [not_or] at k
  obtain ⟨code, slot, amount, -, book, -⟩ := k
  exact ⟨Option.ne_none_iff_exists'.1 code, Option.ne_none_iff_exists'.1 slot, Option.ne_none_iff_exists'.1 amount,
    fun p a => book ⟨p, a⟩⟩

/-! ### What the arrival of a message leaves for a posting -/

@[simp] theorem arrived_outbound (s : State) : (arrived s).line.outbound = s.line.outbound := by
  rw [arrived_eq]
  unfold arrive
  dsimp only
  split <;> rfl

theorem Appended.arrived {bs : List EntryBody} {s t : State} (h : Appended bs (Machine.arrived s) t) : Appended bs s t := by
  unfold Appended LowSpaceTold Reported journal Machine.slotsUsed businessDate at h ⊢
  simpa only [arrived_frame, arrived_outbound] using h

theorem arrived_postingSeq (s : State) : postingSeq (arrived s) = postingSeq s := by
  simp [postingSeq, midnightBodies]

/-- A POST's line with the fields its passbook part gives (R19). -/
theorem lineOf_online {h : Hdr} {b : PostBody} {late : Bool} {pl : Plan} {s : State} {x : LineText} {k : PassbookPart}
    (hk : b.passbook = some k) : lineOf (postingRec late (postRequest h b) pl s) x s =
      ⟨businessDate s, x.name, x.amount, x.exponent, k.balance, false, some (k.page, k.line), postingSeq s⟩ := by
  simp [lineOf, postingRec, postRequest, hk]

/-- An event that changed of s no more than journaling and reporting do, the positions with their screens, keys and drawers,
the store, the jobs and printers, and the clock. -/
theorem eq_since {s t : State} {c : Clock} (hline : t.line = { s.line with outbound := t.line.outbound })
    (htables : t.tables = s.tables) (hgroups : t.groups = s.groups) (hday : t.day = s.day) (hclock : t.clock = c)
    (hengine : t.engine = s.engine) (hpowered : t.powered = s.powered) (hfree : t.freeUsed = s.freeUsed)
    (hpending : t.pending = s.pending) :
    t = { since s t with drawers := t.drawers, posns := t.posns, keys := t.keys, screens := t.screens, store := t.store,
                         queues := t.queues, printers := t.printers, clock := c } := by
  unfold since
  rw [← hline, ← htables, ← hgroups, ← hday, ← hclock, ← hengine, ← hpowered, ← hfree, ← hpending]

/-- Settles O30: the posting recorded and applied in the state its message arrives in, and what follows it. -/
theorem acceptedPostIsJournaledAndApplied : Obligations.AcceptedPostIsJournaledAndApplied := by
  intro h b pl s ht hm hok seq
  obtain ⟨cur, ok⟩ := checkPosting_ok hok
  obtain ⟨⟨code, hcode⟩, ⟨slot, hslot⟩, ⟨amount, hamount⟩, book⟩ := postMalformed_false hm
  have hexec : exec (.post h b) s = .next (takePost h (postRequest h b) pl (arrived s)) := by
    rw [execPost_eq h b ht, if_neg (by simp [hm]), checkPosting_arrived, hok]
  have hseq : postingSeq (arrived s) = seq := arrived_postingSeq s
  have hdate : businessDate (arrived s) = businessDate s := by simp [businessDate]
  have hmid : midnightBodies (arrived s) = midnightBodies s := by simp [midnightBodies]
  have hused : slotsUsed (arrived s) = slotsUsed s := by simp [slotsUsed]
  have hclock : (arrived s).clock = s.clock := by simp
  have hstore : (arrived s).store = s.store := by simp
  have hqueues : (arrived s).queues = s.queues := by simp
  have hprinters : (arrived s).printers = s.printers := by simp
  have hday : (arrived s).day.state = .opened ∨ (arrived s).day.state = .cutoff := by
    rw [(arrived_frame s).2.2.2.2.2.2.2.1]
    exact ok.day.imp id And.right
  obtain ⟨req, hreq⟩ : ∃ req, req = postRequest h b := ⟨_, rfl⟩
  obtain ⟨late, hlate⟩ : ∃ l, l = lateFlag (rd (arrived s).posns pl.pos) req.entryRef := ⟨_, rfl⟩
  obtain ⟨T, hT⟩ : ∃ T, T = (applyPosting late req pl (arrived s)).1 := ⟨_, rfl⟩
  obtain ⟨t, htt⟩ : ∃ t, t = takePost h req pl (arrived s) := ⟨_, rfl⟩
  obtain ⟨g, hg⟩ : ∃ g, g = postingRec late req pl (arrived s) := ⟨_, rfl⟩
  have needs : (postingRec late req pl (arrived s)).yielded ≠ none → req.account ≠ none := fun y => by
    refine hreq ▸ book fun k => y (yielded_none ?_)
    simp [yieldsLine, hreq, postRequest, k]
  -- what the recording of the posting leaves, and what follows it
  have recorded := applyPosting_frame late req pl (arrived s)
  have screens := applyPosting_screen (late := late) (req := req) (pl := pl) hday
  have after := takePost_frame h req pl (arrived s)
  have others := fun q => takePost_others h req pl (arrived s) (q := q)
  have messages := takePost_messages h req pl (arrived s)
  have usage := takePost_usage h req pl (arrived s)
  have goes := takePost_goesOn h req pl (arrived s)
  obtain ⟨y, posted⟩ := applyPosting_posted (late := late) (req := req) (pl := pl) (s := arrived s) hday needs
  rw [← hreq, ← htt] at hexec
  dsimp only at recorded screens after others messages usage
  rw [← hlate, ← htt] at goes
  have stands : Posted g y (arrived s) t := hg ▸ goes.posted posted
  simp only [← hlate, ← hT, ← htt, ← hg] at recorded screens after others messages usage
  have seen {y : PrintState} (k : Posted (postingRec late req pl (arrived s)) y (arrived s) t) (e : Entry)
      (he : entryAt seq t = some e) : e.print = y := k.shows (by rwa [hseq])
  obtain ⟨ms, ho, -, hreply⟩ := messages
  obtain ⟨rtables, rposns, rkeys, rgroups, rday, rclock, rengine, rpowered, rout, -, rfree, rpending, rdrawers, rline⟩ :=
    recorded
  obtain ⟨astate, atimer, aframer, asending, atables, adrawers, agroups, -, -, aday, aclock, -, -, -, aengine, apowered, aout,
    -, afree, apending⟩ := after
  have online : firstForward (.posting g) = .notNeeded := by
    rw [hg, hreq]; rfl
  refine ⟨t, g, hexec, ?appended, ?room, ?last, ?fields, fun no => ?noLine, fun yes part => ?line, fun none => ?unyielded,
    fun a x k ha hx hk => ⟨fun room => ?kept, fun room => ?lost⟩, ?drawers, fun q => (usage q).trans (by simp),
    fun q hq => ?others, fun few => ?replied, by rw [aout, rout]; simp, ?frame⟩
  case appended =>
    have := stands.appended
    rw [counting_notNeeded (by rw [online]; decide), hmid] at this
    exact this.arrived
  case room =>
    have used := stands.slotsUsed
    have free := (fits_business_iff s).1 ok.room
    rw [hmid, hused] at used
    omega
  case last =>
    obtain ⟨js, e, he, -, hb, hs, hk, hz, htime, hc, hf, -⟩ := stands.last
    rw [hclock, ok.clock] at htime hc
    exact ⟨e, by rw [he]; simp, hb, hs.trans hseq, hk, hz, htime, hc, hf.trans online⟩
  case fields =>
    subst hg hreq
    refine ⟨rfl, rfl, ok.pos.symm, ?_, ok.code, ?_, ?_, rfl, rfl, ok.serial, rfl, fun c hc => ok.local_value hc, rfl, rfl, rfl,
      rfl, rfl, ?_⟩
    · simp [postingRec, postRequest, hcode]
    · have := ok.currency.1
      simp [postingRec, postRequest, hslot] at this ⊢
      exact this.symm
    · simp [postingRec, postRequest, hamount]
    · show late = true ↔ _
      rw [hlate, lateFlag_iff]
      simp [postRequest]
  case noLine =>
    subst hg hreq
    refine yielded_none ?_
    rcases no with no | no <;> simp [yieldsLine, postRequest, no]
  case line =>
    subst hg hreq
    rw [yielded_some (by simpa [yieldsLine, postRequest, yes, Option.isSome_iff_ne_none] using part), lineText_eq]
    have exponent : localExponent (arrived s) = localExponent s := by simp [localExponent]
    rw [exponent]
    rfl
  case unyielded =>
    obtain ⟨store, queues, printers, -, -, k⟩ := goes.noLine (hg ▸ none)
    exact ⟨store.trans hstore, queues.trans hqueues, printers.trans hprinters, seen k⟩
  case kept =>
    have account : req.account = some a := hreq ▸ ha
    obtain ⟨kept, stored⟩ := goes.kept hday account (hg ▸ hx) ((storeHasRoom_congr a hstore).2 room)
    have type : (postingRec late req pl (arrived s)).book.map (·.bookType) = some k.bookType := by
      rw [hreq]; simp [postingRec, postRequest, hk]
    rw [type, hreq, lineOf_online hk, hseq, hdate] at kept
    obtain ⟨lines, other, types, marked, -⟩ := kept.congr (by simp) hstore.symm hqueues.symm hprinters.symm rfl rfl rfl
      rfl rfl fun _ h => h
    exact ⟨lines, other, types, seen stored, marked, fun m => kept.attempted ((jobMarked_congr a hstore).trans m)⟩
  case lost =>
    have account : req.account = some a := hreq ▸ ha
    obtain ⟨store, queues, printers, k⟩ := goes.lost account (hg ▸ hx) (mt (storeHasRoom_congr a hstore).1 room)
    exact ⟨store.trans hstore, queues.trans hqueues, printers.trans hprinters, seen k⟩
  case drawers =>
    rw [adrawers, rdrawers]
    exact applyLegs_drawers_congr _ (by simp)
  case others =>
    obtain ⟨opos, okeys, oscreens⟩ := others q hq
    rw [opos, okeys, oscreens, rposns, rkeys, screens.2 q hq]
    simp
  case replied =>
    have most := booked_outbound_length g (arrived s)
    have least := (booked_line g (arrived s)).2.length_le
    rw [← rline, arrived_outbound] at most least
    unfold Replied
    rw [ho, List.drop_append_of_le_length least]
    exact List.mem_append_right _ (hreply (by omega))
  case frame =>
    have line : T.line = { (arrived s).line with outbound := T.line.outbound } := by
      rw [rline]; exact (booked_line g (arrived s)).1
    rw [line] at astate atimer aframer asending
    exact eq_since (lineIf_eq astate atimer aframer asending) (atables.trans rtables) (agroups.trans rgroups)
      (aday.trans rday) (aclock.trans (rclock.trans (by simp))) (aengine.trans rengine) (apowered.trans rpowered)
      (afree.trans rfree) (apending.trans rpending)

end Sys2Proof.Machine

namespace Sys2Proof.Machine

/-! ## The editor of one position -/

/-- The editor of a position acts: its key unit, its screen and the outputs aside, nothing changes. -/
def EditorStep (p : Pos) (s t : State) : Prop :=
  t = { s with keys := t.keys, screens := t.screens, out := t.out } ∧ OthersKept p s t

theorem OthersKept.rfl (p : Pos) (s : State) : OthersKept p s s := fun _ _ => ⟨Eq.refl _, Eq.refl _, Eq.refl _, Eq.refl _⟩

theorem OthersKept.trans {p : Pos} {s t u : State} (h : OthersKept p s t) (k : OthersKept p t u) : OthersKept p s u :=
  fun q hq => by
    obtain ⟨h1, h2, h3, h4⟩ := h q hq
    obtain ⟨k1, k2, k3, k4⟩ := k q hq
    exact ⟨k1.trans h1, k2.trans h2, k3.trans h3, k4.trans h4⟩

namespace EditorStep
variable {p : Pos} {s t u : State}

theorem rfl : EditorStep p s s := ⟨Eq.refl _, .rfl p s⟩

theorem trans (h : EditorStep p s t) (k : EditorStep p t u) : EditorStep p s u :=
  ⟨k.1.trans (by rw [h.1]), h.2.trans k.2⟩

theorem updKeys (f : KeyUnit → KeyUnit) : EditorStep p s (s.updKeys p f) :=
  ⟨Eq.refl _, fun _ hq => ⟨Eq.refl _, rd_upd_ne _ _ hq, Eq.refl _, Eq.refl _⟩⟩

theorem updScreen (f : Screen → Screen) : EditorStep p s (s.updScreen p f) :=
  ⟨Eq.refl _, fun _ hq => ⟨Eq.refl _, Eq.refl _, rd_upd_ne _ _ hq, Eq.refl _⟩⟩

theorem tone : EditorStep p s (tone p s) := by
  unfold Machine.tone
  split
  · exact ⟨Eq.refl _, fun _ _ => ⟨Eq.refl _, Eq.refl _, Eq.refl _, Eq.refl _⟩⟩
  · exact rfl

theorem notice (x : List Byte) : EditorStep p s (notice p x s) := updScreen _

theorem setCursor (i x : Nat) : EditorStep p s (setCursor p i x s) := by
  unfold Machine.setCursor
  dsimp only
  split
  · exact rfl
  · split
    · exact rfl
    · exact (updKeys _).trans (updScreen _)

theorem cursorToFirst : EditorStep p s (cursorToFirst p s) := by
  unfold Machine.cursorToFirst
  split
  · exact setCursor _ _
  · exact rfl

theorem setValue (i : Nat) (v : List Byte) : EditorStep p s (setValue p i v s) := by
  unfold Machine.setValue
  split
  · exact rfl
  · exact (updKeys _).trans (updScreen _)

theorem resetField (fs : List FieldDesc) (i : Nat) : EditorStep p s (resetField p fs s i) := by
  unfold Machine.resetField
  split
  · exact setValue _ _
  · exact rfl

theorem clearForm : EditorStep p s (clearForm p s) := by
  have fold (fs : List FieldDesc) (is : List Nat) (s : State) : EditorStep p s (is.foldl (Machine.resetField p fs) s) := by
    induction is generalizing s with
    | nil => exact rfl
    | cons i is ih => exact (resetField fs i).trans (ih _)
  exact (fold _ _ s).trans cursorToFirst

end EditorStep

/-! ### The cursor -/

section
variable {p : Pos} {i x : Nat} {s : State} {f : FieldDesc}

/-- The cursor's move to a field of the form (R96, R111). -/
theorem setCursor_keys (h : (currentFields s p)[i]? = some f) :
    rd (setCursor p i x s).keys p = { rd s.keys p with cursorField := some i, textPos := x } := by
  unfold setCursor
  dsimp only
  rw [h]
  split
  · next k => rw [← k.1, ← k.2]
  · simp

theorem setCursor_screen (h : (currentFields s p)[i]? = some f) : rd (setCursor p i x s).screens p =
    if (rd s.keys p).cursorField = some i ∧ (rd s.keys p).textPos = x then rd s.screens p
    else { rd s.screens p with cursor := some (cursorCell f x) }.mark (cursorCell f x).1 := by
  unfold setCursor
  dsimp only
  rw [h]
  split <;> simp

end

theorem cursorCell_row (f : FieldDesc) (x : Nat) : (cursorCell f x).1 = f.row := by
  unfold cursorCell
  split <;> rfl

/-! ### Tokens the editor takes -/

/-- A position with the token at the head of its queue taken out. -/
def popped (p : Pos) (rest : List Token) (s : State) : State := s.updKeys p fun k => { k with queue := rest }

/-- A token that acts is taken out of the queue and acts (R110). -/
theorem takeToken_acts {p : Pos} {tok : Token} {rest : List Token} {s : State} {want : Token → Bool}
    {act : Token → State → State} (hq : (rd s.keys p).queue = tok :: rest) (hw : want tok = true) (ha : Acts s p tok) :
    takeToken p want act s = act tok (popped p rest s) := by
  unfold takeToken takeMode
  rw [hq]
  dsimp only
  rw [if_pos hw]
  rcases ha with h | ⟨h, hf⟩ | ⟨h, hf, hs⟩
  · rw [h]; rfl
  · rw [h]; dsimp only; rw [if_pos hf]; rfl
  · rw [h]; dsimp only; rw [if_pos hf]; dsimp only; rw [if_pos hs]; rfl

theorem keyCommand_acts {p : Pos} {tok : Token} {rest : List Token} {s : State} {act : State → State}
    (hp : s.powered = true) (hq : (rd s.keys p).queue = tok :: rest) (ha : Acts s p tok) :
    keyCommand p tok act s = .next (act (popped p rest s.begin)) := by
  unfold keyCommand
  rw [event_eq _ hp, takeToken_acts (s := s.begin) hq (by simp) ha]

/-! ### Refusals -/

/-- A screen after the cursor has moved to the first place of a field, unless it stood there (R96, R111). -/
def movedTo (k : KeyUnit) (field : Option (Nat × FieldDesc)) (sc : Screen) : Screen :=
  match field with
  | none => sc
  | some x => if k.cursorField = some x.1 ∧ k.textPos = 0 then sc
    else { sc with cursor := some (cursorCell x.2 0) }.mark x.2.row

/-- The cursor's move, in the terms a refusal tells it. -/
theorem movedTo_spec (k : KeyUnit) (field : Option (Nat × FieldDesc)) (sc : Screen) :
    let moves : Nat × FieldDesc → Prop := fun x => field = some x ∧ ¬(k.cursorField = some x.1 ∧ k.textPos = 0)
    let new := movedTo k field sc
    SameButDirty { sc with cursor := new.cursor } new ∧ (∀ r ∈ sc.dirty, r ∈ new.dirty) ∧
    (∀ x, moves x → new.cursor = some (cursorCell x.2 0) ∧ x.2.row ∈ new.dirty) ∧
    ((∀ x, ¬moves x) → new.cursor = sc.cursor) := by
  cases field with
  | none => exact ⟨rfl, fun _ h => h, nofun, fun _ => rfl⟩
  | some x =>
    unfold movedTo
    dsimp only
    split
    · next h => exact ⟨rfl, fun _ m => m, fun y hy => absurd (by obtain ⟨e, n⟩ := hy; cases e; exact n h) id, fun _ => rfl⟩
    · next h =>
      refine ⟨rfl, fun r m => (mark_dirty ..).2 (Or.inr m), fun y hy => ?_, fun k => absurd ⟨rfl, h⟩ (k x)⟩
      obtain ⟨e, -⟩ := hy
      cases e
      exact ⟨rfl, (mark_dirty ..).2 (Or.inl rfl)⟩

section
variable {p : Pos} {rest : List Token} {s t : State}

theorem refused_intro (he : EditorStep p s.begin t) (hk : rd t.keys p = { rd s.keys p with queue := rest })
    (hs : rd t.screens p = rd s.screens p) (ho : t.out = toneOut s p) : Refused p rest s t := ⟨he, hk, hs, ho⟩

/-- A refusal with a notice and a move of the cursor, told of its screen in one equation. -/
theorem refusedWith_intro {text : Option (List Byte)} {field : Option (Nat × FieldDesc)} {shown : Screen}
    (hshown : shown = text.elim (rd s.screens p) fun x => Screen.partNotice x (rd s.screens p))
    (he : EditorStep p s.begin t) (ho : t.out = toneOut s p)
    (hk : rd t.keys p = { rd s.keys p with queue := rest,
                                           cursorField := field.elim (rd s.keys p).cursorField fun x => some x.1,
                                           textPos := if field = none then (rd s.keys p).textPos else 0 })
    (hs : rd t.screens p = movedTo (rd s.keys p) field shown) : RefusedWith p rest text field s t := by
  have hcur : shown.cursor = (rd s.screens p).cursor := by
    rw [hshown]
    cases text with
    | none => rfl
    | some x => exact (partNotice_frame ..).2.2.1
  have moved := movedTo_spec (rd s.keys p) field shown
  dsimp only at moved
  rw [← hs, hcur] at moved
  subst hshown
  refine ⟨he, ho, hk.trans (by cases field <;> rfl), ?_⟩
  cases text <;> exact moved

end

/-! ## TRANSMIT -/

/-- What the taking of a token leaves of what TRANSMIT reads. -/
@[simp] theorem popped_frame (p : Pos) (rest : List Token) (s : State) :
    (popped p rest s).line = s.line ∧ (popped p rest s).tables = s.tables ∧ (popped p rest s).posns = s.posns ∧
    (popped p rest s).screens = s.screens ∧ (popped p rest s).drawers = s.drawers ∧ (popped p rest s).groups = s.groups ∧
    (popped p rest s).nv = s.nv ∧ (popped p rest s).jc = s.jc ∧ (popped p rest s).day = s.day ∧
    (popped p rest s).clock = s.clock ∧ (popped p rest s).store = s.store ∧ (popped p rest s).queues = s.queues ∧
    (popped p rest s).printers = s.printers ∧ (popped p rest s).engine = s.engine ∧
    (popped p rest s).powered = s.powered ∧ (popped p rest s).out = s.out ∧ (popped p rest s).nvBefore = s.nvBefore ∧
    (popped p rest s).nvLog = s.nvLog ∧ (popped p rest s).freeUsed = s.freeUsed ∧
    (popped p rest s).pending = s.pending ∧ rd (popped p rest s).keys p = { rd s.keys p with queue := rest } := by
  simp [popped]

theorem popped_step (p : Pos) (rest : List Token) (s : State) : EditorStep p s (popped p rest s) := .updKeys _

theorem popped_fieldValue (p : Pos) (rest : List Token) (s : State) (i : Nat) :
    fieldValue (popped p rest s) p i = fieldValue s p i := by
  simp [fieldValue]

/-- The form a position shows reads its screen and the tables alone. -/
theorem currentForm_congr {p : Pos} {s t : State} (hf : (rd t.screens p).form = (rd s.screens p).form)
    (ht : t.tables = s.tables) : currentForm t p = currentForm s p := by
  have : formDesc t = formDesc s := by funext n; simp only [formDesc, ht]
  simp only [currentForm, hf, this]

theorem currentFields_congr {p : Pos} {s t : State} (hf : (rd t.screens p).form = (rd s.screens p).form)
    (ht : t.tables = s.tables) : currentFields t p = currentFields s p := by
  simp only [currentFields, currentForm_congr hf ht]

/-- The fields of the form a position shows. -/
theorem currentFields_eq {p : Pos} {s : State} {n : Fin 32} {d : FormDesc} (hf : (rd s.screens p).form = some n)
    (hd : rd s.tables.forms n = some d) : currentFields s p = d.fields := by
  simp [currentFields, currentForm, hf, formDesc, hd]

/-- The first mandatory field that is not filled, if there is one (R116). -/
theorem firstUnfilled_some {p : Pos} {s : State} {i : Nat} {f : FieldDesc} {fs : List FieldDesc}
    (hfs : currentFields s p = fs) (hi : fs[i]? = some f) (hm : f.mandatory = true)
    (hu : isFilled f (fieldValue s p i) = false)
    (first : ∀ j g, j < i → ¬(fs[j]? = some g ∧ g.mandatory = true ∧ isFilled g (fieldValue s p j) = false)) :
    firstUnfilled s p = some i := by
  unfold firstUnfilled
  rw [hfs]
  refine List.find?_range_eq_some.2 ⟨by simp [hi, hm, hu], ?_, fun j hj => ?_⟩
  · exact List.mem_range.2 (List.getElem?_eq_some_iff.1 hi).1
  · have := first j
    cases e : fs[j]? with
    | none => rfl
    | some g => simpa [e, hj, ← Bool.not_eq_true, ← imp_iff_not_or] using this g hj

theorem firstUnfilled_none {p : Pos} {s : State} {fs : List FieldDesc} (hfs : currentFields s p = fs)
    (all : ∀ i, ∀ f : FieldDesc, fs[i]? = some f → f.mandatory = true → isFilled f (fieldValue s p i) = true) :
    firstUnfilled s p = none := by
  unfold firstUnfilled
  rw [hfs]
  refine List.find?_eq_none.2 fun i _ => ?_
  cases e : fs[i]? with
  | none => simp
  | some f =>
    have := all i f e
    simpa using this

section
variable {p : Pos} {rest : List Token} {s : State} {n : Fin 32} {d : FormDesc}

theorem transmitForm_none (hf : (rd s.screens p).form = none) : transmitForm p s = tone p s := by
  unfold transmitForm
  rw [hf]

theorem transmitForm_unfilled {i : Nat} (hf : (rd s.screens p).form = some n) (hd : rd s.tables.forms n = some d)
    (hu : firstUnfilled s p = some i) : transmitForm p s = tone p (setCursor p i 0 s) := by
  simp only [transmitForm, hf, formDesc, hd, hu]

theorem transmitForm_filled (hf : (rd s.screens p).form = some n) (hd : rd s.tables.forms n = some d)
    (hu : firstUnfilled s p = none) : transmitForm p s = routeTransmit p n d s := by
  simp only [transmitForm, hf, formDesc, hd, hu]

end

theorem toneOut_congr {p : Pos} {s t : State} (h : (rd t.screens p).present = (rd s.screens p).present) :
    toneOut t p = toneOut s p := by
  simp only [toneOut, h]

/-! ### Refused without an attempt -/

section
variable {p : Pos} {rest : List Token} {s : State} {n : Fin 32} {d : FormDesc}

/-- A TONE alone answers the token. -/
theorem refused_tone (p : Pos) (rest : List Token) (s : State) : Refused p rest s (tone p (popped p rest s.begin)) :=
  refused_intro ((popped_step p rest s.begin).trans .tone) (by simp) (by simp) (by
    rw [tone_out, toneOut_congr (s := s) (by simp)]; simp)

/-- A TONE answers the token, and the cursor goes to a field. -/
theorem refused_cursor {i : Nat} {f : FieldDesc} (h : (currentFields s p)[i]? = some f) :
    RefusedWith p rest none (some (i, f)) s (tone p (setCursor p i 0 (popped p rest s.begin))) := by
  have h' : (currentFields (popped p rest s.begin) p)[i]? = some f := by
    rwa [currentFields_congr (s := s) (by simp) (by simp)]
  have screen := setCursor_screen (x := 0) h'
  have keys := setCursor_keys (x := 0) h'
  refine refusedWith_intro rfl ((popped_step p rest s.begin).trans ((EditorStep.setCursor i 0).trans .tone)) ?_ ?_ ?_
  · rw [tone_out, toneOut_congr (s := s)]
    · simp
    · rw [screen]
      split <;> simp
  · simp [keys]
  · simp [screen, movedTo, cursorCell_row]

/-- A notice and a TONE answer the token. -/
theorem refused_notice (p : Pos) (rest : List Token) (x : List Byte) (s : State) :
    RefusedWith p rest (some x) none s (tone p (notice p x (popped p rest s.begin))) :=
  refusedWith_intro rfl ((popped_step p rest s.begin).trans ((EditorStep.notice x).trans .tone))
    (by rw [tone_out, toneOut_congr (s := s) (by simp)]; simp) (by simp) (by simp [movedTo])

end

/-! ### Sent on the line -/

section
variable {p : Pos} {rest : List Token} {s : State} {n : Fin 32} {d : FormDesc}

theorem popped_sentFields : sentFields (popped p rest s) p d = sentFields s p d := by
  simp [sentFields, popped_fieldValue]

/-- What the cursor's move to the first field leaves of the key unit and of the dirty rows. -/
theorem cursorToFirst_kept (p : Pos) (s : State) :
    (rd (cursorToFirst p s).keys p).queue = (rd s.keys p).queue ∧
    (rd (cursorToFirst p s).keys p).values = (rd s.keys p).values ∧
    (rd (cursorToFirst p s).keys p).timer = (rd s.keys p).timer ∧
    ∀ r ∈ (rd s.screens p).dirty, r ∈ (rd (cursorToFirst p s).screens p).dirty := by
  unfold cursorToFirst setCursor
  dsimp only
  (repeat' split) <;> simp +contextual

/-- An ENTRY queued from READY (R117, R83, R118). -/
theorem sendEntry_spec (hroom : s.line.outbound.length < 28) :
    let t := sendEntry p n d (popped p rest s.begin)
    OthersKept p s t ∧ rd t.posns p = { rd s.posns p with
        state := .awaiting, outstanding := some (rd s.posns p).entryNo, entryNo := ((rd s.posns p).entryNo + 1) % 4096 } ∧
      (rd t.keys p).timer = some ⟨s.tables.params.entryTimer, s.tables.params.entryTimer⟩ ∧
      (rd t.keys p).queue = rest ∧ (rd t.keys p).values = (rd s.keys p).values ∧ 0 ∈ (rd t.screens p).dirty ∧
      t = { s.begin with posns := t.posns, keys := t.keys, screens := t.screens,
                         line := { s.line with outbound := s.line.outbound ++
                           [⟨p.val, 0, .entry p (rd s.posns p).entryNo n (sentFields s p d)⟩] } } := by
  have sent : sentFields (popped p rest s.begin) p d = sentFields s p d := popped_sentFields
  obtain ⟨w, hw⟩ : ∃ w, w = markRow0 p (((enqueue (entryMessage (popped p rest s.begin) p n d)
      (popped p rest s.begin)).updPos p moveToAwaiting).updKeys p fun k =>
        { k with timer := Timer.start s.tables.params.entryTimer }) := ⟨_, rfl⟩
  have eq : sendEntry p n d (popped p rest s.begin) = cursorToFirst p w := by
    rw [sendEntry, if_pos ((outboundRoom_iff _).2 (by simpa using hroom)), hw]
    simp
  have step : EditorStep p w (cursorToFirst p w) := .cursorToFirst
  have kept := cursorToFirst_kept p w
  have out : (cursorToFirst p w).out = w.out := by simp
  have posns : (cursorToFirst p w).posns = w.posns := by simp
  dsimp only
  rw [eq]
  generalize cursorToFirst p w = t at step kept out posns
  obtain ⟨queue, values, timer, dirty⟩ := kept
  refine ⟨fun q hq => ?_, ?_, ?_, ?_, ?_, dirty 0 ?_, ?_⟩
  · obtain ⟨h1, h2, h3, h4⟩ := step.2 q hq
    rw [h1, h2, h3, h4, hw]
    simp [markRow0, rd_upd_ne _ _ hq, popped]
  · rw [posns, hw]; simp [moveToAwaiting, nextEntryNo]
  · rw [timer, hw]; simp [Timer.start]
  · rw [queue, hw]; simp
  · rw [values, hw]; simp
  · rw [hw]; simp [markRow0]
  · rw [step.1, out, hw]
    simp [entryMessage, sent]

/-- A sign-on ENTRY queued (R117, R83). -/
theorem sendSignOn_spec (hroom : s.line.outbound.length < 28) :
    let t := sendSignOn p n d (popped p rest s.begin)
    OthersKept p s t ∧ rd t.posns p = { rd s.posns p with entryNo := ((rd s.posns p).entryNo + 1) % 4096 } ∧
      rd t.keys p = { rd s.keys p with queue := rest } ∧ t.screens = s.screens ∧
      t = { s.begin with posns := t.posns, keys := t.keys,
                         line := { s.line with outbound := s.line.outbound ++
                           [⟨p.val, 0, .entry p (rd s.posns p).entryNo n (sentFields s p d)⟩] } } := by
  have sent : sentFields (popped p rest s.begin) p d = sentFields s p d := popped_sentFields
  dsimp only
  rw [sendSignOn, if_pos ((outboundRoom_iff _).2 (by simpa using hroom))]
  refine ⟨fun q hq => ?_, ?_, ?_, ?_, ?_⟩
  · simp [rd_upd_ne _ _ hq, popped]
  · simp [nextEntryNo]
  · simp
  · simp
  · simp only [entryMessage, sent]
    simp [enqueue, State.updPos, State.updLine, popped, State.updKeys, State.begin]

/-- With the outbound queue full nothing is sent (R117, R174). -/
theorem lineBusy_spec (p : Pos) (rest : List Token) (s : State) :
    let t := notice p textLineBusy (popped p rest s.begin)
    EditorOnly p s t ∧ t.out = [] ∧ rd t.keys p = { rd s.keys p with queue := rest } ∧
      rd t.screens p = Screen.partNotice textLineBusy (rd s.screens p) :=
  ⟨(popped_step p rest s.begin).trans (.notice _), by simp, by simp, by simp⟩

end

/-! ## The checks of a stand-in attempt -/

section
variable {p : Pos} {d : FormDesc} {req : PostReq} {pl : Plan} {s t : State}

/-- The stand-in checks read the values of the position's fields, the form it shows, the positions' states and usages, and
what the checks of Table 1-1 read. -/
theorem standInCheck_congr (hv : (rd t.keys p).values = (rd s.keys p).values)
    (hf : ∀ q, (rd t.screens q).form = (rd s.screens q).form)
    (hp : ∀ q, (rd t.posns q).state = (rd s.posns q).state ∧ (rd t.posns q).usage = (rd s.posns q).usage)
    (hday : t.day = s.day) (hclock : t.clock = s.clock) (htables : t.tables = s.tables) (hnv : t.nv = s.nv) :
    standInCheck t p d = standInCheck s p d := by
  have value : fieldValue t p = fieldValue s p := by funext i; simp only [fieldValue, hv]
  have request : standInRequest t p d = standInRequest s p d := by
    unfold standInRequest accountText roleNumber roleValue
    rw [value]
  have posting (req : PostReq) := checkPosting_congr req hday hclock htables hnv
  have refusal (req : PostReq) (pl : Plan) : standInRefusal req pl t = standInRefusal req pl s := by
    have form := currentForm_congr (hf pl.pos) htables
    have balancing : (fun q => (rd t.posns q).state == .balancing) = fun q => (rd s.posns q).state == .balancing := by
      funext q; rw [(hp q).1]
    unfold standInRefusal positionEntry
    rw [form, htables, (hp _).1, (hp _).2, balancing]
  unfold standInCheck
  simp only [request, posting, refusal]

/-- A stand-in request answers the posting map at its own position, with no reference and no passbook part (R119). -/
theorem standInRequest_ok (h : standInRequest s p d = .ok req) :
    req.origin = .standIn ∧ req.pos = p.val ∧ req.passbook = none ∧ req.entryRef = none := by
  unfold standInRequest at h
  dsimp only at h
  split at h
  · cases h
  · cases h
    exact ⟨rfl, rfl, rfl, rfl⟩

/-- An optional refusal as an answer. -/
def answerOf : Option Status → Except Status Unit
  | some st => .error st
  | none => .ok ()

theorem answerOf_ite (c : Prop) [Decidable c] (st : Status) (r : Option Status) :
    answerOf (if c then some st else r) = if c then .error st else answerOf r := by
  split <;> rfl

theorem counterpartyOf_eq_some (q : Pos) :
    counterpartyOf req p = some q ↔ req.counterparty = some q.val ∧ q ≠ p := by
  unfold counterpartyOf
  rw [Option.filter_eq_some_iff, Option.bind_eq_some_iff, bne_iff_ne]
  refine and_congr_left fun _ => ⟨fun ⟨n, hn, h⟩ => ?_, fun h => ⟨_, h, posOf_val q⟩⟩
  unfold posOf at h
  split at h
  · cases h; exact hn
  · cases h

/-- The transaction limit of a posting's class, absent or 0 when it is not set (R4, R155). -/
theorem overLimit_iff (v : Vector (Option Nat) 4) (c value : Nat) :
    ((rdN v c).join.getD 0 = 0 ∨ (rdN v c).join.getD 0 < value) ↔
      ¬∃ i : Fin 4, i.val = c ∧ ∃ most, rd v i = some most ∧ 0 < most ∧ value ≤ most := by
  by_cases h : c < 4
  · have i (i : Fin 4) : i.val = c ↔ i = ⟨c, h⟩ := by rw [Fin.ext_iff]
    simp only [i, exists_eq_left, rdN, h, dite_true, Option.join_some]
    cases rd v ⟨c, h⟩ with
    | none => simp
    | some m => simp; omega
  · have i (i : Fin 4) : i.val ≠ c := by omega
    simp [rdN, h, i]

/-- The checks of Table 10-1 in their order (R155). -/
theorem standInRefusal_follows {cur : CurrencyEntry} (ok : Passes req pl s cur) (hpos : req.pos = p.val)
    (hform : currentForm s p = some d) :
    Follows (standInChecks p d req pl s) (fun _ => True) (answerOf (standInRefusal req pl s)) := by
  obtain rfl : pl.pos = p := Fin.ext (ok.pos.symm.trans hpos)
  unfold standInRefusal
  dsimp only
  simp only [answerOf_ite, hform]
  refine Follows.check Iff.rfl fun ready => Follows.check (by simp) fun _ => Follows.check (by simp) fun _ =>
    Follows.check (overLimit_iff ..) fun _ => Follows.check Nat.not_le.symm fun _ =>
    Follows.check ?counterparty fun _ => ⟨fun _ h => h, trivial⟩
  -- a position that attempts is READY, so that it is no BALANCING counterparty of its own
  simp only [Option.any_eq_true, beq_iff_eq, counterpartyOf_eq_some, Classical.not_imp, not_forall, ne_eq, not_not]
  refine and_congr_right fun _ => ⟨fun ⟨q, ⟨hq, _⟩, hb⟩ => ⟨q, hq, hb⟩, fun ⟨q, hq, hb⟩ => ⟨q, ⟨hq, ?_⟩, hb⟩⟩
  rintro rfl
  rw [ready] at hb
  cases hb

/-- A refusal of a stand-in attempt has the status of the first check that fails: of the form, the posting map, Table 1-1 and
Table 10-1 in that order (R119). -/
theorem standInCheck_error {st : Status} (hform : currentForm s p = some d)
    (h : d.standIn = false ∧ st = .formNotStandin ∨ d.standIn = true ∧ (standInRequest s p d = .error st ∨
      ∃ req, standInRequest s p d = .ok req ∧ (FirstFails (postingChecks req s) st ∨
        ∃ pl, checkPosting req s = .ok pl ∧ FirstFails (standInChecks p d req pl s) st))) :
    standInCheck s p d = .error st := by
  unfold standInCheck
  rcases h with ⟨hs, rfl⟩ | ⟨hs, h | ⟨req, hr, h | ⟨pl, hok, h⟩⟩⟩
  · rw [if_pos hs]
  · rw [if_neg (by simp [hs]), h]
  · rw [if_neg (by simp [hs]), hr]
    dsimp only
    rw [(checkPosting_follows req s).error h]
  · obtain ⟨cur, ok⟩ := checkPosting_ok hok
    have refusal := (standInRefusal_follows ok (standInRequest_ok hr).2.1 hform).error h
    rw [if_neg (by simp [hs]), hr]
    dsimp only
    rw [hok]
    dsimp only
    cases k : standInRefusal req pl s with
    | none => rw [k] at refusal; cases refusal
    | some x => rw [k] at refusal; cases refusal; rfl

/-- What a stand-in attempt that is accepted has passed (R119, R155). -/
theorem standInCheck_ok (h : standInCheck s p d = .ok (req, pl)) :
    standInRequest s p d = .ok req ∧ checkPosting req s = .ok pl := by
  unfold standInCheck at h
  split at h
  · cases h
  · split at h
    · cases h
    · next r hr =>
      split at h
      · cases h
      · next hok =>
        split at h
        · cases h
        · cases h
          exact ⟨hr, hok⟩

end

end Sys2Proof.Machine

namespace Sys2Proof.Machine

/-! ## A refused stand-in attempt -/

/-- The field a status concerns, with its description (R119). -/
def refusedField (d : FormDesc) (st : Status) : Option (Nat × FieldDesc) :=
  (refusalRole st).bind (roleField d) |>.bind fun i => d.fields[i]?.map fun f => (i, f)

theorem roleField_some {d : FormDesc} {r : FieldRole} {i : Nat} (h : roleField d r = some i) : ∃ f, d.fields[i]? = some f := by
  unfold roleField at h
  have := (List.findIdx?_eq_some_iff_getElem.1 h).1
  exact ⟨_, List.getElem?_eq_getElem this⟩

theorem refuseStandIn_spec {p : Pos} {rest : List Token} {s : State} {d : FormDesc} (st : Status)
    (hfs : currentFields s p = d.fields) :
    RefusedWith p rest (some st.name) (refusedField d st) s (refuseStandIn p d st (popped p rest s.begin)) := by
  obtain ⟨u, hu⟩ : ∃ u, u = tone p (notice p st.name (popped p rest s.begin)) := ⟨_, rfl⟩
  have step : EditorStep p s.begin u := hu ▸ (popped_step p rest s.begin).trans ((EditorStep.notice _).trans .tone)
  have out : u.out = toneOut s p := by
    rw [hu, tone_out, toneOut_congr (s := s) (by simp)]; simp
  have keys : rd u.keys p = { rd s.keys p with queue := rest } := by simp [hu]
  have screen : rd u.screens p = Screen.partNotice st.name (rd s.screens p) := by simp [hu]
  have tables : u.tables = s.tables := by simp [hu]
  unfold refuseStandIn refusedField
  dsimp only
  rw [← hu]
  cases hr : (refusalRole st).bind (roleField d) with
  | none => exact refusedWith_intro rfl step out (by simp [keys]) (by simp [screen, movedTo])
  | some i =>
    obtain ⟨r, -, hi⟩ := Option.bind_eq_some_iff.1 hr
    obtain ⟨f, hf⟩ := roleField_some hi
    have field : (currentFields u p)[i]? = some f := by
      rwa [currentFields_congr (s := s) (by rw [screen]; exact (partNotice_frame ..).2.1) tables, hfs]
    refine refusedWith_intro rfl (step.trans (.setCursor i 0)) ?_ ?_ ?_
    · rw [← out]; simp
    · simp [setCursor_keys field, keys, hf]
    · simp [setCursor_screen field, keys, screen, hf, movedTo, cursorCell_row]

/-! ## Fields back to their presets -/

/-! ### The cells a field writes -/

/-- The cell of a form-area row and a column. -/
def cellAt (sc : Screen) (r : Fin 15) (c : Fin 80) : Cell := rd (rd sc.area r) c

theorem rd_updN_ne {α : Type} {n : Nat} (v : Vector α n) {i : Nat} {j : Fin n} (f : α → α) (h : i ≠ j.val) :
    rd (updN v i f) j = rd v j := by
  unfold updN
  split
  · exact rd_upd_ne _ _ fun e => h (congrArg Fin.val e).symm
  · rfl

theorem cellAt_updCell (row col : Nat) (g : Cell → Cell) (sc : Screen) (r : Fin 15) (c : Fin 80) :
    cellAt (sc.updCell row col g) r c = if row = r.val + 1 ∧ col = c.val then g (cellAt sc r c) else cellAt sc r c := by
  unfold cellAt Screen.updCell
  split
  · next h => rw [if_neg (by omega)]
  · next h =>
    dsimp only
    by_cases hr : row = r.val + 1
    · subst hr
      rw [show r.val + 1 - 1 = r.val from rfl, rd_updN, if_pos rfl]
      by_cases hc : col = c.val
      · subst hc
        rw [rd_updN, if_pos rfl, if_pos ⟨rfl, rfl⟩]
      · rw [if_neg (fun k => hc k.2), rd_updN_ne _ _ hc]
    · rw [if_neg (fun k => hr k.1), rd_updN_ne _ _ (by omega)]

/-- The cells a run of characters leaves, written from a column on with a number of them before it. -/
theorem cellAt_run (row col : Nat) (bs : List Byte) (k : Nat) (sc : Screen) (r : Fin 15) (c : Fin 80) :
    cellAt ((bs.zipIdx k).foldl (fun sc ci => sc.updCell row (col + ci.2) fun x => { x with ch := printable ci.1 }) sc) r c =
      if row = r.val + 1 ∧ col + k ≤ c.val ∧ c.val < col + k + bs.length then
        { cellAt sc r c with ch := printable (bs.getD (c.val - (col + k)) 0x20) }
      else cellAt sc r c := by
  induction bs generalizing k sc with
  | nil => exact (if_neg (by rintro ⟨-, h, k⟩; exact absurd k (by simpa using h))).symm
  | cons b bs ih =>
    rw [List.zipIdx_cons, List.foldl_cons, ih, cellAt_updCell]
    by_cases hr : row = r.val + 1
    · simp only [hr, true_and, List.length_cons]
      by_cases here : col + k = c.val
      · rw [if_neg (by omega), if_pos here, if_pos (by omega), show c.val - (col + k) = 0 by omega]
        rfl
      · rw [if_neg here]
        by_cases later : col + (k + 1) ≤ c.val ∧ c.val < col + (k + 1) + bs.length
        · rw [if_pos later, if_pos (by omega), show c.val - (col + k) = (c.val - (col + (k + 1))) + 1 by omega]
          rfl
        · rw [if_neg later, if_neg (by omega)]
    · simp only [hr, false_and, if_false]

/-- A field written: the cells it covers take the characters shown, and no other cell changes (R96). -/
theorem cellAt_writeField {f : FieldDesc} {v : List Byte} (h : (fieldShown f v).length = fieldWidth f) (sc : Screen)
    (r : Fin 15) (c : Fin 80) : (Covers f r c →
      cellAt (sc.writeField f v) r c =
        { cellAt sc r c with ch := printable ((fieldShown f v).getD (c.val - f.col) 0x20) }) ∧
    (¬Covers f r c → cellAt (sc.writeField f v) r c = cellAt sc r c) := by
  have run := cellAt_run f.row f.col (fieldShown f v) 0 sc r c
  rw [h] at run
  exact ⟨fun k => run.trans (if_pos k), fun k => run.trans (if_neg k)⟩

/-- What a field's write leaves of a screen beside its area: everything but dirty rows. -/
theorem writeField_frame (f : FieldDesc) (v : List Byte) (sc : Screen) :
    sc.writeField f v = { sc with area := (sc.writeField f v).area, dirty := insertRow f.row sc.dirty } := by
  have cells (bs : List (Byte × Nat)) (g : Byte × Nat → Cell → Cell) (sc : Screen) :
      bs.foldl (fun sc ci => sc.updCell f.row (f.col + ci.2) (g ci)) sc =
        { sc with area := (bs.foldl (fun sc ci => sc.updCell f.row (f.col + ci.2) (g ci)) sc).area } := by
    induction bs generalizing sc with
    | nil => rfl
    | cons b bs ih =>
      rw [List.foldl_cons, ih]
      unfold Screen.updCell
      split <;> rfl
  unfold Screen.writeField
  rw [cells (fieldShown f v).zipIdx fun ci c => { c with ch := printable ci.1 }]
  rfl

/-! ### Presets -/

theorem padRight_of_le {n : Nat} {bs : List Byte} (h : bs.length ≤ n) :
    padRight n bs = bs ++ List.replicate (n - bs.length) 0x20 :=
  List.take_of_length_le (by simp; omega)

/-- Blanks at the end of a list are what it reads past its end. -/
theorem getD_append_blanks (bs : List Byte) (n k : Nat) : (bs ++ List.replicate n 0x20).getD k 0x20 = bs.getD k 0x20 := by
  by_cases h : k < bs.length
  · simp [List.getD_eq_getElem?_getD, List.getElem?_append_left h]
  · rw [List.getD_eq_getElem?_getD, List.getElem?_append_right (by omega), List.getD_eq_default _ _ (by omega),
      List.getElem?_replicate]
    split <;> rfl

/-- The characters a preset shows fill its field (R94, R95, R96). -/
theorem fieldShown_preset {form : Nat} {f : FieldDesc} (h : FieldSound form f) :
    (fieldShown f (presetValue f)).length = fieldWidth f ∧
      ∀ k, (fieldShown f (presetValue f)).getD k 0x20 = (shownChars f f.preset).getD k 0x20 := by
  obtain ⟨-, -, -, -, fits, -, numeric, -⟩ := h
  cases hk : f.kind with
  | text =>
    have width : fieldWidth f = f.length := by simp [fieldWidth, hk]
    have shown : fieldShown f (presetValue f) = f.preset ++ List.replicate (f.length - f.preset.length) 0x20 := by
      simp only [fieldShown, presetValue, hk, width]
      rw [padRight_of_le fits, padRight_of_le (by simp; omega)]
      simp; omega
    rw [shown, width]
    refine ⟨by simp; omega, fun k => ?_⟩
    rw [getD_append_blanks]
    simp [shownChars, hk]
  | numeric =>
    obtain ⟨-, -, decimals, -⟩ := numeric hk
    have width : fieldWidth f = f.length + if f.decimals = 0 then 0 else 1 := by
      simp only [fieldWidth, hk, true_and, Nat.pos_iff_ne_zero, ite_not]
    simp only [fieldShown, presetValue, hk]
    cases hp : f.preset with
    | nil => 
      refine ⟨by simp [numericShown], fun k => ?_⟩
      have := getD_append_blanks [] (fieldWidth f) k
      simpa only [numericShown, shownChars, List.isEmpty_nil, if_true, List.nil_append, or_true] using this
    | cons b bs =>
      rw [hp] at fits
      have shown : numericShown (fieldWidth f) f.decimals (b :: bs) = shownChars f (b :: bs) := by
        by_cases d : f.decimals = 0
        · simp [numericShown, shownChars, padLeft, hk, d]
        · simp [numericShown, shownChars, padLeft, hk, d]
          omega
      rw [shown]
      refine ⟨?_, fun _ => rfl⟩
      by_cases d : f.decimals = 0
      · simp [shownChars, hk, d, width] at fits ⊢; omega
      · simp [shownChars, hk, d, width] at fits ⊢; omega

end Sys2Proof.Machine

namespace Sys2Proof.Machine

/-! ### Every field back to its preset -/

/-- The screen after fields go back to their presets (R115). -/
def presetsOn (fs : List FieldDesc) (sc : Screen) : Screen := fs.foldl (fun sc f => sc.writeField f (presetValue f)) sc

theorem presetsOn_frame (fs : List FieldDesc) (sc : Screen) :
    presetsOn fs sc = { sc with area := (presetsOn fs sc).area, dirty := (presetsOn fs sc).dirty } ∧
    (∀ f ∈ fs, f.row ∈ (presetsOn fs sc).dirty) ∧ ∀ r ∈ sc.dirty, r ∈ (presetsOn fs sc).dirty := by
  induction fs generalizing sc with
  | nil => exact ⟨rfl, nofun, fun _ h => h⟩
  | cons f fs ih =>
    obtain ⟨frame, rows, dirty⟩ := ih (sc.writeField f (presetValue f))
    have one := writeField_frame f (presetValue f) sc
    have marked (r : Nat) : r ∈ (sc.writeField f (presetValue f)).dirty ↔ r = f.row ∨ r ∈ sc.dirty := by
      rw [one]; exact mem_insertRow ..
    refine ⟨?_, fun g hg => ?_, fun r hr => dirty r ((marked r).2 (Or.inr hr))⟩
    · have both : presetsOn (f :: fs) sc = presetsOn fs (sc.writeField f (presetValue f)) := rfl
      rw [both]
      exact frame.trans (by rw [one])
    · rcases List.mem_cons.1 hg with rfl | hg
      · exact dirty _ ((marked _).2 (Or.inl rfl))
      · exact rows g hg

theorem presetsOn_form (fs : List FieldDesc) (sc : Screen) : (presetsOn fs sc).form = sc.form := by
  rw [(presetsOn_frame fs sc).1]

/-- Fields that do not share a cell, back at their presets: each cell of one shows its preset's character. -/
theorem cellAt_presetsOn {form : Nat} {fs : List FieldDesc} {r : Fin 15} {c : Fin 80}
    (sound : ∀ f ∈ fs, FieldSound form f) (apart : fs.Pairwise fun f g => ¬(Covers f r c ∧ Covers g r c)) (sc : Screen) :
    ((∀ f ∈ fs, ¬Covers f r c) → cellAt (presetsOn fs sc) r c = cellAt sc r c) ∧
    ∀ f ∈ fs, Covers f r c → cellAt (presetsOn fs sc) r c =
      { cellAt sc r c with ch := printable ((shownChars f f.preset).getD (c.val - f.col) 0x20) } := by
  induction fs generalizing sc with
  | nil => exact ⟨fun _ => rfl, nofun⟩
  | cons f fs ih =>
    obtain ⟨sound_f, sound_fs⟩ := List.forall_mem_cons.1 sound
    obtain ⟨apart_f, apart_fs⟩ := List.pairwise_cons.1 apart
    obtain ⟨rest_off, rest_on⟩ := ih sound_fs apart_fs (sc.writeField f (presetValue f))
    obtain ⟨width, chars⟩ := fieldShown_preset sound_f
    obtain ⟨on, off⟩ := cellAt_writeField width sc r c
    refine ⟨fun none => ?_, fun g hg cover => ?_⟩
    · obtain ⟨none_f, none_fs⟩ := List.forall_mem_cons.1 none
      exact (rest_off none_fs).trans (off none_f)
    · rcases List.mem_cons.1 hg with rfl | hg
      · exact (rest_off fun g hg k => apart_f g hg ⟨cover, k⟩).trans ((on cover).trans (by rw [chars]))
      · exact (rest_on g hg cover).trans (by rw [off fun k => apart_f g hg ⟨k, cover⟩])

/-- A form's fields back at their presets, in the terms of R115. -/
theorem presetsBack_presetsOn (n : Fin 32) (d : FormDesc) (sc : Screen) :
    PresetsBack n d sc.area (presetsOn d.fields sc).area := by
  intro ok r c
  obtain ⟨-, sound, ordered, -⟩ := (formOk_iff n.val d).1 ok
  refine cellAt_presetsOn sound (ordered.imp fun before ⟨k, l⟩ => ?_) sc
  obtain ⟨krow, -, kend⟩ := k
  obtain ⟨lrow, lstart, -⟩ := l
  omega

/-! ### The form cleared -/

/-- A screen whose form is cleared (R115): every field shows its preset again, and nothing but cells, cursor and dirty rows
differs. -/
structure Cleared (n : Fin 32) (d : FormDesc) (old new : Screen) : Prop where
  frame : new = { old with area := new.area, cursor := new.cursor, dirty := new.dirty }
  presets : PresetsBack n d old.area new.area
  rows : ∀ f ∈ d.fields, f.row ∈ new.dirty
  dirty : ∀ r ∈ old.dirty, r ∈ new.dirty

/-- What the cursor's move to the first field leaves of the screen. -/
theorem cursorToFirst_screen (p : Pos) (s : State) : let new := rd (cursorToFirst p s).screens p
    new.area = (rd s.screens p).area ∧ new = { rd s.screens p with cursor := new.cursor, dirty := new.dirty } := by
  unfold cursorToFirst setCursor
  dsimp only
  (repeat' split) <;> simp [Screen.mark]

section
variable {p : Pos} {s : State}

/-- The first k fields back at their presets, with their values (R111, R115). -/
theorem resetFields_eq {fs : List FieldDesc} (hfs : currentFields s p = fs) (k : Nat) (hk : k ≤ fs.length) :
    let t := (List.range k).foldl (resetField p fs) s
    currentFields t p = fs ∧ rd t.screens p = presetsOn (fs.take k) (rd s.screens p) ∧
    rd t.keys p = { rd s.keys p with values := (rd t.keys p).values } ∧
    ((rd s.keys p).values.length = fs.length →
      (rd t.keys p).values = (fs.take k).map presetValue ++ (rd s.keys p).values.drop k) := by
  induction k with
  | zero => exact ⟨hfs, rfl, rfl, fun _ => rfl⟩
  | succ k ih =>
    obtain ⟨fields, screen, keys, values⟩ := ih (by omega)
    rw [List.range_succ, List.foldl_append]
    generalize (List.range k).foldl (resetField p fs) s = t at *
    have get : fs[k]? = some fs[k] := List.getElem?_eq_getElem hk
    have take : fs.take (k + 1) = fs.take k ++ [fs[k]] := List.take_succ_eq_append_getElem hk
    have step : resetField p fs t k = (t.updKeys p fun u => { u with values := u.values.set k (presetValue fs[k]) }).updScreen p
        (Screen.writeField fs[k] (presetValue fs[k])) := by
      simp only [resetField, get, setValue, fields]
    dsimp only [List.foldl_cons, List.foldl_nil]
    have shown : rd (resetField p fs t k).screens p = presetsOn (fs.take (k + 1)) (rd s.screens p) := by
      rw [step, take, presetsOn, List.foldl_append]
      simp [screen, presetsOn]
    have held : rd (resetField p fs t k).keys p =
        { rd t.keys p with values := (rd t.keys p).values.set k (presetValue fs[k]) } := by
      rw [step]; simp
    refine ⟨?_, shown, ?_, fun len => ?_⟩
    · refine (currentFields_congr ?_ (by simp)).trans fields
      rw [shown, presetsOn_form, screen, presetsOn_form]
    · rw [held, keys]
    · have short : ((fs.take k).map presetValue).length = k := by simp; omega
      rw [held]
      dsimp only
      rw [values len, take, List.set_append_right _ _ (by rw [short]), short, Nat.sub_self,
        List.drop_eq_getElem_cons (by omega), List.set_cons_zero, List.map_append, List.append_assoc]
      rfl

/-- The form of a position cleared (R115): its screen, its values and its cursor. -/
theorem clearForm_spec {n : Fin 32} {d : FormDesc} (hf : (rd s.screens p).form = some n)
    (hd : rd s.tables.forms n = some d) : let t := clearForm p s
    Cleared n d (rd s.screens p) (rd t.screens p) ∧
    ((rd s.keys p).values.length = d.fields.length → (rd t.keys p).values = d.fields.map presetValue) ∧
    (∀ i, firstUnprotected d.fields = some i →
      rd t.keys p = { rd s.keys p with values := (rd t.keys p).values, cursorField := some i, textPos := 0 }) ∧
    (firstUnprotected d.fields = none → rd t.keys p = { rd s.keys p with values := (rd t.keys p).values }) := by
  have hfs := currentFields_eq hf hd
  obtain ⟨fields, screen, keys, values⟩ := resetFields_eq hfs d.fields.length le_rfl
  dsimp only [clearForm]
  rw [hfs]
  generalize (List.range d.fields.length).foldl (resetField p d.fields) s = t at *
  rw [List.take_length] at screen values
  obtain ⟨frame, rows, dirty⟩ := presetsOn_frame d.fields (rd s.screens p)
  have presets := presetsBack_presetsOn n d (rd s.screens p)
  rw [← screen] at frame rows dirty presets
  obtain ⟨-, kept, -, more⟩ := cursorToFirst_kept p t
  obtain ⟨area, same⟩ := cursorToFirst_screen p t
  refine ⟨⟨?_, area ▸ presets, fun f h => more _ (rows f h), fun r h => more _ (dirty r h)⟩,
    fun len => by rw [kept, values len, List.drop_eq_nil_of_le (by omega), List.append_nil], fun i hi => ?_, fun none => ?_⟩
  · rw [same, frame]
  · obtain ⟨f, hfield⟩ : ∃ f, (currentFields t p)[i]? = some f := by
      rw [fields]
      exact ⟨_, List.getElem?_eq_getElem (List.findIdx?_eq_some_iff_getElem.1 hi).1⟩
    have moved : cursorToFirst p t = setCursor p i 0 t := by
      unfold cursorToFirst
      rw [fields, hi]
    rw [kept, moved, setCursor_keys hfield, keys]
  · have stays : cursorToFirst p t = t := by
      unfold cursorToFirst
      rw [fields, none]
    rw [stays, keys]

end

end Sys2Proof.Machine

namespace Sys2Proof.Machine

/-! ## A notice over prompts -/

/-- Screens with the same ring, offset and notice column, of which the second loses no dirty row of the first. -/
def WindowAlike (a b : Screen) : Prop :=
  b.ring = a.ring ∧ b.newest = a.newest ∧ b.column = a.column ∧ b.review = a.review ∧ ∀ r ∈ a.dirty, r ∈ b.dirty

section
variable {a b : Screen}

theorem WindowAlike.windowLine (h : WindowAlike a b) (k : Nat) : b.windowLine k = a.windowLine k := by
  obtain ⟨ring, newest, -, review, -⟩ := h
  simp only [Screen.windowLine, ring, newest, review]

theorem WindowAlike.mark (h : WindowAlike a b) (r : Nat) : WindowAlike (a.mark r) (b.mark r) := by
  obtain ⟨ring, newest, column, review, dirty⟩ := h
  exact ⟨ring, newest, column, review, fun x hx => (mark_dirty ..).2 (((mark_dirty ..).1 hx).imp_right (dirty x))⟩

theorem WindowAlike.withWindow (h : WindowAlike a b) {f : Screen → Screen} (hf : WindowAlike (f a) (f b)) :
    WindowAlike (a.withWindow f) (b.withWindow f) := by
  have rows (ks : List Nat) {u v : Screen} (k : WindowAlike u v) :
      WindowAlike (ks.foldl (fun u k => if a.windowLine k = (f a).windowLine k then u else u.mark (16 + k)) u)
        (ks.foldl (fun u k => if b.windowLine k = (f b).windowLine k then u else u.mark (16 + k)) v) := by
    induction ks generalizing u v with
    | nil => exact k
    | cons x ks ih =>
      rw [List.foldl_cons, List.foldl_cons, h.windowLine, hf.windowLine]
      split
      · exact ih k
      · exact ih (k.mark _)
  exact rows _ hf

theorem WindowAlike.setReview (h : WindowAlike a b) (o : Nat) : WindowAlike (a.setReview o) (b.setReview o) := by
  have ⟨ring, newest, column, review, dirty⟩ := h
  unfold Screen.setReview
  rw [review]
  split
  · exact h
  · exact (h.withWindow ⟨ring, newest, column, rfl, dirty⟩).mark 0

theorem WindowAlike.advanceLine (h : WindowAlike a b) : WindowAlike a.advanceLine b.advanceLine := by
  have ⟨ring, newest, column, review, dirty⟩ := h
  unfold Screen.advanceLine
  rw [ring, newest]
  exact h.withWindow ⟨by rw [ring], rfl, column, review, dirty⟩

/-- A part notice on screens that differ in prompts alone (R103). -/
theorem WindowAlike.partNotice (h : WindowAlike a b) (x : List Byte) : WindowAlike (a.partNotice x) (b.partNotice x) := by
  unfold Screen.partNotice
  dsimp only
  have review := h.setReview 0
  generalize a.setReview 0 = u, b.setReview 0 = v at review
  have line : WindowAlike (if u.column = 0 then u else u.advanceLine) (if v.column = 0 then v else v.advanceLine) := by
    rw [review.2.2.1]
    split
    · exact review
    · exact review.advanceLine
  generalize (if u.column = 0 then u else u.advanceLine) = u', (if v.column = 0 then v else v.advanceLine) = v' at line
  obtain ⟨ring, newest, column, review, dirty⟩ := line
  obtain ⟨ring, newest, -, review, dirty⟩ := WindowAlike.withWindow ⟨ring, newest, column, review, dirty⟩
    (f := fun sc =>
      { sc with ring := upd sc.ring sc.newest fun l =>
          x.zipIdx.foldl (fun l ci => updN l ci.2 fun _ => ⟨printable ci.1, .bright⟩) l })
    ⟨by rw [ring, newest], newest, column, review, dirty⟩
  exact ⟨ring, newest, rfl, review, dirty⟩

theorem PromptsOnly.windowAlike (h : PromptsOnly a b) : WindowAlike a b :=
  ⟨by rw [h.1], by rw [h.1], by rw [h.1], by rw [h.1], h.2⟩

end

/-- A part notice loses no dirty row (R101, R103). -/
theorem partNotice_dirty (x : List Byte) (sc : Screen) {r : Nat} (h : r ∈ sc.dirty) : r ∈ (sc.partNotice x).dirty := by
  have review : r ∈ (sc.setReview 0).dirty := by
    unfold Screen.setReview
    split
    · exact h
    · exact (mark_dirty ..).2 (Or.inr (withWindow_dirty _ _ _ h))
  unfold Screen.partNotice
  refine withWindow_dirty _ _ _ ?_
  dsimp only
  split
  · exact review
  · exact withWindow_dirty _ _ _ review

/-- A screen that shows a notice and then has its form cleared, after a change of its prompts at most (R103, R115). -/
theorem Cleared.afterNotice {n : Fin 32} {d : FormDesc} {old u new : Screen} {x : List Byte} (h : PromptsOnly old u)
    (k : Cleared n d (u.partNotice x) new) : let shown := old.partNotice x
    (new.prompts = u.prompts ∧ new.noPrinter = u.noPrinter ∧ ∀ r ∈ u.dirty, r ∈ new.dirty) ∧
    new.ring = shown.ring ∧ new.newest = shown.newest ∧ new.column = shown.column ∧ new.review = shown.review ∧
      new.form = old.form ∧ new.present = old.present ∧ new.inFlight = old.inFlight ∧
      PresetsBack n d old.area new.area ∧ (∀ f ∈ d.fields, f.row ∈ new.dirty) ∧ ∀ r ∈ shown.dirty, r ∈ new.dirty := by
  obtain ⟨ring, newest, column, review, dirty⟩ := h.windowAlike.partNotice x
  obtain ⟨area, form, -, prompts, noPrinter, inFlight, present⟩ := partNotice_frame x u
  obtain ⟨same, -⟩ := h
  obtain ⟨frame, presets, rows, more⟩ := k
  rw [area, same] at presets
  rw [frame]
  dsimp only
  refine ⟨⟨prompts, noPrinter, fun r hr => more r (partNotice_dirty x u hr)⟩, ring, newest, column, review, ?_, ?_, ?_,
    presets, rows, fun r hr => more r (dirty r hr)⟩
  · exact form.trans (by rw [same])
  · exact present.trans (by rw [same])
  · exact inFlight.trans (by rw [same])

/-! ## A stand-in posting taken -/

/-- In STAND_IN no REPORT is queued, so that an append leaves the line (R174). -/
theorem append_line {b : EntryBody} {s : State} (h : s.line.state = .standIn) : (append b s).line = s.line := by
  obtain ⟨u, hu, hl⟩ : ∃ u, append b s = lowSpaceCheck u ∧ u.line = s.line := by
    refine ⟨_, rfl, ?_⟩
    dsimp only
    split <;> rfl
  rw [hu, lowSpaceCheck_eq]
  split
  · rw [report_eq, reportedOf, if_neg (by simp [hl, h]), List.append_nil]
    exact hl
  · exact hl

theorem booked_line_standIn {r : PostingRec} {s : State} (h : s.line.state = .standIn) : (booked r s).line = s.line := by
  have line : (booked r s).line = (append (.posting r) (placeMidnight .business s)).line := by simp [booked]
  have midnight : (placeMidnight .business s).line = s.line := by
    rw [placeMidnight_eq]
    split
    · exact append_line h
    · rfl
  rw [line, append_line (by rw [midnight, h]), midnight]

/-- What was appended is told from the journal memory, the journal's marks and the outbound queue alone. -/
theorem Appended.congr {bs : List EntryBody} {s s' t : State} (h : Appended bs s t) (hn : s'.nv = s.nv) (hj : s'.jc = s.jc)
    (ho : s'.line.outbound = s.line.outbound) : Appended bs s' t := by
  unfold Appended LowSpaceTold Reported journal Machine.slotsUsed businessDate at h ⊢
  rw [hn, hj, ho]
  exact h

section
variable {p : Pos} {req : PostReq} {pl : Plan} {v : State}

/-- What follows a stand-in posting's entry, legs and line (R156): its usage, and on the position's screen the notice and the
form cleared. -/
theorem takeStandIn_frame (p : Pos) (req : PostReq) (pl : Plan) (v : State) :
    let T := (applyPosting false req pl v).1
    let t := takeStandIn p req pl v
    t.line = T.line ∧ t.tables = T.tables ∧ t.drawers = T.drawers ∧ t.groups = T.groups ∧ t.nv = T.nv ∧ t.jc = T.jc ∧
    t.day = T.day ∧ t.clock = T.clock ∧ t.store = T.store ∧ t.queues = T.queues ∧ t.printers = T.printers ∧
    t.engine = T.engine ∧ t.powered = T.powered ∧ t.out = T.out ∧ t.freeUsed = T.freeUsed ∧ t.pending = T.pending ∧
    t.posns = upd T.posns p fun r => { r with usage := r.usage + pl.value } := by
  simp [takeStandIn, State.updPos]

theorem takeStandIn_others (p : Pos) (req : PostReq) (pl : Plan) (v : State) {q : Pos} (hq : q ≠ p) :
    let T := (applyPosting false req pl v).1
    let t := takeStandIn p req pl v
    rd t.posns q = rd T.posns q ∧ rd t.keys q = rd T.keys q ∧ rd t.screens q = rd T.screens q := by
  intro T t
  have step : EditorStep p (T.updPos p fun r => { r with usage := r.usage + pl.value }) t :=
    (EditorStep.notice _).trans .clearForm
  obtain ⟨posns, keys, screens, -⟩ := step.2 q hq
  exact ⟨posns.trans (rd_upd_ne _ _ hq), keys, screens⟩

/-- The state in which an accepted stand-in posting's form is cleared (R156). -/
def taken (p : Pos) (req : PostReq) (pl : Plan) (v : State) : State :=
  notice p (textAccepted (postingSeq v))
    ((applyPosting false req pl v).1.updPos p fun r => { r with usage := r.usage + pl.value })

theorem takeStandIn_eq (p : Pos) (req : PostReq) (pl : Plan) (v : State) :
    takeStandIn p req pl v = clearForm p (taken p req pl v) := by
  simp only [takeStandIn, taken, applyPosting_seq]

theorem taken_screen (p : Pos) (req : PostReq) (pl : Plan) (v : State) : rd (taken p req pl v).screens p =
    (rd (applyPosting false req pl v).1.screens p).partNotice (textAccepted (postingSeq v)) := by
  simp [taken]

theorem taken_keys (p : Pos) (req : PostReq) (pl : Plan) (v : State) : (taken p req pl v).keys = v.keys := by
  obtain ⟨-, -, keys, -⟩ := applyPosting_frame false req pl v
  simpa [taken] using keys

theorem taken_tables (p : Pos) (req : PostReq) (pl : Plan) (v : State) : (taken p req pl v).tables = v.tables := by
  obtain ⟨tables, -⟩ := applyPosting_frame false req pl v
  simpa [taken] using tables

/-- What an accepted stand-in posting leaves of its position's screen and key unit (R156). -/
theorem takeStandIn_cleared {n : Fin 32} {d : FormDesc} (hpos : pl.pos = p)
    (hday : v.day.state = .opened ∨ v.day.state = .cutoff) (hf : (rd v.screens p).form = some n)
    (hd : rd v.tables.forms n = some d) : let t := takeStandIn p req pl v
    Cleared n d (rd (taken p req pl v).screens p) (rd t.screens p) ∧
    ((rd v.keys p).values.length = d.fields.length → (rd t.keys p).values = d.fields.map presetValue) ∧
    (∀ i, firstUnprotected d.fields = some i →
      rd t.keys p = { rd v.keys p with values := (rd t.keys p).values, cursorField := some i, textPos := 0 }) ∧
    (firstUnprotected d.fields = none → rd t.keys p = { rd v.keys p with values := (rd t.keys p).values }) := by
  obtain ⟨alike, -⟩ := applyPosting_screen (late := false) (req := req) (pl := pl) hday
  rw [hpos] at alike
  have form : (rd (taken p req pl v).screens p).form = some n := by
    rw [taken_screen, (partNotice_frame ..).2.1, alike.1]
    exact hf
  have cleared := clearForm_spec form (by rwa [taken_tables])
  rwa [← takeStandIn_eq, taken_keys] at cleared

/-- A stand-in posting goes on from its entry, its legs and its line. -/
theorem takeStandIn_goesOn {n : Fin 32} {d : FormDesc} (hpos : pl.pos = p)
    (hday : v.day.state = .opened ∨ v.day.state = .cutoff) (hf : (rd v.screens p).form = some n)
    (hd : rd v.tables.forms n = some d) :
    GoesOn pl.pos (applyPosting false req pl v).1 (takeStandIn p req pl v) := by
  subst hpos
  obtain ⟨line, -, -, -, nv, jc, -, -, store, queues, printers, -⟩ := takeStandIn_frame pl.pos req pl v
  obtain ⟨cleared, -⟩ := takeStandIn_cleared (req := req) rfl hday hf hd
  rw [taken_screen] at cleared
  obtain ⟨⟨prompts, noPrinter, dirty⟩, -⟩ := cleared.afterNotice (.rfl _)
  exact ⟨nv, jc, store, queues, printers, by rw [line], ⟨[], by rw [line, List.append_nil], fun _ _ _ => List.not_mem_nil⟩,
    prompts, noPrinter, dirty⟩

end

end Sys2Proof.Machine

namespace Sys2Proof.Machine

/-! ## TRANSMIT, routed -/

/-- A state whose next entry number of a position is taken (R83). -/
def numbered (p : Pos) (s : State) : State :=
  { s with posns := wr s.posns p { rd s.posns p with entryNo := ((rd s.posns p).entryNo + 1) % 4096 } }

section
variable {p : Pos} {rest : List Token} {s : State} {n : Fin 32} {d : FormDesc}

theorem numbered_pos : rd (numbered p s).posns p =
    { rd s.posns p with entryNo := ((rd s.posns p).entryNo + 1) % 4096 } := rd_wr_self ..

@[simp] theorem numbered_frame (p : Pos) (s : State) :
    (numbered p s).line = s.line ∧ (numbered p s).tables = s.tables ∧ (numbered p s).screens = s.screens ∧
    (numbered p s).keys = s.keys ∧ (numbered p s).drawers = s.drawers ∧ (numbered p s).groups = s.groups ∧
    (numbered p s).nv = s.nv ∧ (numbered p s).jc = s.jc ∧ (numbered p s).day = s.day ∧
    (numbered p s).clock = s.clock ∧ (numbered p s).store = s.store ∧ (numbered p s).queues = s.queues ∧
    (numbered p s).printers = s.printers ∧ (numbered p s).engine = s.engine ∧ (numbered p s).powered = s.powered ∧
    (numbered p s).freeUsed = s.freeUsed ∧ (numbered p s).pending = s.pending := by
  simp [numbered]

theorem numbered_other {q : Pos} (h : q ≠ p) : rd (numbered p s).posns q = rd s.posns q := rd_wr_ne _ _ h

theorem exec_transmit (hp : s.powered = true) (hq : (rd s.keys p).queue = .transmit :: rest) (ha : Acts s p .transmit) :
    exec (.transmit p) s = .next (transmitForm p (popped p rest s.begin)) := keyCommand_acts hp hq ha

/-- A TRANSMIT that passes the mandatory test goes by the route of Table 7-1 (R116). -/
theorem exec_transmit_filled (hp : s.powered = true) (hq : (rd s.keys p).queue = .transmit :: rest)
    (ha : Acts s p .transmit) (hf : (rd s.screens p).form = some n) (hd : rd s.tables.forms n = some d)
    (all : ∀ i, ∀ f : FieldDesc, d.fields[i]? = some f → f.mandatory = true → isFilled f (fieldValue s p i) = true) :
    exec (.transmit p) s = .next (routeTransmit p n d (popped p rest s.begin)) := by
  have form : (rd (popped p rest s.begin).screens p).form = some n := by simpa using hf
  have desc : rd (popped p rest s.begin).tables.forms n = some d := by simpa using hd
  rw [exec_transmit hp hq ha, transmitForm_filled form desc (firstUnfilled_none (currentFields_eq form desc) fun i f hi hm => ?_)]
  rw [popped_fieldValue]
  exact all i f hi hm

/-- The routes of Table 7-1 (R116). -/
theorem routeTransmit_signedOff (h : (rd s.posns p).state = .signedOff) : routeTransmit p n d (popped p rest s.begin) =
    if s.line.state = .online then sendSignOn p n d (popped p rest s.begin)
    else tone p (notice p Status.tellerState.name (popped p rest s.begin)) := by
  simp [routeTransmit, h]

theorem routeTransmit_ready (h : (rd s.posns p).state = .ready) : routeTransmit p n d (popped p rest s.begin) =
    if n = 1 then tone p (popped p rest s.begin)
    else if s.line.state = .online then sendEntry p n d (popped p rest s.begin)
    else standInAttempt p d (popped p rest s.begin) := by
  simp [routeTransmit, h]

/-- A stand-in attempt is checked, and acts on the state with its number taken (R119, R83). -/
theorem standInCheck_numbered : standInCheck ((popped p rest s.begin).updPos p nextEntryNo) p d = standInCheck s p d := by
  have state : (popped p rest s.begin).updPos p nextEntryNo = popped p rest (numbered p s).begin := rfl
  rw [state]
  refine standInCheck_congr (by simp) (by simp) (fun q => ?_) (by simp) (by simp) (by simp) (by simp)
  by_cases h : q = p
  · subst h
    simp [numbered_pos]
  · simp [numbered_other h]

theorem standInAttempt_error {st : Status} (h : standInCheck s p d = .error st) :
    standInAttempt p d (popped p rest s.begin) = refuseStandIn p d st (popped p rest (numbered p s).begin) := by
  unfold standInAttempt
  dsimp only
  rw [standInCheck_numbered, h]
  rfl

theorem standInAttempt_ok {req : PostReq} {pl : Plan} (h : standInCheck s p d = .ok (req, pl)) :
    standInAttempt p d (popped p rest s.begin) = takeStandIn p req pl (popped p rest (numbered p s).begin) := by
  unfold standInAttempt
  dsimp only
  rw [standInCheck_numbered, h]
  rfl

end

/-! ### TRANSMIT without an attempt -/

section
variable {p : Pos} {rest : List Token} {s : State} {n : Fin 32} {d : FormDesc}

/-- TRANSMIT with no form, or with a mandatory field that is not filled (R116). -/
theorem transmit_noForm (hp : s.powered = true) (hq : (rd s.keys p).queue = .transmit :: rest) (ha : Acts s p .transmit)
    (hf : (rd s.screens p).form = none) : ∃ t, exec (.transmit p) s = .next t ∧ Refused p rest s t :=
  ⟨_, by rw [exec_transmit hp hq ha, transmitForm_none (by simpa using hf)], refused_tone p rest s⟩

theorem transmit_unfilled (hp : s.powered = true) (hq : (rd s.keys p).queue = .transmit :: rest) (ha : Acts s p .transmit)
    (hf : (rd s.screens p).form = some n) (hd : rd s.tables.forms n = some d) {i : Nat} {f : FieldDesc}
    (hi : d.fields[i]? = some f) (hm : f.mandatory = true) (hu : isFilled f (fieldValue s p i) = false)
    (first : ∀ j g, j < i → ¬(d.fields[j]? = some g ∧ g.mandatory = true ∧ isFilled g (fieldValue s p j) = false)) :
    ∃ t, exec (.transmit p) s = .next t ∧ RefusedWith p rest none (some (i, f)) s t := by
  have form : (rd (popped p rest s.begin).screens p).form = some n := by simpa using hf
  have desc : rd (popped p rest s.begin).tables.forms n = some d := by simpa using hd
  have value (j : Nat) : fieldValue (popped p rest s.begin) p j = fieldValue s p j := popped_fieldValue ..
  have unfilled := firstUnfilled_some (currentFields_eq form desc) hi hm (by rwa [value]) (by simpa only [value] using first)
  exact ⟨_, by rw [exec_transmit hp hq ha, transmitForm_unfilled form desc unfilled],
    refused_cursor (by rwa [currentFields_eq hf hd])⟩

/-- TRANSMIT while the outbound queue has no place for an ENTRY (R117). -/
theorem routeTransmit_busy (h : (rd s.posns p).state = .ready ∧ n ≠ 1 ∨ (rd s.posns p).state = .signedOff ∧ n = 0)
    (honline : s.line.state = .online) (hfull : 28 ≤ s.line.outbound.length) :
    routeTransmit p n d (popped p rest s.begin) = notice p textLineBusy (popped p rest s.begin) := by
  have full : ¬outboundRoom (popped p rest s.begin) = true := mt (outboundRoom_iff _).1 (by simpa using hfull)
  rcases h with ⟨ready, hn⟩ | ⟨off, -⟩
  · rw [routeTransmit_ready ready, if_neg hn, if_pos honline, sendEntry, if_neg full]
  · rw [routeTransmit_signedOff off, if_pos honline, sendSignOn, if_neg full]

/-- ATTENTION queues its report (R122). -/
theorem attention_reports (hp : s.powered = true) (hq : (rd s.keys p).queue = .attention :: rest)
    (ha : Acts s p .attention) : ∃ t, exec (.attention p) s = .next t ∧ EditorOnly p s { t with line := s.line } ∧
      t.out = [] ∧ rd t.keys p = { rd s.keys p with queue := rest } ∧ rd t.screens p = rd s.screens p ∧
      t.line = { s.line with outbound := s.line.outbound ++
        (if s.line.state = .online ∧ s.line.outbound.length < 28 then
          [⟨p.val, 0, .report (.attention p (rd s.posns p).teller (rd s.screens p).form (rd s.posns p).inDoubt
            s.clock.time)⟩] else []) } := by
  have step := popped_step p rest s.begin
  refine ⟨{ popped p rest s.begin with line := { s.line with outbound := s.line.outbound ++ _ } },
    (keyCommand_acts hp hq ha).trans (by dsimp only; rw [report_eq]; rfl), ⟨step.1, step.2⟩, ?_, ?_, ?_, ?_⟩
  all_goals simp [reportedOf]

end

end Sys2Proof.Machine

namespace Sys2Proof.Machine

/-- Settles O47: TRANSMIT by the routes of Table 7-1, and in STAND_IN the posting taken in the state with its entry number. -/
theorem transmitSendsOrStandsIn : Obligations.TransmitSendsOrStandsIn := by
  refine ⟨fun p rest s hp hq ha => ⟨transmit_noForm hp hq ha, fun n d hf hd => ?_⟩,
    fun p rest s hp => ⟨fun n d hq hf hd all => ?_, attention_reports hp⟩⟩
  · have filled (no : ∀ (i : Nat) (f : FieldDesc),
        ¬(d.fields[i]? = some f ∧ f.mandatory = true ∧ isFilled f (fieldValue s p i) = false)) :=
      exec_transmit_filled hp hq ha hf hd fun i f hi hm => by simpa using fun u => no i f ⟨hi, hm, u⟩
    refine ⟨fun i f ⟨hi, hm, hu⟩ first => transmit_unfilled hp hq ha hf hd hi hm hu first, fun no ready one => ?_,
      fun no off standIn => ?_⟩
    · exact ⟨_, by rw [filled no, routeTransmit_ready ready, if_pos one], refused_tone p rest s⟩
    · exact ⟨_, by rw [filled no, routeTransmit_signedOff off, if_neg (by simp [standIn])],
        refused_notice p rest Status.tellerState.name s⟩
  · have routed (ha : Acts s p .transmit) := exec_transmit_filled hp hq ha hf hd all
    refine ⟨fun ready hn online room => ?_, fun off hn online room => ?_, fun from_ online full => ?_,
      fun ready hn standIn => ?_⟩
    · exact ⟨_, by rw [routed (Or.inl ready), routeTransmit_ready ready, if_neg hn, if_pos online], sendEntry_spec room⟩
    · have acts : Acts s p .transmit := Or.inr (Or.inr ⟨off, hn ▸ hf, rfl⟩)
      exact ⟨_, by rw [routed acts, routeTransmit_signedOff off, if_pos online], sendSignOn_spec room⟩
    · have acts : Acts s p .transmit := by
        rcases from_ with ⟨ready, -⟩ | ⟨off, rfl⟩
        · exact Or.inl ready
        · exact Or.inr (Or.inr ⟨off, hf, rfl⟩)
      exact ⟨_, by rw [routed acts, routeTransmit_busy from_ online full], lineBusy_spec p rest s⟩
    have attempt : exec (.transmit p) s = .next (standInAttempt p d (popped p rest s.begin)) := by
      rw [routed (Or.inl ready), routeTransmit_ready ready, if_neg hn, if_neg (by simp [standIn])]
    refine ⟨fun st hst => ?_, fun req pl hok => ?_⟩
    · have refused : standInCheck s p d = .error st := standInCheck_error (by simp [currentForm, hf, formDesc, hd]) hst
      refine ⟨refused, _, attempt.trans (congrArg _ (standInAttempt_error refused)), refuseStandIn_spec st ?_⟩
      exact currentFields_eq (by simpa using hf) (by simpa using hd)
    · intro old cleared
      obtain ⟨request, checked⟩ := standInCheck_ok hok
      obtain ⟨horigin, hreqpos, hbook, href⟩ := standInRequest_ok request
      obtain ⟨cur, ok⟩ := checkPosting_ok checked
      have hpos : pl.pos = p := Fin.ext (ok.pos.symm.trans hreqpos)
      rw [standInAttempt_ok hok] at attempt
      obtain ⟨v, hv⟩ : ∃ v, v = popped p rest (numbered p s).begin := ⟨_, rfl⟩
      obtain ⟨T, hT⟩ : ∃ T, T = (applyPosting false req pl v).1 := ⟨_, rfl⟩
      obtain ⟨t, ht⟩ : ∃ t, t = takeStandIn p req pl v := ⟨_, rfl⟩
      obtain ⟨g, hg⟩ : ∃ g, g = postingRec false req pl v := ⟨_, rfl⟩
      rw [← hv, ← ht] at attempt
      -- the state the posting is taken in, and what of it is the state before
      have nv : v.nv = s.nv := by simp [hv]
      have jc : v.jc = s.jc := by simp [hv]
      have tables : v.tables = s.tables := by simp [hv]
      have line : v.line = s.line := by simp [hv]
      have clock : v.clock = s.clock := by simp [hv]
      have store : v.store = s.store := by simp [hv]
      have queues : v.queues = s.queues := by simp [hv]
      have printers : v.printers = s.printers := by simp [hv]
      have screens : v.screens = s.screens := by simp [hv]
      have keys : rd v.keys p = { rd s.keys p with queue := rest } := by simp [hv]
      have midnights : midnightBodies v = midnightBodies s := by simp only [midnightBodies, clock]
      have date : businessDate v = businessDate s := by simp only [businessDate, nv]
      have seq : postingSeq v = postingSeq s := by simp only [postingSeq, nv, midnights]
      have hday : v.day.state = .opened ∨ v.day.state = .cutoff := by
        have : v.day = s.day := by simp [hv]
        rw [this]
        exact ok.day.imp id And.right
      have form : (rd v.screens p).form = some n := by rwa [screens]
      have desc : rd v.tables.forms n = some d := by rwa [tables]
      have needs : (postingRec false req pl v).yielded ≠ none → req.account ≠ none := fun y a =>
        y (yielded_none (by simp [yieldsLine, horigin, a]))
      -- what the recording of the posting leaves, and what follows it
      have recorded := applyPosting_frame false req pl v
      have after := takeStandIn_frame p req pl v
      have others := fun q => takeStandIn_others p req pl v (q := q)
      have goes := takeStandIn_goesOn (req := req) hpos hday form desc
      obtain ⟨shown, values, moved, unmoved⟩ := takeStandIn_cleared (req := req) hpos hday form desc
      obtain ⟨alike, elsewhere⟩ := applyPosting_screen (late := false) (req := req) (pl := pl) hday
      obtain ⟨y, posted⟩ := applyPosting_posted (late := false) (req := req) (pl := pl) hday needs
      rw [taken_screen] at shown
      dsimp only at recorded after others shown values moved unmoved alike elsewhere
      rw [← ht] at goes
      have stands : Posted g y v t := hg ▸ goes.posted posted
      rw [hpos] at alike elsewhere
      obtain ⟨-, window⟩ := shown.afterNotice alike
      simp only [← hT, ← ht, ← hg] at recorded after others values moved unmoved elsewhere window
      obtain ⟨rtables, rposns, rkeys, rgroups, rday, rclock, rengine, rpowered, rout, -, rfree, rpending, rdrawers, rline⟩ :=
        recorded
      obtain ⟨aline, atables, adrawers, agroups, -, -, aday, aclock, -, -, -, aengine, apowered, aout, afree, apending,
        aposns⟩ := after
      obtain ⟨js, e, he, -, hbody, hseq, -, -, htime, -, hfwd, -⟩ := stands.last
      have seen {y : PrintState} (k : Posted (postingRec false req pl v) y v t) (e' : Entry)
          (he' : entryAt e.seq t = some e') : e'.print = y := k.shows (by rwa [← hseq])
      have sameLine : t.line = s.line := by
        rw [aline, rline, booked_line_standIn (by rw [line, standIn]), line]
      have pending : firstForward (.posting g) = .pending := by
        rw [hg]
        simp [firstForward, postingRec, horigin]
      have keysOf : rd t.keys p = { rd t.keys p with queue := rest, timer := (rd s.keys p).timer } := by
        cases k : firstUnprotected d.fields with
        | none => rw [unmoved k, keys]
        | some i => rw [moved i k, keys]
      refine ⟨t, e, g, attempt, ?room, ?appended, ⟨by rw [he]; simp, hbody, hfwd.trans pending, hseq.trans seq, ?time⟩,
        ?fields, fun no => ?noLine, fun yes part => ?line, fun none => ?unyielded,
        fun a x ha hx => ⟨fun room => ?kept, fun room => ?lost⟩, ?drawers, ?position, fun q hq => ?others, ?screen,
        by rw [keysOf], by rw [keysOf], fun len => values (by rw [keys]; exact len),
        fun i hi => by rw [moved i hi]; exact ⟨rfl, rfl⟩, fun none => by rw [unmoved none, keys]; exact ⟨rfl, rfl⟩,
        by rw [aout, rout, hv]; simp, sameLine, ?frame⟩
      case room =>
        have used := stands.slotsUsed
        have free := (fits_business_iff s).1 ok.room
        have same : slotsUsed v = slotsUsed s := by simp only [slotsUsed, nv]
        rw [midnights, same] at used
        omega
      case appended =>
        have := stands.appended
        rw [midnights] at this
        exact this.congr nv.symm (by simp [counting, jc, pending]) (by rw [← line]; rfl)
      case time => rw [htime, clock, ok.clock, if_pos rfl]
      case fields =>
        subst hg
        refine ⟨horigin, rfl, hpos, rfl, ok.currency.1, rfl, rfl, rfl, rfl, rfl, href, ?_, ?_, rfl⟩ <;> simp [postingRec, hbook]
      case noLine =>
        rw [hg]
        refine yielded_none ?_
        rcases no with no | no <;> simp [yieldsLine, horigin, no]
      case line =>
        rw [hg, yielded_some (by simpa [yieldsLine, horigin, yes, Option.isSome_iff_ne_none] using part), lineText_eq]
        have exponent : localExponent v = localExponent s := by simp only [localExponent, tables]
        rw [exponent]
        rfl
      case unyielded =>
        obtain ⟨lstore, lqueues, lprinters, lprompts, lnoPrinter, noneShown⟩ := goes.noLine (hg ▸ none)
        rw [hpos, screens] at lprompts lnoPrinter
        exact ⟨lstore.trans store, lqueues.trans queues, lprinters.trans printers, lprompts, lnoPrinter, seen noneShown⟩
      case kept =>
        obtain ⟨kept, stored⟩ := goes.kept hday ha (hg ▸ hx) ((storeHasRoom_congr a store).2 room)
        have book : (postingRec false req pl v).book = none := by simp [postingRec, hbook]
        have text : lineOf (postingRec false req pl v) x v =
            ⟨businessDate s, x.name, x.amount, x.exponent, none, true, none, e.seq⟩ := by
          rw [hseq, ← date]
          simp [lineOf, postingRec, hbook, horigin]
        rw [text, book, hpos] at kept
        obtain ⟨lines, other, types, marked, attempted⟩ := kept.congr tables.symm store.symm queues.symm printers.symm rfl rfl
          rfl rfl rfl fun _ h => h
        exact ⟨lines, other, seen stored, types, marked, attempted⟩
      case lost =>
        obtain ⟨lstore, lqueues, lprinters, overflow⟩ := goes.lost ha (hg ▸ hx) (mt (storeHasRoom_congr a store).1 room)
        exact ⟨lstore.trans store, lqueues.trans queues, lprinters.trans printers, seen overflow⟩
      case drawers =>
        rw [adrawers, rdrawers]
        exact applyLegs_drawers_congr _ (by simp [hv])
      case position =>
        rw [aposns, rposns, hv]
        simp [numbered_pos]
      case others =>
        obtain ⟨opos, okeys, oscreens⟩ := others q hq
        rw [opos, okeys, oscreens, rposns, rkeys, elsewhere q hq, screens, hv]
        simp [numbered_other hq, popped, rd_upd_ne _ _ hq]
      case screen =>
        rw [screens, ← hseq] at window
        exact window
      case frame =>
        exact eq_since (by rw [sameLine]) (atables.trans (rtables.trans tables)) (agroups.trans (rgroups.trans (by simp [hv])))
          (aday.trans (rday.trans (by simp [hv]))) (aclock.trans (rclock.trans (by rw [clock])))
          (aengine.trans (rengine.trans (by simp [hv]))) (apowered.trans (rpowered.trans (by simp [hv])))
          (afree.trans (rfree.trans (by simp [hv]))) (apending.trans (rpending.trans (by simp [hv])))

end Sys2Proof.Machine

namespace Sys2Proof.Machine

/-! ## One leg on one line -/

/-- Settles O28: the sum held at the limit it would pass, the count at its limit, the marker set in either case (R22). -/
theorem legSaturatesLine : Obligations.LegSaturatesLine := by
  intro g s l m
  have line : m = applyToLine g.amount l := by simp [m, l, applyLeg]
  have count : Config.maxCount = 65535 := rfl
  have total : Config.maxTotal = 99999999999999 := rfl
  rw [line]
  refine ⟨?_, ?_, ?_, fun p i h => ?_, rfl⟩
  · simp only [applyToLine, total]
    split_ifs <;> omega
  · simp only [applyToLine, count]
    split_ifs <;> omega
  · simp only [applyToLine, count, total, Bool.or_eq_true, decide_eq_true_eq, or_assoc]
    exact or_congr_right (or_congr_right (or_congr_right Nat.lt_succ_iff))
  · by_cases hp : p = g.pos
    · subst hp
      simp [applyLeg, rd_upd_ne _ _ (h.resolve_left (not_not_intro rfl))]
    · simp [applyLeg, rd_upd_ne _ _ hp]

/-! ## The state after reset -/

/-- Shifting a 0 bit into the CRC register keeps it within 16 bits and off 0: a top bit shifted out leaves the low bit of the
polynomial behind (R172). -/
theorem crcBit_false_pos {r : Nat} (h : 0 < r) (hr : r < 65536) : 0 < crcBit r false ∧ crcBit r false < 65536 := by
  unfold crcBit
  dsimp only
  by_cases top : r / 32768 % 2 = 1
  · have low : Nat.testBit (Nat.xor (r * 2 % 65536) 4129) 0 = true := by
      show Nat.testBit (r * 2 % 65536 ^^^ 4129) 0 = true
      rw [Nat.testBit_xor]
      simp only [Nat.testBit_zero]
      have : r * 2 % 65536 % 2 = 0 := by omega
      simp [this]
    have pos : Nat.xor (r * 2 % 65536) 4129 ≠ 0 := fun e => by rw [e] at low; simp at low
    have lt : Nat.xor (r * 2 % 65536) 4129 < 2 ^ 16 := Nat.xor_lt_two_pow (Nat.mod_lt _ (by decide)) (by decide)
    simp only [top, beq_self_eq_true, bne_iff_ne, ne_eq, reduceCtorEq, not_false_eq_true, if_true]
    exact ⟨Nat.pos_of_ne_zero pos, lt⟩
  · have : (r / 32768 % 2 == 1) = false := by simpa using top
    simp only [this, bne_self_eq_false, Bool.false_eq_true, if_false]
    omega

theorem crcByte_zero_pos {r : Nat} (h : 0 < r) (hr : r < 65536) : 0 < crcByte r 0 ∧ crcByte r 0 < 65536 := by
  have bits (is : List Nat) : ∀ {r}, 0 < r → r < 65536 →
      let x := is.foldl (fun r i => crcBit r ((0 : Byte).toNat.testBit i)) r
      0 < x ∧ x < 65536 := by
    induction is with
    | nil => exact fun h hr => ⟨h, hr⟩
    | cons i is ih =>
      intro r h hr
      have bit : (0 : Byte).toNat.testBit i = false := by simp
      simp only [List.foldl_cons, bit]
      obtain ⟨h', hr'⟩ := crcBit_false_pos h hr
      simpa using ih h' hr'
  exact bits _ h hr

/-- The CRC of nothing but zeros is not zero: the register starts at 0xFFFF and never reaches 0 (R40, R72). -/
theorem crc16_zeros (n : Nat) : crc16 (List.replicate n 0) ≠ 0 := by
  have run (n : Nat) : ∀ {r}, 0 < r → r < 65536 →
      0 < (List.replicate n (0 : Byte)).foldl crcByte r ∧ (List.replicate n (0 : Byte)).foldl crcByte r < 65536 := by
    induction n with
    | zero => exact fun h hr => ⟨h, hr⟩
    | succ n ih =>
      intro r h hr
      obtain ⟨h', hr'⟩ := crcByte_zero_pos h hr
      exact ih h' hr'
  obtain ⟨pos, lt⟩ := run n (r := 0xFFFF) (by decide) (by decide)
  intro e
  have register : (crc16 (List.replicate n 0)).toNat = (List.replicate n 0).foldl crcByte 0xFFFF % 65536 :=
    BitVec.toNat_ofNat ..
  rw [e, Nat.mod_eq_of_lt lt] at register
  exact absurd register.symm pos.ne'

/-- The bytes of a retained store of zeros are zeros (R72). -/
theorem retainedBytes_blank :
    retainedBytes 0 (Vector.replicate 16 (Vector.replicate 8 0)) = List.replicate 772 0 := by decide +kernel

/-- A memory that has never been written does not check good, in either record (R53, R72). -/
theorem retainedGood_reset : retainedGood State.reset = false := by
  have crc : State.reset.nv.retained.crc = 0 := rfl
  have bytes : retainedBytes State.reset.nv.retained.date State.reset.nv.retained.amounts = List.replicate 772 0 :=
    retainedBytes_blank
  unfold retainedGood
  rw [crc, bytes, Bool.and_eq_false_iff]
  exact Or.inr (beq_eq_false_iff_ne.2 (crc16_zeros 772).symm)

/-- Settles O3: reset, block by block. -/
theorem resetLeavesPowerOnValues : Obligations.ResetLeavesPowerOnValues := by
  have tables : State.reset.tables = Tables.initial := rfl
  have screen (p : Pos) : rd State.reset.screens p = Screen.initial := rd_replicate ..
  have drawer (p : Pos) : rd State.reset.drawers p = Drawer.initial := rd_replicate ..
  refine ⟨rfl, ?_, fun p => rd_replicate .., fun p => ?_, fun p => rd_replicate .., fun p => ?_, fun p => rd_replicate ..,
    ⟨?_, rfl, retainedGood_reset, rfl⟩, rfl, rfl, rfl, rfl, fun n => ⟨rd_replicate .., rd_replicate ..⟩, rfl, rfl, rfl, rfl,
    rfl, rfl⟩
  · simp [tables, Tables.initial, Params.initial]
  · simp [screen, Screen.initial, Cell.blank]
  · simp [drawer, Drawer.initial, DLine.zero]
  · simp [ControlRec.good, State.reset, JournalMem.blank]

end Sys2Proof.Machine

namespace Sys2Proof.Machine

/-! ## Queries -/

theorem rdN_val {α : Type} {n : Nat} (v : Vector α n) (i : Fin n) : rdN v i.val = some (rd v i) := by
  simp [rdN, i.isLt]

theorem prnOf_val (n : Prn) : prnOf n.val = some n := (prnOf_eq_some _ n).2 rfl

/-- The arrival of a message leaves the line ONLINE (R151, R153). -/
theorem arrived_online (s : State) : (arrived s).line.state = .online := by
  rw [arrived_eq]
  unfold arrive
  dsimp only
  split
  · next h => exact h
  · rfl

theorem liveRecord_arrived (s : State) (p : Pos) : liveRecord (arrived s) p = liveRecord s p := by
  simp [liveRecord, arrived_form, balanceKind]

theorem dayStatus_arrived (s : State) : dayStatus (arrived s) = { dayStatus s with line := .online } := by
  simp [dayStatus, retainedGood, arrived_online]

section
variable {h : Hdr} {c : Instr} {s : State} {t i : Nat}

/-- A query of an index in its table's range, by whichever command it comes (R177). -/
theorem query_gives (hp : s.powered = true) (hc : exec c s = tableMessage (answerQuery h t i) s) (hi : indexOk t i = true)
    {x : Answer} (hx : queryContent (arrived s) t i = x) :
    exec c s = .next (answered h .accepted (.query t i x.isEmpty x) (arrived s)) := by
  subst hx
  rw [hc, tableMessage_eq _ hp]
  simp only [answerQuery, hi, if_true, replyWith_eq]

/-- A query of an unknown table, or of an index outside its range (R175). -/
theorem query_badIndex (hp : s.powered = true) (hi : indexOk t i = false) :
    exec (.tableQuery h (some (t, i))) s = .next (answered h .badIndex .none (arrived s)) := by
  have hc : exec (.tableQuery h (some (t, i))) s = tableMessage (answerQuery h t i) s := rfl
  rw [hc, tableMessage_eq _ hp]
  simp only [answerQuery, hi, Bool.false_eq_true, if_false, reply_eq]

end

/-- An answer that gives an entry, or is empty, has the flag of an empty entry (R177). -/
theorem isEmpty_elim {α : Type} {f : α → Answer} (hf : ∀ a, (f a).isEmpty = false) (e : Option α) :
    (e.elim Answer.empty f).isEmpty = e.isNone := by
  cases e with
  | none => rfl
  | some a => exact hf a

/-- The indexes outside a table's range, and the tables that there are not (R175). -/
theorem indexOk_outside {t i : Nat} (h : t = 0 ∨ 13 < t ∨ (t = 1 ∧ 32 ≤ i) ∨ (t = 2 ∧ (512 ≤ i ∨ i % 16 = 0)) ∨
    (t = 3 ∧ (i = 0 ∨ 256 ≤ i)) ∨ (t = 4 ∧ 8 ≤ i) ∨ (t = 5 ∧ (i = 0 ∨ 8 ≤ i)) ∨ (t = 6 ∧ 4 ≤ i) ∨ (t = 7 ∧ 16 ≤ i) ∨
    (t = 8 ∧ 4 ≤ i) ∨ (t = 9 ∧ i ≠ 0) ∨ (t = 10 ∧ 16 ≤ i) ∨ (t = 11 ∧ 4 ≤ i) ∨ ((t = 12 ∨ t = 13) ∧ i ≠ 0)) :
    indexOk t i = false := by
  unfold indexOk
  split <;> simp <;> omega

/-- A TABLE LOAD of a table that no load fills (R175): READ_ONLY for tables 10 to 13, BAD_INDEX for an unknown table. -/
theorem loadBare_unloaded {h : Hdr} {t i : Nat} {s : State} (ht : t = 0 ∨ 9 < t) :
    loadBare h (some (t, i)) s =
      if 10 ≤ t ∧ t ≤ 13 then answered h .readOnly .none s else answered h .badIndex .none s := by
  unfold loadBare
  simp only [← reply_eq]
  split <;> first | omega | rfl

theorem loadBare_gives {h : Hdr} {b : Option (Nat × Nat)} {s : State} (hp : s.powered = true) :
    exec (.tableLoadReadOnly h b) s = .next (loadBare h b (arrived s)) :=
  (show exec (.tableLoadReadOnly h b) s = tableMessage (loadBare h b) s from rfl).trans (tableMessage_eq _ hp)

/-- Settles O24: what the arrival of the query leaves, table by table. -/
theorem queriesChangeNothing : Obligations.QueriesChangeNothing := by
  intro h s hp gives asks
  have one {c : Instr} {t i : Nat} {flag : Bool} {x : Answer} (hc : exec c s = tableMessage (answerQuery h t i) s)
      (hi : indexOk t i = true) (hx : queryContent (arrived s) t i = x) (hf : x.isEmpty = flag) : gives c t i flag x :=
    hf ▸ query_gives hp hc hi hx
  -- a table of entries: an entry or an empty answer
  have entry {α : Type} {t i : Nat} {f : α → Answer} (hf : ∀ a, (f a).isEmpty = false) (e : Option α)
      (hi : indexOk t i = true) (hx : queryContent (arrived s) t i = e.elim .empty f) :
      gives (asks t i) t i e.isNone (e.elim .empty f) :=
    one rfl hi hx (isEmpty_elim hf e)
  refine ⟨fun t i hi => one rfl hi rfl rfl, fun i => ?_, fun i hi => ?_, fun i hi => ?_, fun i => ?_, fun i hi => ?_,
    fun i => ?_, fun i => ?_, ?_, fun p c hc => ?_, fun p c hc => ?_, fun n c hc => ?_, fun c mark hc hm => ?_, fun c hc => ?_,
    fun t i hi => query_badIndex hp ?_, ?_, fun t i lo hi => ?_, fun t i hi => ?_, ?_⟩
  · exact entry (fun _ => rfl) _ (by simp [indexOk]) (by simp [queryContent, rdN_val])
  · exact entry (fun _ => rfl) _ (by simp [indexOk, hi]) (by simp [queryContent, rdN_val])
  · exact entry (fun _ => rfl) _ (by simp [indexOk]; omega) (by simp [queryContent, rdN_val])
  · exact entry (fun _ => rfl) _ (by simp [indexOk]) (by simp [queryContent, rdN_val])
  · exact one rfl (by simp [indexOk]; omega) (by simp [queryContent, rdN_val]) (by cases rd s.tables.rates i <;> rfl)
  · exact entry (fun _ => rfl) _ (by simp [indexOk]) (by simp [queryContent, rdN_val])
  · exact entry (fun _ => rfl) _ (by simp [indexOk]) (by simp [queryContent, rdN_val])
  · exact one rfl rfl (by simp [queryContent]) rfl
  · have same : exec c s = tableMessage (answerQuery h 7 p.val) s := by rcases hc with rfl | rfl <;> rfl
    exact one same (by simp [indexOk]) (by simp [queryContent, posOf_val, liveRecord_arrived, positionEntry])
      (by cases rd s.tables.positions p <;> rfl)
  · have same : exec c s = tableMessage (answerQuery h 10 p.val) s := by rcases hc with rfl | rfl <;> rfl
    exact one same (by simp [indexOk]) (by simp [queryContent, posOf_val, balanceKind]) rfl
  · have same : exec c s = tableMessage (answerQuery h 11 n.val) s := by rcases hc with rfl | rfl <;> rfl
    exact one same (by simp [indexOk]) (by simp [queryContent, prnOf_val, printerStatus]) rfl
  · have same : exec c s = tableMessage (answerQuery h 12 0) s := by rcases hc with rfl | rfl <;> rfl
    have undelivered : undeliveredMark s = mark := by
      unfold undeliveredMark
      rcases hm with ⟨x, hx, rfl⟩ | ⟨hx, rfl⟩
      · rw [hx]
      · split
        · next u hu => exact absurd hu (hx u)
        · rfl
    have arrivedMark : undeliveredMark (arrived s) = mark := by rw [← undelivered]; simp [undeliveredMark]
    exact one same rfl (by simp [queryContent, journalStatus, arrivedMark, nextSeq]) rfl
  · have same : exec c s = tableMessage (answerQuery h 13 0) s := by rcases hc with rfl | rfl <;> rfl
    exact one same rfl (by simp [queryContent, dayStatus_arrived]) rfl
  · exact indexOk_outside hi
  · exact (show exec (.tableQuery h none) s = tableMessage (reply h .malformed) s from rfl).trans
      (by rw [tableMessage_eq _ hp, reply_eq])
  · rw [loadBare_gives hp, loadBare_unloaded (by omega), if_pos ⟨lo, hi⟩]
  · rw [loadBare_gives hp, loadBare_unloaded (by omega), if_neg (by omega)]
  · exact (loadBare_gives hp).trans (congrArg _ (reply_eq ..))

end Sys2Proof.Machine

namespace Sys2Proof.Machine

/-! ## What an event puts in the outbound queue -/

/-- A message among those the outbound queue has gained from s to t. -/
def Queued (m : OutMsg) (s t : State) : Prop := m ∈ t.line.outbound.drop s.line.outbound.length

/-- The messages that wait, with a place for the JOURNAL_LOW that a clear low-space flag may still raise (R48). -/
def lineLoad (s : State) : Nat := s.line.outbound.length + if s.jc.lowSpace then 0 else 1

/-- An event from s to t that queues at most k messages beside a JOURNAL_LOW, and changes nothing else of the line. -/
structure Told (k : Nat) (s t : State) : Prop where
  line : t.line = { s.line with outbound := t.line.outbound }
  grows : s.line.outbound <+: t.line.outbound
  load : lineLoad t ≤ lineLoad s + k

/-- An event from s to t that queues at most k messages, none of them a JOURNAL_LOW, and leaves the low-space flag. -/
structure Says (k : Nat) (s t : State) : Prop where
  flag : t.jc.lowSpace = s.jc.lowSpace
  line : t.line = { s.line with outbound := t.line.outbound }
  adds : ∃ ms, t.line.outbound = s.line.outbound ++ ms ∧ ms.length ≤ k ∧
    ∀ n c d, (⟨255, 0, .report (.journalLow n c d)⟩ : OutMsg) ∉ ms

section
variable {m : OutMsg} {i j k : Nat} {r s t u : State}

theorem Says.told (h : Says k s t) : Told k s t := by
  obtain ⟨flag, line, ms, ho, hk, -⟩ := h
  refine ⟨line, ho ▸ List.prefix_append _ _, ?_⟩
  unfold lineLoad
  rw [flag, ho, List.length_append]
  omega

theorem Says.of_eq (hl : t.line = s.line) (hj : t.jc.lowSpace = s.jc.lowSpace) : Says 0 s t :=
  ⟨hj, by rw [hl], [], by rw [hl, List.append_nil], Nat.le_refl 0, fun _ _ _ => List.not_mem_nil⟩

theorem Says.trans (h : Says j s t) (k' : Says k t u) : Says (j + k) s u := by
  obtain ⟨flag, line, ms, ho, hj, hm⟩ := h
  obtain ⟨flag', line', ns, ho', hk, hn⟩ := k'
  refine ⟨flag'.trans flag, by rw [line', line], ms ++ ns, by rw [ho', ho, List.append_assoc], ?_, fun n c d => ?_⟩
  · rw [List.length_append]; omega
  · rw [List.mem_append, not_or]
    exact ⟨hm n c d, hn n c d⟩

theorem Says.lowSpace (h : Says k t u) {bs : List EntryBody} (a : LowSpaceTold bs s t) : LowSpaceTold bs s u := by
  obtain ⟨flag, line, ms, ho, -, hm⟩ := h
  exact a.goesOn flag (by rw [line]) ms ho hm

theorem Says.appended (h : Says k t u) (hn : u.nv = t.nv) (hj : u.jc = t.jc) {bs : List EntryBody} (a : Appended bs s t) :
    Appended bs s u := by
  obtain ⟨-, line, ms, ho, -, hm⟩ := h
  exact a.goesOn hn hj (by rw [line]) ms ho hm

theorem Told.of_eq (hl : t.line = s.line) (hj : t.jc.lowSpace = s.jc.lowSpace) : Told 0 s t := (Says.of_eq hl hj).told

theorem Told.trans (h : Told j s t) (k' : Told k t u) : Told (j + k) s u := by
  refine ⟨by rw [k'.line, h.line], h.grows.trans k'.grows, ?_⟩
  have := h.load
  have := k'.load
  omega

theorem Told.goesOn (h : Told k s t) (hl : u.line = t.line) (hj : u.jc.lowSpace = t.jc.lowSpace) : Told k s u :=
  h.trans (.of_eq hl hj)

theorem Told.mono (h : Told j s t) (hk : j ≤ k) : Told k s t := ⟨h.line, h.grows, h.load.trans (by omega)⟩

theorem Told.state (h : Told k s t) : t.line.state = s.line.state := by rw [h.line]

/-- The outbound queue grows by at most the messages told and one JOURNAL_LOW. -/
theorem Told.length (h : Told k s t) : t.line.outbound.length ≤ s.line.outbound.length + k + 1 := by
  have := h.load
  unfold lineLoad at this
  split at this <;> split at this <;> omega

/-! ### Messages that wait -/

/-- A message queued stays queued while the event goes on. -/
theorem Queued.stays (h : Queued m s t) (k' : Told k t u) : Queued m s u := by
  obtain ⟨ms, ho⟩ := k'.grows
  unfold Queued
  rw [← ho, List.drop_append]
  exact List.mem_append_left _ h

/-- A message queued in a part of an event is queued in the event. -/
theorem Queued.since (h : Queued m t u) (k' : Told k s t) : Queued m s u := by
  refine List.mem_of_mem_drop (i := t.line.outbound.length - s.line.outbound.length) ?_
  rw [List.drop_drop, Nat.add_sub_cancel' k'.grows.length_le]
  exact h

/-- A REPORT on the ONLINE line with a place in the queue is queued (R154, R174). -/
theorem queued_report {p : Nat} {x : Report} (on : s.line.state = .online) (few : s.line.outbound.length < 28) :
    Queued ⟨p, 0, .report x⟩ s (report p x s) := by
  unfold Queued
  rw [report_outbound, List.drop_left, reportedOf, if_pos ⟨on, few⟩]
  exact List.mem_singleton_self _

/-- A REPORT raised after an event that tells little enough is queued. -/
theorem Told.reported (h : Told k s t) {p : Nat} {x : Report} (on : s.line.state = .online)
    (few : s.line.outbound.length + k + 1 < 28) : Reported p x s (report p x t) :=
  (queued_report (h.state.trans on) (Nat.lt_of_le_of_lt h.length few)).since h

theorem queued_reply {h : Hdr} {st : Status} {x : Extra} (few : s.line.outbound.length < 32) :
    Queued ⟨h.pos, h.tag, .reply st x⟩ s (answered h st x s) := by
  unfold Queued answered
  rw [if_pos few, List.drop_left]
  exact List.mem_singleton_self _

/-- A REPLY given after an event that tells little enough is queued. -/
theorem Told.replied (h : Told k s t) {hdr : Hdr} {st : Status} {x : Extra} (few : s.line.outbound.length + k + 1 < 32) :
    Replied hdr st x s (answered hdr st x t) :=
  (queued_reply (Nat.lt_of_le_of_lt h.length few)).since h

/-! ### What each operation tells -/

theorem report_says {p : Nat} {x : Report} (hx : ∀ n c d, x ≠ .journalLow n c d) (s : State) : Says 1 s (report p x s) := by
  refine ⟨by simp, by rw [report_eq], reportedOf p x s, report_outbound .., ?_, fun n c d => ?_⟩
  · unfold reportedOf
    split <;> simp
  · unfold reportedOf
    split
    · simpa using fun _ => (hx n c d).symm
    · exact List.not_mem_nil

theorem answered_says (h : Hdr) (st : Status) (x : Extra) (s : State) : Says 1 s (answered h st x s) := by
  unfold answered
  refine ⟨rfl, rfl, ?_⟩
  dsimp only
  split
  · exact ⟨_, rfl, by simp, by simp⟩
  · exact ⟨[], by simp, by simp, by simp⟩

/-- The check after an append tells nothing but a JOURNAL_LOW, and with it sets the flag (R48). -/
theorem lowSpaceCheck_told (s : State) : Told 0 s (lowSpaceCheck s) := by
  refine ⟨lineIf_eq (by simp) (by simp) (by simp) (by simp), lowSpaceCheck_outbound s, ?_⟩
  rw [lowSpaceCheck_eq]
  split
  · next h =>
    unfold lineLoad
    rw [report_outbound, List.length_append]
    unfold reportedOf
    split <;> simp [h.1]
  · exact Nat.le_refl _

theorem appendWith_told (f : ControlFields → ControlFields) (b : EntryBody) (s : State) : Told 0 s (appendWith f b s) := by
  obtain ⟨u, hu, hl, hj⟩ : ∃ u, appendWith f b s = lowSpaceCheck u ∧ u.line = s.line ∧ u.jc.lowSpace = s.jc.lowSpace := by
    refine ⟨_, rfl, ?_, ?_⟩ <;> (dsimp only; split <;> rfl)
  rw [hu]
  exact (Told.of_eq hl hj).trans (lowSpaceCheck_told u)

theorem append_told (b : EntryBody) (s : State) : Told 0 s (append b s) := appendWith_told id b s

theorem placeMidnight_told (c : CapClass) (s : State) : Told 0 s (placeMidnight c s) := by
  rw [placeMidnight_eq]
  split
  · exact (append_told _ s).goesOn rfl rfl
  · exact .of_eq rfl rfl

end

/-! ## Entries after a pending midnight -/

/-- What a request appends after its pending midnight, if there is one (R47). -/
theorem Appended.afterMidnight {c : CapClass} (hc : c ≠ .closing) {bs : List EntryBody} {s t : State}
    (h : Appended bs (placeMidnight c s) t) {k : Nat} (ht : Told k (placeMidnight c s) t) :
    Appended (midnightBodies s ++ bs) s t := by
  rw [placeMidnight_eq] at h ht
  unfold midnightBodies
  by_cases m : 0 < s.clock.midnights
  · rw [if_pos ((midnightAhead_open hc s).2 m)] at h ht
    rw [if_pos m]
    have first : Appended [.midnight s.clock.midnights] s
        { append (.midnight s.clock.midnights) s with clock := { s.clock with midnights := 0 } } :=
      (append_appended (by simp [firstForward]) s).of_nv_jc rfl rfl rfl
    exact first.trans h ht.state (append_outbound _ s) ht.grows
  · rw [if_neg (mt (midnightAhead_open hc s).1 m)] at h
    rw [if_neg m]
    exact h

end Sys2Proof.Machine

namespace Sys2Proof.Machine

/-! ## Showings by the part, balances begun, sign-offs: one position -/

section
variable (p : Pos) (s : State)

/-- A showing by the part leaves the form wanted when it is defined, else none (R99). -/
theorem showByPart_form (f : Option (Fin 32)) : (rd (showByPart p f s).screens p).form = f.bind (shownForm s) := by
  unfold showByPart
  cases f with
  | none => simp [clearArea, Screen.markArea]
  | some n =>
    dsimp only [Option.bind_some]
    unfold shownForm formDesc
    cases rd s.tables.forms n with
    | none => simp [clearArea, Screen.markArea]
    | some d => simp [showForm, Screen.markArea]

/-- A showing keeps the tokens that wait and the entry timer (R96, R99). -/
theorem showByPart_keys (f : Option (Fin 32)) : (rd (showByPart p f s).keys p).queue = (rd s.keys p).queue ∧
    (rd (showByPart p f s).keys p).timer = (rd s.keys p).timer := by
  unfold showByPart
  (repeat' split) <;> simp [clearArea, showForm]

theorem showByPart_others (f : Option (Fin 32)) {q : Pos} (h : q ≠ p) :
    rd (showByPart p f s).keys q = rd s.keys q ∧ rd (showByPart p f s).screens q = rd s.screens q := by
  unfold showByPart
  (repeat' split) <;> simp [clearArea, showForm, rd_upd_ne _ _ h]

theorem shownForm_congr {s t : State} (h : t.tables = s.tables) : shownForm t = shownForm s := by
  funext n
  simp only [shownForm, h]

/-! ### A position leaves for another state -/

/-- A position moved to another state, with its outstanding entry in doubt if it was AWAITING (R84). -/
def leavesFor (p : Pos) (st : PState) (s : State) : State :=
  if (rd s.posns p).state = .awaiting then makeInDoubt p st s else s.updPos p fun r => { r with state := st }

theorem leavesFor_pos (st : PState) : rd (leavesFor p st s).posns p = leftFor st (rd s.posns p) ∧
    (rd (leavesFor p st s).keys p).queue = (rd s.keys p).queue ∧
    ((rd s.posns p).state = .awaiting → (rd (leavesFor p st s).keys p).timer = none) ∧
    (rd (leavesFor p st s).screens p).form = (rd s.screens p).form := by
  unfold leavesFor leftFor
  split
  · simp [makeInDoubt, markRow0]
  · next h => simp [h]

theorem leavesFor_others (st : PState) : OthersKept p s (leavesFor p st s) := fun q h => by
  unfold leavesFor
  split
  · obtain ⟨posns, keys, screens⟩ := makeInDoubt_others h st s
    exact ⟨posns, keys, screens, by simp⟩
  · simp [rd_upd_ne _ _ h]

@[simp] theorem leavesFor_frame (st : PState) :
    (leavesFor p st s).line = s.line ∧ (leavesFor p st s).tables = s.tables ∧ (leavesFor p st s).drawers = s.drawers := by
  unfold leavesFor
  split <;> simp

/-! ### A balance begun -/

theorem beginBalance_eq (k : BalKind) (l : Option Pos) : beginBalance k l p s =
    markRow0 p (showByPart p (some 1) (leavesFor p .balancing
      (s.updDrawer p fun d => { d with ctx := some ⟨k, d.captureNo, l, (rd s.screens p).form⟩ }))) := rfl

/-- A balance begun on a position: its record, key unit and screen, and its drawer's context (R24). -/
theorem beginBalance_pos (k : BalKind) (l : Option Pos) : let t := beginBalance k l p s
    rd t.posns p = leftFor .balancing (rd s.posns p) ∧ (rd t.keys p).queue = (rd s.keys p).queue ∧
    ((rd s.posns p).state = .awaiting → (rd t.keys p).timer = none) ∧ (rd t.screens p).form = shownForm s 1 ∧
    rd t.drawers p = { rd s.drawers p with ctx := some ⟨k, (rd s.drawers p).captureNo, l, (rd s.screens p).form⟩ } := by
  obtain ⟨u, hu⟩ : ∃ u, u = s.updDrawer p fun d => { d with ctx := some ⟨k, d.captureNo, l, (rd s.screens p).form⟩ } :=
    ⟨_, rfl⟩
  have drawer : rd u.drawers p = { rd s.drawers p with
      ctx := some ⟨k, (rd s.drawers p).captureNo, l, (rd s.screens p).form⟩ } := by simp [hu]
  have posns : u.posns = s.posns := by simp [hu]
  have keys : u.keys = s.keys := by simp [hu]
  have form : shownForm u = shownForm s := shownForm_congr (by simp [hu])
  obtain ⟨pos, queue, timer, -⟩ := leavesFor_pos p u .balancing
  rw [posns, keys] at *
  rw [beginBalance_eq, ← hu]
  refine ⟨by simpa [markRow0] using pos, ?_, fun a => ?_, ?_, by simpa [markRow0] using drawer⟩
  · simpa [markRow0, showByPart_keys] using queue
  · simpa [markRow0, showByPart_keys] using timer a
  · simp only [markRow0, State.updScreen_screens, rd_upd_self, mark_form, showByPart_form, Option.bind_some]
    rw [shownForm_congr (leavesFor_frame p u _).2.1, form]

theorem beginBalance_others (k : BalKind) (l : Option Pos) : OthersKept p s (beginBalance k l p s) := fun q h => by
  obtain ⟨posns, keys, screens, drawers⟩ := leavesFor_others p
    (s.updDrawer p fun d => { d with ctx := some ⟨k, d.captureNo, l, (rd s.screens p).form⟩ }) .balancing q h
  rw [beginBalance_eq]
  simp [markRow0, showByPart_others _ _ _ h, rd_upd_ne _ _ h, posns, keys, screens]

/-! ### A position signed off -/

/-- A position signed off (R86). -/
theorem signOffPos_signedOff : SignedOff p s (signOffPos p s) := by
  unfold signOffPos SignedOff leftFor
  split
  · simp [makeInDoubt, markRow0, showByPart_keys, showByPart_form, KeyUnit.initial]
    rfl
  · simp [markRow0, showByPart_keys, showByPart_form, KeyUnit.initial]
    rfl

theorem signOffPos_others : OthersKept p s (signOffPos p s) := fun q h => by
  unfold signOffPos
  dsimp only
  split
  · simp [markRow0, showByPart_others _ _ _ h, makeInDoubt_others h, rd_upd_ne _ _ h]
  · simp [markRow0, showByPart_others _ _ _ h, rd_upd_ne _ _ h]

end

end Sys2Proof.Machine

namespace Sys2Proof.Machine

/-! ## A request's room -/

/-- The first two steps of a request's room test in a trading day (R45, R46). -/
theorem refusal_trading {s : State} (h : s.day.state = .opened ∨ s.day.state = .cutoff) (c : CapClass) (n : Nat) :
    refusal c n s = if fits c n s then none else some .journalFull := by
  unfold refusal
  rcases h with h | h <;> rw [h]

/-- The room of a control-class request, with its pending midnight (R42, R45, R47). -/
theorem fits_control_iff (n : Nat) (s : State) :
    fits .control n s = true ↔ slotsUsed s + (midnightBodies s).length + n ≤ 16256 := by
  have m : (midnightBodies s).length = if midnightAhead .control s then 1 else 0 := by
    unfold midnightBodies
    by_cases h : 0 < s.clock.midnights <;> simp [midnightAhead, h]
  have limit : CapClass.limit .control = 16256 := rfl
  rw [m]
  unfold fits
  rw [decide_eq_true_eq, limit]
  omega

theorem refusal_control_room {s : State} (h : s.day.state = .opened ∨ s.day.state = .cutoff) {n : Nat}
    (room : slotsUsed s + (midnightBodies s).length + n ≤ 16256) : refusal .control n s = none := by
  rw [refusal_trading h, if_pos ((fits_control_iff n s).2 room)]

theorem refusal_control_full {s : State} (h : s.day.state = .opened ∨ s.day.state = .cutoff) {n : Nat}
    (full : 16256 < slotsUsed s + (midnightBodies s).length + n) : refusal .control n s = some .journalFull := by
  rw [refusal_trading h, if_neg (mt (fits_control_iff n s).1 (by omega))]

theorem refusal_congr {s t : State} (hd : t.day = s.day) (hc : t.clock = s.clock) (hn : t.nv = s.nv) (c : CapClass) (n : Nat) :
    refusal c n t = refusal c n s := by
  have room : fits c n t = fits c n s := by
    unfold fits midnightAhead slotsUsed
    rw [hc, hn]
  unfold refusal
  rw [hd, room]

/-! ## The end of a balance for its group -/

section
variable {p l : Pos} {leader : Option Pos} {ab : Bool} {g : GroupRec} {k : Nat} {s t u v : State}

theorem emptiesGroup_iff (hg : rd s.groups l = some g) : emptiesGroup p (some l) s = true ↔ EmptiesGroup p g := by
  simp [emptiesGroup, EmptiesGroup, hg]

/-- The number of entries the end of a balance adds: the END mark when it empties its group (R29, R30, R35). -/
theorem groupEndBodies_length (p : Pos) (leader : Option Pos) (ab : Bool) (s : State) :
    (groupEndBodies p leader ab s).length = if emptiesGroup p leader s then 1 else 0 := by
  unfold groupEndBodies
  cases leader with
  | none => rfl
  | some l =>
    dsimp only
    cases hg : rd s.groups l with
    | none => simp [emptiesGroup, hg]
    | some g =>
      have key := emptiesGroup_iff (p := p) hg
      unfold EmptiesGroup at key
      simp only [key]
      split <;> rfl

theorem groupEndBodies_congr (p : Pos) (leader : Option Pos) (ab : Bool) (h : t.groups = s.groups) :
    groupEndBodies p leader ab t = groupEndBodies p leader ab s := by
  unfold groupEndBodies
  rw [h]

theorem emptiesGroup_congr (p : Pos) (leader : Option Pos) (h : t.groups = s.groups) :
    emptiesGroup p leader t = emptiesGroup p leader s := by
  unfold emptiesGroup
  rw [h]

/-- The state in which a group's END mark stands and its record is gone (R29). -/
def groupEnded (l : Pos) (g : GroupRec) (s : State) : State :=
  { append (.groupEnd l g.kind g.abandoned) s with groups := wr s.groups l none }

theorem completeGroup_eq (l : Pos) (g : GroupRec) (s : State) : completeGroup l g s =
    report l (.groupComplete l g.kind (groupOf s.tables.positions l) g.abandoned) (groupEnded l g s) := by
  have groups : (append (.groupEnd l g.kind g.abandoned) s).groups = s.groups := by simp
  have tables : (append (.groupEnd l g.kind g.abandoned) s).tables = s.tables := by simp
  unfold completeGroup groupEnded
  dsimp only
  rw [groups, tables]

theorem groupEnded_told (l : Pos) (g : GroupRec) (s : State) : Told 0 s (groupEnded l g s) :=
  (append_told _ s).goesOn rfl rfl

theorem completeGroup_says (l : Pos) (g : GroupRec) (s : State) : Says 1 (groupEnded l g s) (completeGroup l g s) := by
  rw [completeGroup_eq]
  exact report_says (by simp) _

theorem completeGroup_told (l : Pos) (g : GroupRec) (s : State) : Told 1 s (completeGroup l g s) :=
  (Told.trans (groupEnded_told l g s) (completeGroup_says l g s).told).mono (by omega)

theorem completeGroup_appended (l : Pos) (g : GroupRec) (s : State) :
    Appended [.groupEnd l g.kind g.abandoned] s (completeGroup l g s) := by
  refine (completeGroup_says l g s).appended ?_ ?_ ((append_appended (by simp [firstForward]) s).of_nv_jc rfl rfl rfl)
  · rw [completeGroup_eq]; simp
  · rw [completeGroup_eq]; simp

theorem completeGroup_groups (l : Pos) (g : GroupRec) (s : State) : (completeGroup l g s).groups = wr s.groups l none := by
  rw [completeGroup_eq]
  simp [groupEnded]

theorem completeGroup_reported (l : Pos) (g : GroupRec) {s : State} (on : s.line.state = .online)
    (few : s.line.outbound.length < 27) :
    Reported l (.groupComplete l g.kind (groupOf s.tables.positions l) g.abandoned) s (completeGroup l g s) := by
  rw [completeGroup_eq]
  exact (groupEnded_told l g s).reported on (by omega)

/-! ### A position leaves the pending set -/

/-- A group record with a position out of its pending set, and in the abandoned set if its balance was abandoned (R29, R35). -/
def GroupRec.without (p : Pos) (ab : Bool) (g : GroupRec) : GroupRec :=
  ⟨g.kind, g.pending.filter fun q => q != p, g.abandoned ++ if ab then [p] else []⟩

theorem leaveGroup_some (hg : rd s.groups l = some g) : leaveGroup p (some l) ab s =
    if emptiesGroup p (some l) s then completeGroup l (g.without p ab) s
    else { s with groups := wr s.groups l (some (g.without p ab)) } := by
  have rec_ : ({ g with pending := g.pending.filter fun q => q != p,
                        abandoned := if ab then g.abandoned ++ [p] else g.abandoned } : GroupRec) = g.without p ab := by
    unfold GroupRec.without
    cases ab <;> simp
  unfold leaveGroup
  simp only [hg, rec_]

theorem leaveGroup_none (hg : ∀ l, leader = some l → rd s.groups l = none) : leaveGroup p leader ab s = s := by
  unfold leaveGroup
  cases leader with
  | none => rfl
  | some l => simp only [hg l rfl]

/-- The two ways a balance ends for its group: no record to leave, or a record left. -/
theorem leaveGroup_cases (p : Pos) (leader : Option Pos) (ab : Bool) (s : State) :
    ((∀ l, leader = some l → rd s.groups l = none) ∧ leaveGroup p leader ab s = s) ∨
    ∃ l g, leader = some l ∧ rd s.groups l = some g ∧ leaveGroup p leader ab s =
      if emptiesGroup p (some l) s then completeGroup l (g.without p ab) s
      else { s with groups := wr s.groups l (some (g.without p ab)) } := by
  by_cases h : ∀ l, leader = some l → rd s.groups l = none
  · exact Or.inl ⟨h, leaveGroup_none h⟩
  · push Not at h
    obtain ⟨l, rfl, hg⟩ := h
    obtain ⟨g, hg⟩ := Option.ne_none_iff_exists'.1 hg
    exact Or.inr ⟨l, g, rfl, hg, leaveGroup_some hg⟩

theorem leaveGroup_told (p : Pos) (leader : Option Pos) (ab : Bool) (s : State) : Told 1 s (leaveGroup p leader ab s) := by
  rcases leaveGroup_cases p leader ab s with ⟨-, h⟩ | ⟨l, g, -, -, h⟩ <;> rw [h]
  · exact (Told.of_eq rfl rfl).mono (by omega)
  · split
    · exact completeGroup_told ..
    · exact Told.mono (j := 0) (.of_eq rfl rfl) (by omega)

/-- The END mark of an emptied group follows what was appended before it (R29). -/
theorem leaveGroup_appended {bs : List EntryBody} (h : Appended bs s t) (ht : Told k s t) :
    Appended (bs ++ groupEndBodies p leader ab t) s (leaveGroup p leader ab t) := by
  rcases leaveGroup_cases p leader ab t with ⟨hg, e⟩ | ⟨l, g, rfl, hg, e⟩ <;> rw [e]
  · have none : groupEndBodies p leader ab t = [] := by
      unfold groupEndBodies
      cases leader with
      | none => rfl
      | some l => simp only [hg l rfl]
    rwa [none, List.append_nil]
  · have key := emptiesGroup_iff (p := p) hg
    unfold EmptiesGroup at key
    have ends : groupEndBodies p (some l) ab t =
        if emptiesGroup p (some l) t then [.groupEnd l (g.without p ab).kind (g.without p ab).abandoned] else [] := by
      unfold groupEndBodies GroupRec.without
      simp only [hg, key]
    rw [ends]
    have told := completeGroup_told l (g.without p ab) t
    split
    · exact h.trans (completeGroup_appended ..) told.state ht.grows told.grows
    · rw [List.append_nil]
      exact h.of_nv_jc rfl rfl rfl

/-- The end of a balance for its group, in an event that tells little before it (R29, R35). -/
theorem leaveGroup_left (hv : Told k s v) (hk : k ≤ 1) (groups : v.groups = s.groups) (tables : v.tables = s.tables) {j : Nat}
    (ht : Told j (leaveGroup p leader ab v) t) (hgroups : t.groups = (leaveGroup p leader ab v).groups) :
    LeftGroup p leader ab s t := by
  rcases leaveGroup_cases p leader ab v with ⟨hg, e⟩ | ⟨l, g, rfl, hg, e⟩ <;> rw [e] at hgroups ht
  · rw [groups] at hg hgroups
    refine ⟨fun m _ => by rw [hgroups], fun l hl => ⟨fun h => by rw [hgroups, h], fun g h => ?_⟩⟩
    rw [hg l hl] at h
    cases h
  · have key := emptiesGroup_iff (p := p) hg
    rw [groups] at hg
    refine ⟨fun m hm => ?_, fun l' hl => ?_⟩
    · have ne : m ≠ l := fun e => hm (congrArg some e.symm)
      rw [hgroups]
      split
      · rw [completeGroup_groups, rd_wr_ne _ _ ne, groups]
      · exact (rd_wr_ne _ _ ne).trans (by rw [groups])
    · cases hl
      refine ⟨fun h => absurd (h.symm.trans hg) nofun, fun g' h => ?_⟩
      rw [hg] at h
      cases h
      refine ⟨fun empties => ?_, fun keeps => ?_⟩
      · rw [if_pos (key.2 empties)] at hgroups ht
        refine ⟨by rw [hgroups, completeGroup_groups, rd_wr_self], fun on few => ?_⟩
        have reported := completeGroup_reported l (g.without p ab) (hv.state.trans on)
          (by have := hv.length; omega)
        rw [tables] at reported
        exact (Queued.since reported hv).stays ht
      · rw [if_neg (mt key.1 keeps)] at hgroups
        rw [hgroups]
        exact rd_wr_self ..

end

end Sys2Proof.Machine

namespace Sys2Proof.Machine

/-! ## Requests at a position -/

/-- An event after which the positions, their groups and the clock may differ, and whose messages and entries are told apart:
what `since` leaves open aside, t is s. -/
theorem eq_since_positions {s t : State} {k : Nat} {c : Clock} (told : Told k s t) (htables : t.tables = s.tables)
    (hday : t.day = s.day) (hclock : t.clock = c) (hstore : t.store = s.store) (hqueues : t.queues = s.queues)
    (hprinters : t.printers = s.printers) (hengine : t.engine = s.engine) (hpowered : t.powered = s.powered)
    (hfree : t.freeUsed = s.freeUsed) (hpending : t.pending = s.pending) :
    t = { since s t with posns := t.posns, keys := t.keys, screens := t.screens, drawers := t.drawers, groups := t.groups,
                         clock := c } := by
  unfold since
  rw [← told.line, ← htables, ← hday, ← hclock, ← hstore, ← hqueues, ← hprinters, ← hengine, ← hpowered, ← hfree, ← hpending]

section
variable {h : Hdr} {p : Pos} {s : State}

theorem midnightBodies_arrived (s : State) : midnightBodies (arrived s) = midnightBodies s := by simp [midnightBodies]

theorem slotsUsed_arrived (s : State) : slotsUsed (arrived s) = slotsUsed s := by simp [slotsUsed]

theorem refusal_arrived (s : State) (c : CapClass) (n : Nat) : refusal c n (arrived s) = refusal c n s :=
  refusal_congr (by simp) (by simp) (by simp) c n

/-- What is told and queued from the arrival of a message on is told of the state before it, whose queue is the same. -/
theorem Replied.arrived {st : Status} {x : Extra} {t : State} (k : Replied h st x (arrived s) t) : Replied h st x s t := by
  unfold Replied at k ⊢
  rwa [arrived_outbound] at k

theorem Reported.arrived {n : Nat} {x : Report} {t : State} (k : Reported n x (arrived s) t) : Reported n x s t := by
  unfold Reported at k ⊢
  rwa [arrived_outbound] at k

theorem SignedOff.answered {st : Status} {x : Extra} {t u : State} (k : SignedOff p t u) :
    SignedOff p t (answered h st x u) := k

theorem OthersKept.answered {st : Status} {x : Extra} {t u : State} (k : OthersKept p t u) :
    OthersKept p t (answered h st x u) := k

theorem atPosition_bad (f : Pos → State → State) (s : State) (hp : 16 ≤ h.pos) :
    atPosition h f s = answered h .badPosition .none s := by
  unfold atPosition
  rw [dif_neg (by omega), reply_eq]

theorem exec_signOn (b : SignOnBody) (ht : Takes s) : exec (.signOn h b) s = .next (match b with
    | .noKnownRequest => answered h .malformed .none (arrived s)
    | .request t => atPosition h (signOnRequest h t) (arrived s)) := by
  refine ((show exec (.signOn h b) s = execSignOn h b s from rfl).trans (message_eq h _ ht)).trans ?_
  cases b <;> simp only [reply_eq]

theorem exec_unlock (ht : Takes s) : exec (.unlock h) s = .next (atPosition h (fun p s =>
    if (rd s.posns p).state = .awaiting then reply h .accepted (release p s) else reply h .positionState s) (arrived s)) :=
  (show exec (.unlock h) s = execUnlock h s from rfl).trans (message_eq h _ ht)

theorem exec_forceSignOff (ht : Takes s) (hp : h.pos = p.val) : exec (.forceSignOff h) s = .next
    (match (rd s.posns p).state with
      | .signedOff => answered h .positionState .none (arrived s)
      | .ready => answered h .accepted .none (signOffPos p (arrived s))
      | .awaiting => answered h .accepted .none (signOffPos p (arrived s))
      | .balancing => forceOffBalancing h p (arrived s)) := by
  have posns : (arrived s).posns = s.posns := by simp
  refine ((show exec (.forceSignOff h) s = execForceSignOff h s from rfl).trans (message_eq h _ ht)).trans ?_
  rw [atPosition_eq h _ _ hp, posns]
  cases (rd s.posns p).state <;> simp only [reply_eq]

/-- A SIGN ON at a position, by its first failing check (R82). -/
theorem signOnRequest_eq {tid : List (Fin 10)} (h6 : tid.length = 6) (u : State) : signOnRequest h (some tid) p u =
    if u.day.state ≠ .opened then answered h .dayState .none u
    else if (rd u.posns p).state ≠ .signedOff then answered h .positionState .none u
    else answered h .accepted .none (signOnPos p tid u) := by
  have keep : (some tid).filter (fun t : List (Fin 10) => t.length == 6) = some tid := by simp [h6]
  unfold signOnRequest
  rw [keep]
  simp only [reply_eq]

theorem signOnRequest_malformed {tid : Option (List (Fin 10))} (hn : ∀ x, tid = some x → x.length ≠ 6) (u : State) :
    signOnRequest h tid p u = answered h .malformed .none u := by
  have drop : tid.filter (fun t : List (Fin 10) => t.length == 6) = none := by
    cases tid with
    | none => rfl
    | some x => simp [hn x rfl]
  unfold signOnRequest
  rw [drop]
  exact reply_eq ..

/-- A FORCE SIGN OFF of a position that balances, by its room (R35). -/
theorem forceOffBalancing_eq {c : BalCtx} (hc : (rd s.drawers p).ctx = some c) : forceOffBalancing h p s =
    match refusal .control (1 + (groupEndBodies p c.leader true s).length) s with
    | some st => answered h st .none s
    | none => answered h .accepted .none (abandonBalance p c s) := by
  unfold forceOffBalancing
  rw [hc, groupEndBodies_length]
  dsimp only
  cases refusal .control (1 + if emptiesGroup p c.leader s then 1 else 0) s <;> exact reply_eq ..

/-- Signing off changes a position's record, key unit, screen and drawer alone. -/
theorem signOffPos_eq (p : Pos) (s : State) : signOffPos p s =
    { s with posns := (signOffPos p s).posns, keys := (signOffPos p s).keys, screens := (signOffPos p s).screens,
             drawers := (signOffPos p s).drawers } := by
  have frame := signOffPos_frame p s
  generalize signOffPos p s = t at frame ⊢
  cases s
  cases t
  simp_all

/-! ### A balance abandoned -/

/-- The state in which a balance's BALANCE ABANDONED stands, and its position is signed off (R35). -/
theorem abandonBalance_spec (p : Pos) (c : BalCtx) (u : State) : let t := abandonBalance p c u
    Appended (midnightBodies u ++ [.abandoned p c.kind c.number .forceSignOff] ++ groupEndBodies p c.leader true u) u t ∧
    SignedOff p u t ∧ OthersKept p u t ∧ Told 1 u t ∧ t.clock = { u.clock with midnights := 0 } ∧
    ∀ {j : Nat} {t' : State}, Told j t t' → t'.groups = t.groups → LeftGroup p c.leader true u t' := by
  obtain ⟨a, ha⟩ : ∃ a, a = append (.abandoned p c.kind c.number .forceSignOff) (placeMidnight .control u) := ⟨_, rfl⟩
  obtain ⟨v, hv⟩ : ∃ v, v = signOffPos p a := ⟨_, rfl⟩
  have posns : a.posns = u.posns := by simp [ha]
  have keys : a.keys = u.keys := by simp [ha]
  have screens : a.screens = u.screens := by simp [ha]
  have drawers : a.drawers = u.drawers := by simp [ha]
  have tables : a.tables = u.tables := by simp [ha]
  have groups : v.groups = u.groups := by simp [hv, ha]
  have told : Told 0 u v := by
    have : Told 0 u a := ha ▸ (placeMidnight_told _ _).trans (append_told _ _)
    exact hv ▸ this.goesOn (by simp) (by simp)
  have entry : Appended (midnightBodies u ++ [.abandoned p c.kind c.number .forceSignOff]) u v := by
    have : Appended _ u a := ha ▸ placeMidnight_append (by decide) (by simp [firstForward]) u
    exact hv ▸ this.of_nv_jc (by simp) (by simp) (by simp)
  have last : abandonBalance p c u = leaveGroup p c.leader true v := by rw [hv, ha]; rfl
  have off : SignedOff p a v := hv ▸ signOffPos_signedOff p a
  have others : OthersKept p a v := hv ▸ signOffPos_others p a
  unfold SignedOff at off
  unfold OthersKept at others
  rw [posns, drawers, shownForm_congr tables] at off
  rw [posns, keys, screens, drawers] at others
  dsimp only
  rw [last]
  refine ⟨?_, ?_, fun q hq => ?_, (told.trans (leaveGroup_told ..)).mono (by omega), ?_, fun ht hg => ?_⟩
  · rw [← groupEndBodies_congr p c.leader true groups]
    exact leaveGroup_appended entry told
  · simpa [SignedOff] using off
  · simpa using others q hq
  · simp [hv, ha, placeMidnight_midnights]
  · exact leaveGroup_left told (by omega) groups (by simp [hv, ha]) ht hg

end

/-- Settles O44: each request in the state its message arrives in, by the state of its position. -/
theorem positionRequestsChangeState : Obligations.PositionRequestsChangeState := by
  refine ⟨fun h s ht => ⟨exec_signOn _ ht, fun hp c hc => ?_⟩, fun h p s ht hp => ?_⟩
  · rcases hc with ⟨tid, rfl⟩ | rfl | rfl
    · rw [exec_signOn _ ht]; exact congrArg _ (atPosition_bad _ _ hp)
    · rw [exec_unlock ht, atPosition_bad _ _ hp]
    · exact (message_eq h _ ht).trans (congrArg _ (atPosition_bad _ _ hp))
  have day : (arrived s).day = s.day := by simp
  have posns : (arrived s).posns = s.posns := by simp
  have keys : (arrived s).keys = s.keys := by simp
  have drawers : (arrived s).drawers = s.drawers := by simp
  have signOn (tid : Option (List (Fin 10))) :
      exec (.signOn h (.request tid)) s = .next (signOnRequest h tid p (arrived s)) := by
    rw [exec_signOn _ ht]
    exact congrArg _ (atPosition_eq h _ _ hp)
  have unlock := exec_unlock (h := h) ht
  rw [atPosition_eq h _ _ hp, posns] at unlock
  have signOff := exec_forceSignOff ht hp
  refine ⟨fun tid h6 hd hs => ?_, fun tid hn => ?_, fun tid h6 => ⟨fun hd => ?_, fun hd hs => ?_⟩, fun hs => ?_, fun hs => ?_,
    fun hs => ?_, fun hs => ?_, fun c hs hc hd => ⟨fun room => ?_, fun full => ?_⟩⟩
  · rw [signOn, signOnRequest_eq h6, day, posns, if_neg (by simp [hd]), if_neg (by simp [hs])]
    refine ⟨_, rfl, ?_, ?_, ?_, fun q hq => ?_, rfl⟩
    · simp [answered, signOnPos, markRow0]
    · simp [answered, signOnPos, markRow0, mark_dirty]
    · simpa [answered, signOnPos, markRow0] using SameButDirty.mark 0 _
    · simp [answered, signOnPos, markRow0, rd_upd_ne _ _ hq]
  · rw [signOn, signOnRequest_malformed hn]
  · rw [signOn, signOnRequest_eq h6, day, if_pos hd]
  · rw [signOn, signOnRequest_eq h6, day, posns, if_neg (by simp [hd]), if_pos hs]
  · rw [unlock, if_pos hs, reply_eq]
    have posn := release_pos p (arrived s)
    rw [posns, if_pos hs] at posn
    have unit : rd (release p (arrived s)).keys p = { rd s.keys p with timer := none } ∧
        rd (release p (arrived s)).screens p = (rd (arrived s).screens p).mark 0 := by
      unfold release
      rw [posns, if_pos hs]
      exact ⟨keys ▸ (makeInDoubt_pos ..).2.1, (makeInDoubt_pos ..).2.2⟩
    refine ⟨_, rfl, posn, unit.1, ?_, ?_, fun q hq => ?_, ?_⟩
    · simp [answered, unit, mark_dirty]
    · simpa [answered, unit] using SameButDirty.mark 0 _
    · simp [answered, release_others hq]
    · unfold release
      rw [posns, if_pos hs]
      rfl
  · rw [unlock, if_neg hs, reply_eq]
  · rw [signOff, hs]
  · have off := signOffPos_signedOff p (arrived s)
    refine ⟨answered h .accepted .none (signOffPos p (arrived s)), ?_, off.answered,
      (signOffPos_others p (arrived s)).answered, ?_⟩
    · rw [signOff]
      rcases hs with hs | hs <;> rw [hs]
    · have rest := signOffPos_eq p (arrived s)
      generalize signOffPos p (arrived s) = t at rest ⊢
      conv_lhs => rw [rest]
      rfl
  · have groups : (arrived s).groups = s.groups := by simp
    have bodies := groupEndBodies_congr p c.leader true groups
    have fits : refusal .control (1 + (groupEndBodies p c.leader true (arrived s)).length) (arrived s) = none := by
      rw [bodies, refusal_arrived]
      exact refusal_control_room hd (by simpa [Nat.add_assoc] using room)
    obtain ⟨entries, off, others, told, clock, left⟩ := abandonBalance_spec p c (arrived s)
    rw [midnightBodies_arrived, bodies] at entries
    have replied := answered_says h .accepted .none (abandonBalance p c (arrived s))
    refine ⟨answered h .accepted .none (abandonBalance p c (arrived s)), ?_, ?_, off, others, left replied.told rfl,
      fun few => ?_, ?_⟩
    · rw [signOff, hs]
      simp only [forceOffBalancing_eq (drawers ▸ hc), fits]
    · exact (replied.appended rfl rfl entries).arrived
    · exact Replied.arrived (told.replied (by rw [arrived_outbound]; omega))
    · refine eq_since_positions (told.trans replied.told) ?_ ?_ ?_ ?_ ?_ ?_ ?_ ?_ ?_ ?_
      all_goals simp [answered, clock]
  · have groups : (arrived s).groups = s.groups := by simp
    have refused : refusal .control (1 + (groupEndBodies p c.leader true (arrived s)).length) (arrived s) =
        some .journalFull := by
      rw [groupEndBodies_congr p c.leader true groups, refusal_arrived]
      exact refusal_control_full hd (by simpa [Nat.add_assoc] using full)
    rw [signOff, hs]
    simp only [forceOffBalancing_eq (drawers ▸ hc), refused]

end Sys2Proof.Machine

namespace Sys2Proof.Machine

/-! ## A drawer captured -/

section
variable (k : BalKind) (l : Option Pos) (p : Pos) (s : State)

/-- The CAPTURE entry of a drawer as it stands (R23). -/
def captureBody (k : BalKind) (l : Option Pos) (p : Pos) (s : State) : EntryBody :=
  .capture ⟨p, k, captureAfter s p, l, (rd s.drawers p).lines⟩

/-- The CAPTURE_TAKEN of a drawer as it stands (R23). -/
def captureReport (k : BalKind) (p : Pos) (s : State) : Report :=
  .captureTaken p k (captureAfter s p) s.clock.time (rd s.drawers p).lines

/-- The state in which a CAPTURE entry stands and its drawer is captured, before it is reported (R23). -/
def captureEntered (k : BalKind) (l : Option Pos) (p : Pos) (s : State) : State :=
  (append (captureBody k l p s) s).updDrawer p fun d =>
    { d with captureNo := captureAfter s p, lines := mapV d.lines DLine.clearMark }

theorem captureOne_eq : captureOne k l p s = report p (captureReport k p s) (captureEntered k l p s) := by
  have clock : (captureEntered k l p s).clock = s.clock := by simp [captureEntered]
  unfold captureReport
  rw [← clock]
  rfl

theorem captureEntered_told : Told 0 s (captureEntered k l p s) := (append_told _ s).goesOn (by simp [captureEntered]) rfl

theorem captureOne_says : Says 1 (captureEntered k l p s) (captureOne k l p s) := by
  rw [captureOne_eq]
  exact report_says (by simp [captureReport]) _

theorem captureOne_told : Told 1 s (captureOne k l p s) :=
  ((captureEntered_told k l p s).trans (captureOne_says k l p s).told).mono (by omega)

theorem captureOne_appended : Appended [captureBody k l p s] s (captureOne k l p s) := by
  refine (captureOne_says k l p s).appended ?_ ?_ ((append_appended ?_ s).of_nv_jc ?_ ?_ ?_)
  · rw [captureOne_eq]; simp
  · rw [captureOne_eq]; simp
  · simp [captureBody, firstForward]
  · simp [captureEntered]
  · simp [captureEntered]
  · simp [captureEntered]

theorem captureOne_drawers : (captureOne k l p s).drawers = upd s.drawers p fun d =>
    { d with captureNo := captureAfter s p, lines := mapV d.lines DLine.clearMark } := by
  rw [captureOne_eq]
  simp [captureEntered]

theorem captureOne_captured : Captured p s (captureOne k l p s) := by
  unfold Captured
  simp [captureOne_drawers, DLine.clearMark]

theorem captureOne_others {q : Pos} (h : q ≠ p) : rd (captureOne k l p s).drawers q = rd s.drawers q := by
  rw [captureOne_drawers, rd_upd_ne _ _ h]

end

section
variable {p : Pos} {s t : State} {j : Nat}

theorem Told.captured (h : Told j s t) (k : BalKind) (l : Option Pos) (p : Pos) (on : s.line.state = .online)
    (few : s.line.outbound.length + j + 1 < 28) : Reported p (captureReport k p t) s (captureOne k l p t) := by
  rw [captureOne_eq]
  exact ((h.trans (captureEntered_told k l p t)).reported on few)

theorem captureAfter_congr (h : rd t.drawers p = rd s.drawers p) : captureAfter t p = captureAfter s p := by
  simp only [captureAfter, h]

theorem captureBody_congr (h : rd t.drawers p = rd s.drawers p) (k : BalKind) (l : Option Pos) :
    captureBody k l p t = captureBody k l p s := by
  simp only [captureBody, captureAfter, h]

theorem captureReport_congr (h : rd t.drawers p = rd s.drawers p) (hc : t.clock.time = s.clock.time) (k : BalKind) :
    captureReport k p t = captureReport k p s := by
  simp only [captureReport, captureAfter, h, hc]

end

end Sys2Proof.Machine

namespace Sys2Proof.Machine

/-! ## Balance requests -/

/-- What a BALANCE request is answered: its checks of time, its position, the checks of its own there (R26, R28). -/
def balanceAnswer (h : Hdr) (check : Pos → State → Option Status) (act : Pos → State → State) (u : State) : State :=
  match balanceTimeRefusal u with
  | some st => answered h st .none u
  | none => atPosition h (fun p v => match check p v with
      | some st => answered h st .none v
      | none => answered h .accepted .none (act p v)) u

section
variable {h : Hdr} {p : Pos} {u s : State} {check : Pos → State → Option Status} {act : Pos → State → State} {st : Status}

theorem balanceTimeRefusal_trading (ht : Trading u) : balanceTimeRefusal u = none := by
  unfold balanceTimeRefusal
  rw [if_neg (not_not_intro ht.1), if_neg (by simp [ht.2])]

/-- The checks of a BALANCE request that name no position's state, in order. -/
theorem balanceAnswer_early (hf : FirstFails
    [ (u.day.state = .opened ∨ u.day.state = .cutoff, .dayState), (u.clock.isSet = true, .clockUnset),
      (h.pos < 16, .badPosition) ] st) : balanceAnswer h check act u = answered h st .none u := by
  unfold balanceAnswer
  rcases hf with ⟨hn, rfl⟩ | ⟨day, ⟨hn, rfl⟩ | ⟨clock, ⟨hn, rfl⟩ | ⟨-, hf⟩⟩⟩
  · unfold balanceTimeRefusal
    rw [if_pos hn]
  · unfold balanceTimeRefusal
    rw [if_neg (not_not_intro day), if_pos (by simpa using hn)]
  · rw [balanceTimeRefusal_trading ⟨day, clock⟩]
    exact atPosition_bad _ _ (Nat.not_lt.1 hn)
  · exact hf.elim

theorem balanceAnswer_refused (ht : Trading u) (hp : h.pos = p.val) (hc : check p u = some st) :
    balanceAnswer h check act u = answered h st .none u := by
  unfold balanceAnswer
  rw [balanceTimeRefusal_trading ht]
  dsimp only
  rw [atPosition_eq h _ _ hp, hc]

theorem balanceAnswer_taken (ht : Trading u) (hp : h.pos = p.val) (hc : check p u = none) :
    balanceAnswer h check act u = answered h .accepted .none (act p u) := by
  unfold balanceAnswer
  rw [balanceTimeRefusal_trading ht]
  dsimp only
  rw [atPosition_eq h _ _ hp, hc]

theorem Trading.takes (hp : s.powered = true) (h : Trading s) : Takes s :=
  ⟨hp, fun e => by rcases h.1 with d | d <;> rw [e] at d <;> cases d⟩

theorem Trading.arrived (h : Trading s) : Trading (arrived s) := by simpa [Trading] using h

/-- The checks of a single balance request at its position (R26). -/
def singleCheck (p : Pos) (s : State) : Option Status :=
  if signedOnFree s p = false then some .positionState else refusal .control 4 s

theorem exec_balanceRequest_none (ht : Takes s) :
    exec (.positionControlBalance h none) s = .next (answered h Config.balanceBodyStatus .none (arrived s)) :=
  ((show exec (.positionControlBalance h none) s = execPositionControlBalance h none s from rfl).trans
    (message_eq h _ ht)).trans (congrArg _ (reply_eq ..))

theorem exec_balanceRequest (k : BalKind) (ht : Takes s) : exec (.positionControlBalance h (some k)) s =
    .next (balanceAnswer h singleCheck (singleBalance k) (arrived s)) := by
  refine ((show exec (.positionControlBalance h (some k)) s = execPositionControlBalance h (some k) s from rfl).trans
    (message_eq h _ ht)).trans (congrArg _ ?_)
  unfold withKind balanceAnswer
  dsimp only
  cases balanceTimeRefusal (arrived s) with
  | some st => exact reply_eq ..
  | none =>
    dsimp only
    congr 1
    funext p v
    unfold singleCheck
    split
    · exact reply_eq ..
    · cases refusal .control 4 v <;> exact reply_eq ..

end

theorem Captured.congr {p : Pos} {s s' t t' : State} (h : Captured p s t) (hs : s'.drawers = s.drawers)
    (ht : t'.drawers = t.drawers) : Captured p s' t' := by
  unfold Captured at h ⊢
  rwa [captureAfter_congr (congrArg (rd · p) hs), hs, ht]

theorem BalanceBegun.congr {k : BalKind} {l : Option Pos} {p : Pos} {s s' t : State} (h : BalanceBegun k l p s t)
    (hd : s'.drawers = s.drawers) (hp : s'.posns = s.posns) (hs : s'.screens = s.screens) (ht : s'.tables = s.tables) :
    BalanceBegun k l p s' t := by
  unfold BalanceBegun at h ⊢
  rwa [captureAfter_congr (congrArg (rd · p) hd), hp, hs, shownForm_congr ht]

theorem BalanceBegun.answered {h : Hdr} {st : Status} {x : Extra} {k : BalKind} {l : Option Pos} {p : Pos} {s t : State}
    (b : BalanceBegun k l p s t) : BalanceBegun k l p s (answered h st x t) := b

theorem midnightBodies_congr {s t : State} (h : t.clock = s.clock) : midnightBodies t = midnightBodies s := by
  simp only [midnightBodies, h]

/-! ### A single balance -/

/-- What a single balance that is taken leaves and tells (R23, R24). -/
theorem singleBalance_spec (k : BalKind) (p : Pos) (u : State) : let t := singleBalance k p u
    Appended (midnightBodies u ++ [captureBody k none p u]) u t ∧ Captured p u t ∧ BalanceBegun k none p u t ∧
    OthersKept p u t ∧ (rd t.keys p).queue = (rd u.keys p).queue ∧ Told 1 u t ∧
    (u.line.state = .online → u.line.outbound.length < 26 → Reported p (captureReport k p u) u t) ∧
    t.clock = { u.clock with midnights := 0 } := by
  obtain ⟨m, hm⟩ : ∃ m, m = placeMidnight .control u := ⟨_, rfl⟩
  obtain ⟨v, hv⟩ : ∃ v, v = captureOne k none p m := ⟨_, rfl⟩
  have toldM : Told 0 u m := hm ▸ placeMidnight_told _ _
  have toldV : Told 1 m v := hv ▸ captureOne_told k none p m
  have posns : v.posns = u.posns := by simp [hv, hm]
  have keys : v.keys = u.keys := by simp [hv, hm]
  have screens : v.screens = u.screens := by simp [hv, hm]
  have drawers : m.drawers = u.drawers := by simp [hm]
  have tables : v.tables = u.tables := by simp [hv, hm]
  have entry : Appended (midnightBodies u ++ [captureBody k none p u]) u v := by
    have := captureOne_appended k none p m
    rw [captureBody_congr (congrArg (rd · p) drawers), ← hv] at this
    exact Appended.afterMidnight (by decide) (hm ▸ this) (hm ▸ toldV)
  have captured : Captured p u v := by
    have := captureOne_captured k none p m
    rw [← hv] at this
    unfold Captured at this ⊢
    rwa [captureAfter_congr (congrArg (rd · p) drawers), drawers] at this
  obtain ⟨pos, queue, timer, form, drawer⟩ := beginBalance_pos p v k none
  have others := beginBalance_others p v k none
  have last : singleBalance k p u = beginBalance k none p v := by rw [hv, hm]; rfl
  rw [posns] at pos timer
  rw [keys] at queue
  rw [shownForm_congr tables] at form
  rw [screens] at drawer
  dsimp only
  rw [last]
  refine ⟨entry.of_nv_jc (by simp) (by simp) (by simp), ?_, ⟨?_, pos, form, timer⟩, fun q hq => ?_, queue,
    ((toldM.trans toldV).goesOn (by simp) (by simp)).mono (by omega), fun on few => ?_, ?_⟩
  · unfold Captured at captured ⊢
    rwa [drawer]
  · rw [drawer, captured.1]
  · obtain ⟨posns', keys', screens', drawers'⟩ := others q hq
    refine ⟨by rw [posns', posns], by rw [keys', keys], by rw [screens', screens], ?_⟩
    rw [drawers', hv, captureOne_others _ _ _ _ hq, drawers]
  · have := toldM.captured k none p on (by omega)
    rw [captureReport_congr (congrArg (rd · p) drawers) (by simp [hm]), ← hv] at this
    unfold Reported at this ⊢
    rwa [(beginBalance_frame k none p v).1]
  · simp [hv, hm, placeMidnight_midnights]

/-- Events in which balances are begun, told by what they leave of the other blocks. -/
theorem singleBalance_since (k : BalKind) (p : Pos) (u : State) : let t := singleBalance k p u
    t = { since u t with posns := t.posns, drawers := t.drawers, screens := t.screens, keys := t.keys,
                         clock := { u.clock with midnights := 0 } } := by
  obtain ⟨-, -, -, -, -, told, -, clock⟩ := singleBalance_spec k p u
  have := eq_since_positions told (c := { u.clock with midnights := 0 }) (by simp) (by simp) clock (by simp) (by simp) (by simp)
    (by simp) (by simp) (by simp) (by simp)
  have groups : (singleBalance k p u).groups = u.groups := by simp
  dsimp only
  conv_lhs => rw [this, groups]
  rfl

/-! ### The keys -/

section
variable {p : Pos} {rest : List Token} {s : State} {key : Token}

/-- A TONE, then a notice, answer the token. -/
theorem refused_toneNotice (p : Pos) (rest : List Token) (x : List Byte) (s : State) :
    RefusedWith p rest (some x) none s (notice p x (tone p (popped p rest s.begin))) :=
  refusedWith_intro rfl ((popped_step p rest s.begin).trans (EditorStep.tone.trans (.notice x)))
    (by simp [toneOut_congr (s := s) (t := popped p rest s.begin) (p := p) (by simp)]) (by simp) (by simp [movedTo])

theorem refusal_popped (c : CapClass) (n : Nat) : refusal c n (popped p rest s.begin) = refusal c n s :=
  refusal_congr (by simp) (by simp) (by simp) c n

/-- A BALANCE or SIGN OFF key, with the kind of its balance (R25). -/
theorem exec_balanceKey (hp : s.powered = true) (hq : (rd s.keys p).queue = key :: rest) (ha : Acts s p key) (k : BalKind)
    (hk : key = .balance ∧ k = .interim ∨ key = .signOff ∧ k = .final) :
    exec (takeOf p key) s = .next (balanceKey k p (popped p rest s.begin)) := by
  rcases hk with ⟨rfl, rfl⟩ | ⟨rfl, rfl⟩
  · exact (show exec (.balance p) s = execBalance p s from rfl).trans (keyCommand_acts hp hq ha)
  · exact (show exec (.signOff p) s = execSignOff p s from rfl).trans (keyCommand_acts hp hq ha)

theorem balanceKey_idle (k : BalKind) (h : ¬Trading s ∨ (rd s.posns p).state ≠ .ready) : balanceKey k p s = tone p s := by
  unfold balanceKey
  rw [if_pos]
  rintro ⟨ready, day, clock⟩
  exact h.elim (fun n => n ⟨day, clock⟩) fun n => n ready

theorem balanceKey_ready (k : BalKind) (ht : Trading s) (hr : (rd s.posns p).state = .ready) : balanceKey k p s =
    match refusal .control 4 s with
    | some st => notice p st.name (tone p s)
    | none => singleBalance k p s := by
  unfold balanceKey
  exact if_neg (not_not_intro ⟨hr, ht⟩)

/-- A key that begins a single balance (R25). -/
theorem balanceKey_taken (hp : s.powered = true) (ht : Trading s)
    (room : slotsUsed s + (midnightBodies s).length + 4 ≤ 16256) (hr : (rd s.posns p).state = .ready)
    (hq : (rd s.keys p).queue = key :: rest) (k : BalKind)
    (hk : key = .balance ∧ k = .interim ∨ key = .signOff ∧ k = .final) :
    ∃ t, exec (takeOf p key) s = .next t ∧ Appended (midnightBodies s ++ [captureBody k none p s]) s t ∧ Captured p s t ∧
      BalanceBegun k none p s t ∧ OthersKept p s t ∧ (rd t.keys p).queue = rest ∧
      (s.line.state = .online → s.line.outbound.length ≤ 24 → Reported p (captureReport k p s) s t) ∧
      t = { since s t with posns := t.posns, drawers := t.drawers, screens := t.screens, keys := t.keys,
                           clock := { s.clock with midnights := 0 } } := by
  obtain ⟨u, hu⟩ : ∃ u, u = popped p rest s.begin := ⟨_, rfl⟩
  have keys : rd u.keys p = { rd s.keys p with queue := rest } := by simp [hu]
  have run : exec (takeOf p key) s = .next (singleBalance k p u) := by
    rw [exec_balanceKey hp hq (.inl hr) k hk, balanceKey_ready k (by simpa [Trading] using ht) (by simpa using hr),
      refusal_popped, refusal_control_room ht.1 room, hu]
  obtain ⟨entry, captured, begun, others, queue, -, reported, -⟩ := singleBalance_spec k p u
  have since := singleBalance_since k p u
  have drawers : u.drawers = s.drawers := by simp [hu]
  have clock : u.clock = s.clock := by simp [hu]
  have line : u.line = s.line := by simp [hu]
  rw [midnightBodies_congr clock, captureBody_congr (congrArg (rd · p) drawers)] at entry
  refine ⟨singleBalance k p u, run, ?_, captured.congr drawers.symm rfl, ?_, fun q hq => ?_, queue.trans (by rw [keys]),
    fun on few => ?_, ?_⟩
  · exact entry.congr (by simp [hu]) (by simp [hu]) (by simp [hu])
  · exact begun.congr (by simp [hu]) (by simp [hu]) (by simp [hu]) (by simp [hu])
  · have := others q hq
    simpa [hu, popped, rd_upd_ne _ _ hq] using this
  · have := reported (by rwa [line]) (by rw [line]; omega)
    unfold Reported at this ⊢
    rwa [captureReport_congr (congrArg (rd · p) drawers) (by rw [clock]), line] at this
  · conv_lhs => rw [since]
    rw [hu]
    rfl

end

/-- Settles O33: the requests by their checks, the keys by theirs, and the event both may begin. -/
theorem singleBalanceCaptures : Obligations.SingleBalanceCaptures := by
  refine ⟨fun h s ht => ⟨exec_balanceRequest_none ht, fun k st hf => ?_⟩, fun p key rest s hp hkey hq ha => ?_,
    fun p s hp hd hc room => ⟨fun h k hpos hs => ?_, fun rest hr hq => ?_, fun rest hr hq => ?_⟩⟩
  · rw [exec_balanceRequest k ht]
    rcases hf with hf | ⟨day, hf | ⟨clock, hf | ⟨pos, ⟨hn, rfl⟩ | ⟨free, ⟨hn, rfl⟩ | hf⟩⟩⟩⟩
    · rw [balanceAnswer_early (.inl (by simpa using hf))]
    · rw [balanceAnswer_early (.inr ⟨by simpa using day, .inl (by simpa using hf)⟩)]
    · rw [balanceAnswer_early (.inr ⟨by simpa using day, .inr ⟨by simpa using clock, .inl hf⟩⟩)]
    · have : singleCheck ⟨h.pos, pos⟩ (arrived s) = some .positionState := by
        unfold singleCheck signedOnFree
        rw [if_pos]
        simpa using fun n => hn ⟨⟨h.pos, pos⟩, rfl, n⟩
      rw [balanceAnswer_refused (Trading.arrived ⟨day, clock⟩) (p := ⟨h.pos, pos⟩) rfl this]
    · obtain ⟨p, hp, hs⟩ := free
      have : singleCheck p (arrived s) = some .journalFull := by
        unfold singleCheck signedOnFree
        rw [if_neg (by simpa [or_iff_not_imp_left] using hs), refusal_arrived, refusal_control_full day (by omega)]
      rw [balanceAnswer_refused (Trading.arrived ⟨day, clock⟩) hp this]
    · cases hf.2
  · obtain ⟨k, hk⟩ : ∃ k, key = .balance ∧ k = BalKind.interim ∨ key = .signOff ∧ k = .final :=
      hkey.elim (fun h => ⟨_, .inl ⟨h, rfl⟩⟩) fun h => ⟨_, .inr ⟨h, rfl⟩⟩
    have run := exec_balanceKey hp hq ha k hk
    refine ⟨fun idle => ⟨_, run, ?_⟩, fun ht hr full => ⟨_, run, ?_⟩⟩
    · rw [balanceKey_idle k (by simpa [Trading] using idle)]
      exact refused_tone p rest s
    · rw [balanceKey_ready k (by simpa [Trading] using ht) (by simpa using hr), refusal_popped,
        refusal_control_full ht.1 full]
      exact refused_toneNotice p rest _ s
  · have drawers : (arrived s).drawers = s.drawers := by simp
    have clock : (arrived s).clock = s.clock := by simp
    have check : singleCheck p (arrived s) = none := by
      unfold singleCheck signedOnFree
      rw [if_neg (by simpa [or_iff_not_imp_left] using hs), refusal_arrived, refusal_control_room hd room]
    obtain ⟨entry, captured, begun, others, queue, told, reported, -⟩ := singleBalance_spec k p (arrived s)
    have since := singleBalance_since k p (arrived s)
    rw [midnightBodies_congr clock, captureBody_congr (congrArg (rd · p) drawers)] at entry
    have run : exec (.positionControlBalance h (some k)) s =
        .next (answered h .accepted .none (singleBalance k p (arrived s))) := by
      rw [exec_balanceRequest k (Trading.takes hp ⟨hd, hc⟩), balanceAnswer_taken (Trading.arrived ⟨hd, hc⟩) hpos check]
    dsimp only at since
    generalize singleBalance k p (arrived s) = t at *
    have replied := answered_says h .accepted .none t
    refine ⟨_, run, (replied.appended rfl rfl entry).arrived, captured.congr drawers.symm rfl, begun.answered,
      others.answered, queue.trans (by simp), fun few => ⟨?_, ?_⟩, ?_⟩
    · have := reported (arrived_online s) (by rw [arrived_outbound]; omega)
      rw [captureReport_congr (congrArg (rd · p) drawers) (by rw [clock])] at this
      exact Reported.arrived (Queued.stays this replied.told)
    · exact Replied.arrived (told.replied (by rw [arrived_outbound]; omega))
    · rw [clock] at since
      conv_lhs => rw [since]
      rfl
  · exact balanceKey_taken hp ⟨hd, hc⟩ room hr hq .interim (.inl ⟨rfl, rfl⟩)
  · exact balanceKey_taken hp ⟨hd, hc⟩ room hr hq .final (.inr ⟨rfl, rfl⟩)

end Sys2Proof.Machine

namespace Sys2Proof.Machine

/-! ## A group captured, and its balances begun -/

/-- Every drawer of a group captured, in its order (R28). -/
def captureAll (k : BalKind) (l : Pos) (g : List Pos) (s : State) : State :=
  g.foldl (fun s q => captureOne k (some l) q s) s

/-- A balance begun on every position of a list, in its order (R28). -/
def beginAll (k : BalKind) (l : Pos) (on : List Pos) (s : State) : State :=
  on.foldl (fun s q => beginBalance k (some l) q s) s

section
variable (k : BalKind) (l : Pos) (g : List Pos) (s : State)

@[simp] theorem captureAll_frame : (captureAll k l g s).tables = s.tables ∧ (captureAll k l g s).posns = s.posns ∧
    (captureAll k l g s).screens = s.screens ∧ (captureAll k l g s).keys = s.keys ∧
    (captureAll k l g s).groups = s.groups ∧ (captureAll k l g s).clock = s.clock := by
  simpa [captureAll] using foldl_keeps (fun x : State => (x.tables, x.posns, x.screens, x.keys, x.groups, x.clock))
    (fun s q => captureOne k (some l) q s) (by intros; simp) g s

@[simp] theorem beginAll_frame : (beginAll k l g s).line = s.line ∧ (beginAll k l g s).tables = s.tables ∧
    (beginAll k l g s).groups = s.groups ∧ (beginAll k l g s).nv = s.nv ∧ (beginAll k l g s).jc = s.jc ∧
    (beginAll k l g s).clock = s.clock := by
  simpa [beginAll] using foldl_keeps (fun x : State => (x.line, x.tables, x.groups, x.nv, x.jc, x.clock))
    (fun s q => beginBalance k (some l) q s) (by intros; simp) g s

end

section
variable {k : BalKind} {l p q : Pos} {g : List Pos} {s u : State} {j : Nat}

theorem captureAll_cons (k : BalKind) (l p : Pos) (g : List Pos) (s : State) :
    captureAll k l (p :: g) s = captureAll k l g (captureOne k (some l) p s) := rfl

theorem beginAll_cons (k : BalKind) (l p : Pos) (g : List Pos) (s : State) :
    beginAll k l (p :: g) s = beginAll k l g (beginBalance k (some l) p s) := rfl

/-- A drawer outside the list is not captured. -/
theorem captureAll_others (h : q ∉ g) : rd (captureAll k l g s).drawers q = rd s.drawers q := by
  induction g generalizing s with
  | nil => rfl
  | cons p g ih =>
    rw [List.mem_cons, not_or] at h
    rw [captureAll_cons, ih h.2, captureOne_others _ _ _ _ h.1]

/-- A drawer of the list is captured once, and keeps its context. -/
theorem captureAll_captured (hn : g.Nodup) (h : q ∈ g) : Captured q s (captureAll k l g s) ∧
    (rd (captureAll k l g s).drawers q).ctx = (rd s.drawers q).ctx := by
  induction g generalizing s with
  | nil => cases h
  | cons p g ih =>
    rw [List.nodup_cons] at hn
    rw [captureAll_cons]
    by_cases e : q = p
    · subst e
      have kept := captureAll_others (k := k) (l := l) (s := captureOne k (some l) q s) hn.1
      refine ⟨?_, ?_⟩
      · have := captureOne_captured k (some l) q s
        unfold Captured at this ⊢
        rwa [kept]
      · rw [kept, captureOne_drawers]
        simp
    · have kept := captureOne_others k (some l) p s e
      have := ih (s := captureOne k (some l) p s) hn.2 ((List.mem_cons.1 h).resolve_left e)
      unfold Captured at this ⊢
      rwa [captureAfter_congr kept, kept] at this

theorem captureAll_told (k : BalKind) (l : Pos) (g : List Pos) (s : State) : Told g.length s (captureAll k l g s) := by
  induction g generalizing s with
  | nil => exact .of_eq rfl rfl
  | cons p g ih =>
    rw [captureAll_cons, List.length_cons]
    exact ((captureOne_told k (some l) p s).trans (ih _)).mono (by omega)

/-- The CAPTURE entries of a list of drawers follow what was appended before them (R28). -/
theorem captureAll_appended {bs : List EntryBody} (hn : g.Nodup) (hd : ∀ q ∈ g, rd u.drawers q = rd s.drawers q)
    (h : Appended bs s u) (ht : Told j s u) :
    Appended (bs ++ g.map fun q => captureBody k (some l) q s) s (captureAll k l g u) := by
  induction g generalizing u bs j with
  | nil => simpa [captureAll] using h
  | cons p g ih =>
    rw [List.nodup_cons] at hn
    have told := captureOne_told k (some l) p u
    have entry := captureOne_appended k (some l) p u
    rw [captureBody_congr (hd p (List.mem_cons_self ..))] at entry
    have := ih hn.2 (fun q hq => ?_) (h.trans entry told.state ht.grows told.grows) (ht.trans told)
    · simpa [captureAll_cons] using this
    · rw [captureOne_others _ _ _ _ fun e : q = p => hn.1 (e ▸ hq), hd q (List.mem_cons_of_mem _ hq)]

/-- Each capture of a list is reported, while the queue has room (R23). -/
theorem captureAll_reported (hn : g.Nodup) (hd : ∀ q ∈ g, rd u.drawers q = rd s.drawers q)
    (hc : u.clock.time = s.clock.time) (ht : Told j s u) (on : s.line.state = .online)
    (few : s.line.outbound.length + j + g.length + 1 ≤ 28) (hq : q ∈ g) :
    Reported q (captureReport k q s) s (captureAll k l g u) := by
  induction g generalizing u j with
  | nil => cases hq
  | cons p g ih =>
    rw [List.nodup_cons] at hn
    rw [List.length_cons] at few
    have told := captureOne_told k (some l) p u
    rw [captureAll_cons]
    rcases List.mem_cons.1 hq with rfl | hq
    · have := ht.captured k (some l) q on (by omega)
      rw [captureReport_congr (hd q (List.mem_cons_self ..)) hc] at this
      exact Queued.stays this (captureAll_told ..)
    · refine ih hn.2 (fun q hq => ?_) (by simpa using hc) (ht.trans told) (by omega) hq
      rw [captureOne_others _ _ _ _ fun e : q = p => hn.1 (e ▸ hq), hd q (List.mem_cons_of_mem _ hq)]

/-- A position outside the list keeps its record, key unit, screen and drawer. -/
theorem beginAll_others (h : q ∉ g) : rd (beginAll k l g s).posns q = rd s.posns q ∧
    rd (beginAll k l g s).keys q = rd s.keys q ∧ rd (beginAll k l g s).screens q = rd s.screens q ∧
    rd (beginAll k l g s).drawers q = rd s.drawers q := by
  induction g generalizing s with
  | nil => exact ⟨rfl, rfl, rfl, rfl⟩
  | cons p g ih =>
    rw [List.mem_cons, not_or] at h
    obtain ⟨posns, keys, screens, drawers⟩ := beginBalance_others p s k (some l) q h.1
    rw [beginAll_cons, ← posns, ← keys, ← screens, ← drawers]
    exact ih h.2

/-- What a balance begun on a position of a list leaves there (R24). -/
def Begun (k : BalKind) (l q : Pos) (s t : State) : Prop :=
  rd t.posns q = leftFor .balancing (rd s.posns q) ∧ (rd t.screens q).form = shownForm s 1 ∧
  ((rd s.posns q).state = .awaiting → (rd t.keys q).timer = none) ∧
  rd t.drawers q = { rd s.drawers q with ctx := some ⟨k, (rd s.drawers q).captureNo, some l, (rd s.screens q).form⟩ }

theorem beginAll_begun (hn : g.Nodup) (h : q ∈ g) : Begun k l q s (beginAll k l g s) := by
  induction g generalizing s with
  | nil => cases h
  | cons p g ih =>
    rw [List.nodup_cons] at hn
    rw [beginAll_cons]
    by_cases e : q = p
    · subst e
      obtain ⟨pos, -, timer, form, drawer⟩ := beginBalance_pos q s k (some l)
      obtain ⟨posns, keys, screens, drawers⟩ := beginAll_others (k := k) (l := l) (s := beginBalance k (some l) q s) hn.1
      unfold Begun
      rw [posns, keys, screens, drawers]
      exact ⟨pos, form, timer, drawer⟩
    · obtain ⟨posns, -, screens, drawers⟩ := beginBalance_others p s k (some l) q e
      have := ih (s := beginBalance k (some l) p s) hn.2 ((List.mem_cons.1 h).resolve_left e)
      unfold Begun at this ⊢
      rwa [posns, screens, drawers, shownForm_congr (s := s) (beginBalance_frame k (some l) p s).2.1] at this

end

end Sys2Proof.Machine

namespace Sys2Proof.Machine

/-! ## A group balance -/

/-- The positions of a leader's group that are signed on: those whose balances a group balance begins (R28). -/
def signedOn (l : Pos) (s : State) : List Pos :=
  (groupOf s.tables.positions l).filter fun q => (rd s.posns q).state != .signedOff

/-- The state in which the BEGIN mark stands and every drawer of the group is captured (R28). -/
def groupCaptured (k : BalKind) (l : Pos) (s : State) : State :=
  let g := groupOf s.tables.positions l
  captureAll k l g (append (.groupBegin l k g (g.filter fun q => (rd s.posns q).state == .signedOff)) (placeMidnight .control s))

/-- The state in which the balances of the group are begun, before its record (R28). -/
def groupBegins (k : BalKind) (l : Pos) (s : State) : State := beginAll k l (signedOn l s) (groupCaptured k l s)

theorem groupBalanceEvent_eq (k : BalKind) (l : Pos) (s : State) : groupBalanceEvent k l s =
    if signedOn l s = [] then completeGroup l ⟨k, signedOn l s, []⟩ (groupBegins k l s)
    else { groupBegins k l s with groups := wr (groupBegins k l s).groups l (some ⟨k, signedOn l s, []⟩) } := by
  simp only [← List.isEmpty_iff]
  rfl

section
variable {k : BalKind} {l q : Pos} {s u : State}

theorem groupOf_nodup (t : Vector (Option PositionEntry) 16) (l : Pos) : (groupOf t l).Nodup := (List.nodup_finRange 16).filter _

theorem signedOn_nodup (l : Pos) (s : State) : (signedOn l s).Nodup := (groupOf_nodup ..).filter _

theorem signedOn_eq_nil (l : Pos) (s : State) : signedOn l s = [] ↔
    ((groupOf s.tables.positions l).all fun q => (rd s.posns q).state == .signedOff) = true := by
  unfold signedOn
  simp [List.filter_eq_nil_iff]

/-- The slots of what a group balance journals (R28, R42). -/
theorem groupBodies_slots (k : BalKind) (l : Pos) (s : State) :
    ((groupBodies k l s).map kindSlots).sum = (midnightBodies s).length + groupSlots s l := by
  have captures (g : List Pos) : ((g.map fun q =>
      EntryBody.capture ⟨q, k, captureAfter s q, some l, (rd s.drawers q).lines⟩).map kindSlots).sum = 4 * g.length := by
    simp [Function.comp_def, kindSlots, Nat.mul_comm]
  have ahead : ((midnightBodies s).map kindSlots).sum = (midnightBodies s).length := by
    unfold midnightBodies
    split <;> rfl
  unfold groupBodies groupSlots
  simp only [List.map_append, List.sum_append, captures, ahead]
  split <;> simp [kindSlots] <;> omega

/-- What stands when the group is captured: its entries, its drawers, its reports (R23, R28). -/
theorem groupCaptured_spec (k : BalKind) (l : Pos) (s : State) : let t := groupCaptured k l s
    let g := groupOf s.tables.positions l
    Appended (midnightBodies s ++ [.groupBegin l k g (g.filter fun q => (rd s.posns q).state == .signedOff)] ++
      g.map fun q => captureBody k (some l) q s) s t ∧ Told g.length s t ∧
    (∀ q ∈ g, Captured q s t ∧ (rd t.drawers q).ctx = (rd s.drawers q).ctx) ∧
    (∀ q, q ∉ g → rd t.drawers q = rd s.drawers q) ∧
    (s.line.state = .online → s.line.outbound.length + g.length + 1 ≤ 28 → ∀ q ∈ g, Reported q (captureReport k q s) s t) := by
  obtain ⟨g, hg⟩ : ∃ g, g = groupOf s.tables.positions l := ⟨_, rfl⟩
  obtain ⟨b, hb⟩ : ∃ b, b = EntryBody.groupBegin l k g (g.filter fun q => (rd s.posns q).state == .signedOff) := ⟨_, rfl⟩
  obtain ⟨u, hu⟩ : ∃ u, u = append b (placeMidnight .control s) := ⟨_, rfl⟩
  have nodup : g.Nodup := hg ▸ groupOf_nodup ..
  have drawers : u.drawers = s.drawers := by simp [hu]
  have told : Told 0 s u := hu ▸ (placeMidnight_told _ _).trans (append_told _ _)
  have entry : Appended (midnightBodies s ++ [b]) s u := hu ▸ placeMidnight_append (by decide) (by simp [hb, firstForward]) s
  have run : groupCaptured k l s = captureAll k l g u := by rw [hu, hb, hg]; rfl
  dsimp only
  rw [run, ← hg, ← hb]
  refine ⟨captureAll_appended nodup (fun q _ => by rw [drawers]) entry told,
    (told.trans (captureAll_told k l g u)).mono (by omega), fun q hq => ?_, fun q hq => ?_, fun on few q hq => ?_⟩
  · obtain ⟨captured, ctx⟩ := captureAll_captured (k := k) (l := l) (s := u) nodup hq
    exact ⟨captured.congr drawers.symm rfl, by rw [ctx, drawers]⟩
  · rw [captureAll_others hq, drawers]
  · exact captureAll_reported nodup (fun q _ => by rw [drawers]) (by simp [hu]) told on (by omega) hq

/-- What stands when the balances of the group are begun (R24, R28). -/
theorem groupBegins_spec (k : BalKind) (l : Pos) (s : State) : let t := groupBegins k l s
    let g := groupOf s.tables.positions l
    (∀ q ∈ g, Captured q s t) ∧ (∀ q ∈ signedOn l s, BalanceBegun k (some l) q s t) ∧
    (∀ q, q ∉ signedOn l s → rd t.posns q = rd s.posns q ∧ rd t.keys q = rd s.keys q ∧ rd t.screens q = rd s.screens q ∧
      (rd t.drawers q).ctx = (rd s.drawers q).ctx) ∧ ∀ q, q ∉ g → rd t.drawers q = rd s.drawers q := by
  obtain ⟨-, -, captured, kept, -⟩ := groupCaptured_spec k l s
  have sub : ∀ q ∈ signedOn l s, q ∈ groupOf s.tables.positions l := fun q hq => List.mem_of_mem_filter hq
  have run : groupBegins k l s = beginAll k l (signedOn l s) (groupCaptured k l s) := rfl
  have posns : (groupCaptured k l s).posns = s.posns := by simp [groupCaptured]
  have screens : (groupCaptured k l s).screens = s.screens := by simp [groupCaptured]
  have keys : (groupCaptured k l s).keys = s.keys := by simp [groupCaptured]
  have tables : (groupCaptured k l s).tables = s.tables := by simp [groupCaptured]
  have begun := fun q hq => beginAll_begun (k := k) (l := l) (q := q) (s := groupCaptured k l s) (signedOn_nodup l s) hq
  have rest := fun q hq => beginAll_others (k := k) (l := l) (q := q) (s := groupCaptured k l s) (g := signedOn l s) hq
  dsimp only
  rw [run]
  generalize groupCaptured k l s = u at *
  unfold Begun at begun
  rw [posns, screens, shownForm_congr tables] at begun
  rw [posns, keys, screens] at rest
  refine ⟨fun q hq => ?_, fun q hq => ?_, fun q hq => ?_, fun q hq => ?_⟩
  · obtain ⟨drawer, -⟩ := captured q hq
    unfold Captured at drawer ⊢
    by_cases on : q ∈ signedOn l s
    · obtain ⟨-, -, -, drawers⟩ := begun q on
      rwa [drawers]
    · obtain ⟨-, -, -, drawers⟩ := rest q on
      rwa [drawers]
  · obtain ⟨pos, form, timer, drawer⟩ := begun q hq
    obtain ⟨⟨number, -⟩, -⟩ := captured q (sub q hq)
    exact ⟨by rw [drawer, number], pos, form, timer⟩
  · obtain ⟨pos, key, screen, drawer⟩ := rest q hq
    refine ⟨pos, key, screen, ?_⟩
    rw [drawer]
    by_cases mem : q ∈ groupOf s.tables.positions l
    · exact (captured q mem).2
    · rw [kept q mem]
  · obtain ⟨-, -, -, drawer⟩ := rest q fun on => hq (sub q on)
    rw [drawer, kept q hq]

/-- What a group balance that is taken leaves and tells (R23, R28, R29). -/
theorem groupBalanceEvent_begun (k : BalKind) (l : Pos) (s : State) : GroupBegun k l s (groupBalanceEvent k l s) ∧
    Told ((groupOf s.tables.positions l).length + 1) s (groupBalanceEvent k l s) := by
  obtain ⟨entry, told, -, -, reported⟩ := groupCaptured_spec k l s
  obtain ⟨captured, begun, rest, kept⟩ := groupBegins_spec k l s
  obtain ⟨v, hv⟩ : ∃ v, v = groupBegins k l s := ⟨_, rfl⟩
  obtain ⟨t, ht⟩ : ∃ t, t = groupBalanceEvent k l s := ⟨_, rfl⟩
  have line : v.line = (groupCaptured k l s).line := by simp [hv, groupBegins]
  have nv : v.nv = (groupCaptured k l s).nv := by simp [hv, groupBegins]
  have jc : v.jc = (groupCaptured k l s).jc := by simp [hv, groupBegins]
  have groups : v.groups = s.groups := by simp [hv, groupBegins, groupCaptured]
  have tables : v.tables = s.tables := by simp [hv, groupBegins, groupCaptured]
  have clock : v.clock = { s.clock with midnights := 0 } := by
    simp [hv, groupBegins, groupCaptured, placeMidnight_midnights]
  have toldV := told.goesOn line (congrArg _ jc)
  have entryV := entry.of_nv_jc nv jc line
  have ends := groupBalanceEvent_eq k l s
  rw [← hv, ← ht] at ends
  have posns : t.posns = v.posns := by rw [ends]; split <;> simp
  have keys : t.keys = v.keys := by rw [ends]; split <;> simp
  have screens : t.screens = v.screens := by rw [ends]; split <;> simp
  have drawers : t.drawers = v.drawers := by rw [ends]; split <;> simp
  have clockT : t.clock = v.clock := by rw [ends]; split <;> simp
  have toldT : Told 1 v t := by
    rw [ends]
    split
    · exact completeGroup_told ..
    · exact Told.mono (j := 0) (.of_eq rfl rfl) (by omega)
  have since := eq_since_positions (toldV.trans toldT) (c := { s.clock with midnights := 0 }) (by simp [ht]) (by simp [ht])
    (clockT.trans clock) (by simp [ht]) (by simp [ht]) (by simp [ht]) (by simp [ht]) (by simp [ht]) (by simp [ht]) (by simp [ht])
  rw [← hv] at captured begun rest kept
  rw [← ht]
  refine ⟨⟨?_, fun q hq => (captured q hq).congr rfl drawers, fun q hq => ?_, fun q hq => ?_, fun q hq => ?_,
    fun m hm => ?_, ?_, fun on few => ⟨fun q hq => ?_, fun none => ?_⟩, since⟩, toldV.trans toldT⟩
  · unfold groupBodies
    simp only [← signedOn_eq_nil]
    rw [ends]
    split
    · next none =>
      rw [none] at *
      have done := completeGroup_told l ⟨k, [], []⟩ v
      exact entryV.trans (completeGroup_appended ..) done.state toldV.grows done.grows
    · rw [List.append_nil]
      exact entryV.of_nv_jc rfl rfl rfl
  · have := begun q hq
    unfold BalanceBegun at this ⊢
    rwa [drawers, posns, screens, keys]
  · rw [posns, keys, screens, drawers]
    exact rest q hq
  · rw [drawers, kept q hq]
  · rw [ends]
    split
    · rw [completeGroup_groups, rd_wr_ne _ _ hm, groups]
    · exact (rd_wr_ne _ _ hm).trans (by rw [groups])
  · rw [ends]
    split
    · next none => rw [completeGroup_groups, rd_wr_self, if_pos]; exact none
    · next some => exact (rd_wr_self ..).trans (if_neg some).symm
  · have := reported on (by omega) q hq
    unfold Reported at this ⊢
    rw [← line] at this
    exact Queued.stays this toldT
  · have none : signedOn l s = [] := none
    rw [if_pos none, none] at ends
    have := (groupEnded_told l ⟨k, [], []⟩ v)
    have done := (toldV.trans this).reported (p := l) (x := .groupComplete l k (groupOf v.tables.positions l) []) on (by omega)
    rw [ends, completeGroup_eq, ← tables]
    exact done

/-- A REPLY leaves what a group balance left and told. -/
theorem GroupBegun.answered {h : Hdr} {st : Status} {x : Extra} {t : State} (b : GroupBegun k l s t) :
    GroupBegun k l s (answered h st x t) := by
  have replied := answered_says h st x t
  obtain ⟨entry, captured, begun, rest, kept, others, own, reports, since⟩ := b
  refine ⟨replied.appended rfl rfl entry, captured, begun, rest, kept, others, own, fun on few => ?_, ?_⟩
  · obtain ⟨taken, complete⟩ := reports on few
    exact ⟨fun q hq => Queued.stays (taken q hq) replied.told, fun none => Queued.stays (complete none) replied.told⟩
  · conv_lhs => rw [since]
    rfl

/-! ### Its checks -/

theorem groupRefusal_congr {s t : State} (htables : t.tables = s.tables) (hposns : t.posns = s.posns) (hday : t.day = s.day)
    (hclock : t.clock = s.clock) (hnv : t.nv = s.nv) (l : Pos) : groupRefusal t l = groupRefusal s l := by
  have slots : groupSlots t l = groupSlots s l := by simp only [groupSlots, htables, hposns]
  unfold groupRefusal
  rw [htables, hposns, slots, refusal_congr hday hclock hnv]

/-- The checks of a group balance from step 4 on, in a trading day (R28). -/
theorem groupRefusal_trading (hd : s.day.state = .opened ∨ s.day.state = .cutoff) (k : BalKind) (l : Pos) :
    Follows [ (isLeader s.tables.positions l = true, .notLeader),
        (∀ q ∈ groupOf s.tables.positions l, (rd s.posns q).state ≠ .balancing, .memberBalancing),
        (slotsUsed s + ((groupBodies k l s).map kindSlots).sum ≤ 16256, .journalFull) ] (fun _ => True)
      (answerOf (groupRefusal s l)) := by
  unfold groupRefusal
  rw [answerOf_ite, answerOf_ite]
  refine .check (by simp) fun _ => .check (by simp) fun _ => ?_
  by_cases room : slotsUsed s + (midnightBodies s).length + groupSlots s l ≤ 16256
  · rw [refusal_control_room hd room]
    exact .passes (by rw [groupBodies_slots]; omega) ⟨nofun, trivial⟩
  · rw [refusal_control_full hd (by omega)]
    exact .fails (by rw [groupBodies_slots]; omega)

theorem answerOf_error {r : Option Status} {st : Status} (h : answerOf r = .error st) : r = some st := by
  cases r <;> cases h
  rfl

end

/-! ### The request and the keys -/

section
variable {h : Hdr} {k : BalKind} {l : Pos} {key : Token} {rest : List Token} {s : State}

theorem exec_groupRequest_none (ht : Takes s) :
    exec (.positionControlGroupBalance h none) s = .next (answered h Config.balanceBodyStatus .none (arrived s)) :=
  ((show exec (.positionControlGroupBalance h none) s = execPositionControlGroupBalance h none s from rfl).trans
    (message_eq h _ ht)).trans (congrArg _ (reply_eq ..))

theorem exec_groupRequest (k : BalKind) (ht : Takes s) : exec (.positionControlGroupBalance h (some k)) s =
    .next (balanceAnswer h (fun p v => groupRefusal v p) (groupBalanceEvent k) (arrived s)) := by
  refine ((show exec (.positionControlGroupBalance h (some k)) s = execPositionControlGroupBalance h (some k) s from rfl).trans
    (message_eq h _ ht)).trans (congrArg _ ?_)
  unfold withKind balanceAnswer
  dsimp only
  cases balanceTimeRefusal (arrived s) with
  | some st => exact reply_eq ..
  | none =>
    dsimp only
    congr 1
    funext p v
    cases groupRefusal v p <;> exact reply_eq ..

theorem groupRefusal_arrived (s : State) (l : Pos) : groupRefusal (arrived s) l = groupRefusal s l :=
  groupRefusal_congr (by simp) (by simp) (by simp) (by simp) (by simp) l

/-- A GROUP BALANCE or GROUP CLOSE key, with the kind of its balance (R28). -/
theorem exec_groupKey (hp : s.powered = true) (hq : (rd s.keys l).queue = key :: rest) (ha : Acts s l key) (k : BalKind)
    (hk : key = .groupBalance ∧ k = .interim ∨ key = .groupClose ∧ k = .final) :
    exec (takeOf l key) s = .next (groupKey k l (popped l rest s.begin)) := by
  rcases hk with ⟨rfl, rfl⟩ | ⟨rfl, rfl⟩
  · exact (show exec (.groupBalance l) s = execGroupBalance l s from rfl).trans (keyCommand_acts hp hq ha)
  · exact (show exec (.groupClose l) s = execGroupClose l s from rfl).trans (keyCommand_acts hp hq ha)

/-- A leader's group key may begin a group balance (R28). -/
def MayBegin (l : Pos) (s : State) : Prop :=
  Trading s ∧ isLeader s.tables.positions l = true ∧ (rd s.posns l).state = .ready

theorem groupKey_idle (k : BalKind) (h : ¬MayBegin l s) : groupKey k l s = tone l s := by
  unfold groupKey
  rw [if_pos]
  by_contra n
  simp only [not_or, Classical.not_not] at n
  obtain ⟨trading, leader, ready⟩ := n
  exact h ⟨trading, by simpa using leader, ready⟩

theorem groupKey_ready (k : BalKind) (h : MayBegin l s) : groupKey k l s =
    match groupRefusal s l with
    | some st => notice l st.name (tone l s)
    | none => groupBalanceEvent k l s := by
  obtain ⟨trading, leader, ready⟩ := h
  unfold groupKey
  refine if_neg ?_
  simp only [not_or, Classical.not_not]
  exact ⟨trading, by simp [leader], ready⟩

theorem groupRefusal_popped (s : State) : groupRefusal (popped l rest s.begin) l = groupRefusal s l :=
  groupRefusal_congr (by simp) (by simp) (by simp) (by simp) (by simp) l

/-- A key that begins a group balance (R28). -/
theorem groupKey_taken (hp : s.powered = true) (may : MayBegin l s) (room : groupRefusal s l = none)
    (hq : (rd s.keys l).queue = key :: rest) (k : BalKind)
    (hk : key = .groupBalance ∧ k = .interim ∨ key = .groupClose ∧ k = .final) :
    ∃ t, exec (takeOf l key) s = .next t ∧ GroupBegun k l (s.updKeys l fun x => { x with queue := rest }) t := by
  refine ⟨groupBalanceEvent k l (popped l rest s.begin), ?_, ?_⟩
  · have here : MayBegin l (popped l rest s.begin) := by simpa [MayBegin, Trading] using may
    rw [exec_groupKey hp hq (.inl may.2.2) k hk, groupKey_ready k here, groupRefusal_popped, room]
  · have := (groupBalanceEvent_begun k l (popped l rest s.begin)).1
    generalize groupBalanceEvent k l (popped l rest s.begin) = t at *
    exact this

end

/-- Settles O34: the requests by their checks, the keys by theirs, and the event both may begin. -/
theorem groupBalanceCapturesGroup : Obligations.GroupBalanceCapturesGroup := by
  refine ⟨fun h s ht => ⟨exec_groupRequest_none ht, fun k st hf => ?_⟩, fun l key k rest s hp hk hq ha => ?_,
    fun l s hp hd hc leader free room => ?_⟩
  · rw [exec_groupRequest k ht]
    rcases hf with hf | ⟨day, hf | ⟨clock, hf | ⟨pos, hf⟩⟩⟩
    · rw [balanceAnswer_early (.inl (by simpa using hf))]
    · rw [balanceAnswer_early (.inr ⟨by simpa using day, .inl (by simpa using hf)⟩)]
    · rw [balanceAnswer_early (.inr ⟨by simpa using day, .inr ⟨by simpa using clock, .inl hf⟩⟩)]
    · obtain ⟨l, hl⟩ : ∃ l : Pos, h.pos = l.val := ⟨⟨h.pos, pos⟩, rfl⟩
      have uniq {m : Pos} (hm : h.pos = m.val) : m = l := Fin.ext (hm.symm.trans hl)
      have refused := answerOf_error ((groupRefusal_trading day k l).error (st := st) (by
        rcases hf with ⟨hn, e⟩ | ⟨⟨m, hm, leader⟩, ⟨hn, e⟩ | ⟨free, ⟨hn, e⟩ | hf⟩⟩
        · exact .inl ⟨fun n => hn ⟨l, hl, n⟩, e⟩
        · exact .inr ⟨uniq hm ▸ leader, .inl ⟨fun n => hn fun m hm => uniq hm ▸ n, e⟩⟩
        · exact .inr ⟨uniq hm ▸ leader, .inr ⟨free l hl, .inl ⟨fun n => hn fun m hm => uniq hm ▸ n, e⟩⟩⟩
        · exact hf.2.elim))
      rw [balanceAnswer_refused (Trading.arrived ⟨day, clock⟩) hl (st := st) (by rw [groupRefusal_arrived, refused])]
  · have run := exec_groupKey hp hq ha k hk
    refine ⟨fun idle => ⟨_, run, ?_⟩, fun may st hf => ⟨_, run, ?_⟩⟩
    · rw [groupKey_idle k (by simpa [MayBegin, Trading] using idle)]
      exact refused_tone l rest s
    · have refused := answerOf_error ((groupRefusal_trading may.1.1 k l).error (.inr ⟨may.2.1, hf⟩))
      rw [groupKey_ready k (by simpa [MayBegin, Trading] using may), groupRefusal_popped, refused]
      exact refused_toneNotice l rest _ s
  · have taken : groupRefusal s l = none := by
      obtain ⟨a, ha⟩ := (groupRefusal_trading hd .interim l).ok fun st f => by
        rcases f with ⟨hn, -⟩ | ⟨-, ⟨hn, -⟩ | ⟨-, ⟨hn, -⟩ | f⟩⟩
        · exact hn leader
        · exact hn free
        · exact hn (room .interim)
        · exact f.2
      cases r : groupRefusal s l with
      | none => rfl
      | some st => rw [r] at ha; cases ha
    refine ⟨fun h k hpos => ?_, fun rest hr hq => ?_, fun rest hr hq => ?_⟩
    · obtain ⟨begun, told⟩ := groupBalanceEvent_begun k l (arrived s)
      have run : exec (.positionControlGroupBalance h (some k)) s =
          .next (answered h .accepted .none (groupBalanceEvent k l (arrived s))) := by
        rw [exec_groupRequest k (Trading.takes hp ⟨hd, hc⟩), balanceAnswer_taken (Trading.arrived ⟨hd, hc⟩) hpos
          (by rw [groupRefusal_arrived, taken])]
      generalize groupBalanceEvent k l (arrived s) = t at *
      have replied := answered_says h .accepted .none t
      refine ⟨_, run, begun.answered, fun few => ?_⟩
      have grows := replied.told.grows.length_le
      exact Replied.arrived (Queued.since (queued_reply (by omega)) told)
    · exact groupKey_taken hp ⟨⟨hd, hc⟩, leader, hr⟩ taken hq .interim (.inl ⟨rfl, rfl⟩)
    · exact groupKey_taken hp ⟨⟨hd, hc⟩, leader, hr⟩ taken hq .final (.inr ⟨rfl, rfl⟩)

end Sys2Proof.Machine

namespace Sys2Proof.Machine

/-! ## A declaration refused -/

section
variable {p : Pos} {rest : List Token} {s t : State}

/-- A refusal that moves the cursor first and then shows its notice (R30). -/
theorem refusedWith_moved {text : List Byte} {field : Option (Nat × FieldDesc)} (he : EditorStep p s.begin t)
    (ho : t.out = toneOut s p)
    (hk : rd t.keys p = { rd s.keys p with queue := rest,
                                           cursorField := field.elim (rd s.keys p).cursorField fun x => some x.1,
                                           textPos := if field = none then (rd s.keys p).textPos else 0 })
    (hs : rd t.screens p = Screen.partNotice text (movedTo (rd s.keys p) field (rd s.screens p))) :
    RefusedWith p rest (some text) field s t := by
  have moved := movedTo_spec (rd s.keys p) field (rd s.screens p)
  dsimp only at moved
  generalize movedTo (rd s.keys p) field (rd s.screens p) = b at moved hs
  obtain ⟨same, dirty, moves, stays⟩ := moved
  simp only [SameButDirty, Screen.mk.injEq] at same
  obtain ⟨area, form, -, ring, newest, column, review, prompts, noPrinter, -, inFlight, present⟩ := same
  obtain ⟨ring', newest', column', review', dirty'⟩ : WindowAlike (Screen.partNotice text (rd s.screens p)) (rd t.screens p) :=
    hs ▸ WindowAlike.partNotice ⟨ring.symm, newest.symm, column.symm, review.symm, dirty⟩ text
  have frame := partNotice_frame text b
  rw [← hs] at frame
  obtain ⟨-, -, cursor, -⟩ := id frame
  refine ⟨he, ho, hk.trans (by cases field <;> rfl), ?_, dirty', fun x hx => ?_, fun h => ?_⟩
  · simp only [SameButDirty, Screen.mk.injEq]
    simp [frame, area, form, prompts, noPrinter, inFlight, present, ring', newest', column', review']
  · obtain ⟨cell, row⟩ := moves x hx
    exact ⟨cursor.trans cell, by rw [hs]; exact partNotice_dirty _ _ row⟩
  · exact cursor.trans (stays h)

/-- A declaration refused for no slot's sake (R30). -/
theorem refuseDeclaration_none (p : Pos) (st : Status) (rest : List Token) (s : State) :
    RefusedWith p rest (some st.name) none s (refuseDeclaration p st none (popped p rest s.begin)) :=
  refused_toneNotice p rest _ s

/-- A declaration refused at a field of its form (R30). -/
theorem refuseDeclaration_field {st : Status} {i : Nat} {f : FieldDesc} (h : (currentFields s p)[i]? = some f) :
    RefusedWith p rest (some st.name) (some (i, f)) s (refuseDeclaration p st (some i) (popped p rest s.begin)) := by
  have h' : (currentFields (popped p rest s.begin) p)[i]? = some f := by
    rwa [currentFields_congr (s := s) (by simp) (by simp)]
  have screen := setCursor_screen (x := 0) h'
  have keys := setCursor_keys (x := 0) h'
  unfold refuseDeclaration
  refine refusedWith_moved ((popped_step p rest s.begin).trans ((EditorStep.setCursor i 0).trans (EditorStep.tone.trans
    (.notice _)))) ?_ ?_ ?_
  · simp only [notice_out, tone_out]
    rw [toneOut_congr (s := s)]
    · simp
    · rw [screen]
      split <;> simp
  · simp [keys]
  · simp [screen, movedTo, cursorCell_row]

end

/-! ## The slots of a declaration -/

section
variable {s : State} {p : Pos} {kind : BalKind} {d : FormDesc} {c : Fin 8} {cur : CurrencyEntry} {count i : Nat}

/-- What a declaration holds of a slot that takes part with a count (R30, R32). -/
structure Declared (s : State) (p : Pos) (kind : BalKind) (c : Fin 8) (cur : CurrencyEntry) (n : Nat) (x : DeclSlot) :
    Prop where
  slot : x.slot = c
  count : x.count = n
  most : n ≤ 999999999999
  live : x.live = (rd (rd s.drawers p).lines (cashLine c)).amount
  diff : x.diff = x.count - x.live
  even : kind = .interim ∨ x.diff = 0 → x.overShort = none ∧ x.serial = 0
  home : kind = .final → x.diff ≠ 0 → c = 0 → x.overShort = some (-x.diff) ∧ x.serial = 0
  foreign : kind = .final → x.diff ≠ 0 → c ≠ 0 → ∃ q, rd s.tables.rates c = some q ∧ x.serial = rd s.tables.serials c ∧
    let v : Int := convert x.diff.natAbs q.buy (localExponent s) cur.exponent
    x.overShort = some (if x.diff < 0 then v else -v)

theorem overShortValue_foreign {q : RateEntry} (hc : c ≠ 0) (hq : rd s.tables.rates c = some q) (n : Int) :
    overShortValue s c cur n =
      let v : Int := convert n.natAbs q.buy (localExponent s) cur.exponent
      if n < 0 then -v else v := by
  unfold overShortValue rateFor
  rw [if_neg hc, hq]
  rfl

/-- The last check of a slot, and the over/short amount it leaves (R32). -/
theorem declareValue_follows (s : State) (p : Pos) (c : Fin 8) (cur : CurrencyEntry) (n : Nat) (hn : n ≤ 999999999999)
    (rate : c ≠ 0 → ∃ q, rd s.tables.rates c = some q ∧ q.buy ≠ 0) :
    let live := (rd (rd s.drawers p).lines (cashLine c)).amount
    let v := overShortValue s c cur (n - live)
    (n : Int) - live ≠ 0 →
    Follows [(c ≠ 0 → ∀ r, rd s.tables.rates c = some r →
        convert ((n : Int) - live).natAbs r.buy (localExponent s) cur.exponent ≤ 999999999999, .amountRange)]
      (Declared s p .final c cur n)
      (if c ≠ 0 ∧ Config.maxAmount < v.natAbs then .error .amountRange
        else .ok ⟨c, n, live, n - live, some (-v), if c = 0 then 0 else rd s.tables.serials c⟩) := by
  have most : Config.maxAmount = 999999999999 := rfl
  intro live v ne
  by_cases home : c = 0
  · have value : v = n - live := by simp [v, overShortValue, home]
    rw [if_neg fun h => h.1 home]
    refine .passes (fun h => absurd home h) ⟨nofun, rfl, rfl, hn, rfl, rfl, ?_, fun _ _ _ => ?_, fun _ _ h => absurd home h⟩
    · rintro (h | h)
      · cases h
      · exact absurd h ne
    · exact ⟨by rw [value], if_pos home⟩
  · obtain ⟨q, hq, -⟩ := rate home
    have value := overShortValue_foreign (cur := cur) home hq (n - live)
    have abs : v.natAbs = convert ((n : Int) - live).natAbs q.buy (localExponent s) cur.exponent := by
      simp only [v, value]
      split <;> simp
    refine .check ?_ fun _ => ⟨nofun, rfl, rfl, hn, rfl, rfl, ?_, fun _ _ h => absurd h home, fun _ _ _ => ?_⟩
    · rw [most, abs]
      simp [home, hq]
    · rintro (h | h)
      · cases h
      · exact absurd h ne
    · refine ⟨q, hq, if_neg home, ?_⟩
      simp only [v, value]
      split <;> simp

/-- One slot's part of a declaration follows its checks (R30). -/
theorem declareSlot_follows (s : State) (p : Pos) (kind : BalKind) (c : Fin 8) (cur : CurrencyEntry) (n : Nat) :
    Follows (countChecks s p kind c cur n) (Declared s p kind c cur n) (declareSlot s p kind c cur n) := by
  have most : Config.maxAmount = 999999999999 := rfl
  unfold declareSlot countChecks
  dsimp only
  refine .check (by omega) fun small => .check Iff.rfl fun unit => ?_
  by_cases same : kind = .interim ∨ (n : Int) - (rd (rd s.drawers p).lines (cashLine c)).amount = 0
  · rw [if_pos same]
    have no : ¬(kind = .final ∧ (n : Int) - (rd (rd s.drawers p).lines (cashLine c)).amount ≠ 0) := by
      rintro ⟨rfl, ne⟩
      exact same.elim nofun ne
    refine .passes (fun h => absurd h no) (.passes (fun h => absurd h no) (.passes (fun h => absurd h no)
      (.passes (fun h => absurd h no) ⟨nofun, rfl, rfl, small, rfl, rfl, fun _ => ⟨rfl, rfl⟩, fun f ne => ?_, fun f ne => ?_⟩)))
    · exact absurd ⟨f, ne⟩ no
    · exact absurd ⟨f, ne⟩ no
  · rw [if_neg same]
    obtain ⟨final, ne⟩ := not_or.1 same
    have kind : kind = .final := by cases kind <;> simp_all
    subst kind
    simp only [ne_eq, ne, not_false_eq_true, and_self, true_imp_iff]
    refine .check Iff.rfl fun whole => .check (by omega) fun fits => .check ?_ fun rate =>
      declareValue_follows s p c cur n small rate ne
    rw [← Bool.not_eq_true, ratesSet_iff]
    simp

/-! ### Slot by slot -/

theorem countsIn_iff : CountsIn s d c cur i ↔ rd s.tables.currencies c = some cur ∧ countField d c = some i := by
  unfold CountsIn countField
  rw [List.findIdx?_eq_some_iff_getElem]
  refine and_congr_right fun _ => ⟨fun ⟨⟨f, hf, role⟩, first⟩ => ?_, fun ⟨lt, role, first⟩ => ⟨⟨d.fields[i], ?_, ?_⟩, ?_⟩⟩
  · obtain ⟨lt, rfl⟩ := List.getElem?_eq_some_iff.1 hf
    exact ⟨lt, by simpa using role, fun j hj => by simpa using first j _ hj (List.getElem?_eq_getElem (by omega))⟩
  · exact List.getElem?_eq_getElem lt
  · simpa using role
  · intro j f hj hf
    obtain ⟨_, rfl⟩ := List.getElem?_eq_some_iff.1 hf
    simpa using first j hj

/-- Whether a slot takes part: its currency is defined and the form has a count for it (R30). -/
def takesPart (s : State) (d : FormDesc) (c : Fin 8) : Bool :=
  (rd s.tables.currencies c).isSome && d.fields.any fun f => f.role == .count c.val

theorem takesPart_iff (s : State) (d : FormDesc) (c : Fin 8) : takesPart s d c = true ↔ ∃ cur i, CountsIn s d c cur i := by
  have field : (d.fields.any fun f => f.role == .count c.val) = (countField d c).isSome := by simp [countField]
  unfold takesPart
  rw [field, Bool.and_eq_true, Option.isSome_iff_exists, Option.isSome_iff_exists]
  simp only [countsIn_iff, exists_and_left, exists_and_right]

theorem declareSlots_counts (h : CountsIn s d c cur i) (kind : BalKind) (cs : List (Fin 8)) :
    declareSlots s p kind d (c :: cs) = match declareSlot s p kind c cur (digitsValue (fieldValue s p i)) with
      | .error st => .error (st, i)
      | .ok x => (declareSlots s p kind d cs).map (x :: ·) := by
  obtain ⟨currency, field⟩ := countsIn_iff.1 h
  rw [declareSlots, currency, field]
  dsimp only
  cases declareSlot s p kind c cur (digitsValue (fieldValue s p i)) with
  | error st => rfl
  | ok x => cases declareSlots s p kind d cs <;> rfl

theorem declareSlots_skips (h : takesPart s d c = false) (kind : BalKind) (cs : List (Fin 8)) :
    declareSlots s p kind d (c :: cs) = declareSlots s p kind d cs := by
  have no : ¬∃ cur i, CountsIn s d c cur i := by rw [← takesPart_iff, h]; simp
  rw [declareSlots]
  split
  · next cur i currency field => exact absurd ⟨cur, i, countsIn_iff.2 ⟨currency, field⟩⟩ no
  · rfl

/-- Each slot of a list takes part or does not (R30). -/
theorem takesPart_cases (s : State) (d : FormDesc) (c : Fin 8) :
    takesPart s d c = false ∨ (takesPart s d c = true ∧ ∃ cur i, CountsIn s d c cur i) := by
  cases h : takesPart s d c with
  | false => exact .inl rfl
  | true => exact .inr ⟨rfl, (takesPart_iff s d c).1 h⟩

/-- A list of slots none of which fails makes a declaration (R30). -/
theorem declareSlots_passes (cs : List (Fin 8)) (h : ∀ c ∈ cs, ∀ cur i st, CountsIn s d c cur i →
    ¬FirstFails (countChecks s p kind c cur (digitsValue (fieldValue s p i))) st) :
    ∃ xs, declareSlots s p kind d cs = .ok xs := by
  induction cs with
  | nil => exact ⟨[], rfl⟩
  | cons c cs ih =>
    obtain ⟨xs, hxs⟩ := ih fun e he => h e (List.mem_cons_of_mem _ he)
    rcases takesPart_cases s d c with out | ⟨-, cur, i, counts⟩
    · exact ⟨xs, by rw [declareSlots_skips out, hxs]⟩
    · obtain ⟨x, hx⟩ := (declareSlot_follows s p kind c cur (digitsValue (fieldValue s p i))).ok
        fun st => h c (List.mem_cons_self ..) cur i st counts
      exact ⟨x :: xs, by rw [declareSlots_counts counts, hx, hxs]; rfl⟩

/-- The first slot that fails a check refuses the declaration (R30). -/
theorem declareSlots_fails {st : Status} (cs : List (Fin 8)) (sorted : cs.Pairwise (· < ·)) (mem : c ∈ cs)
    (counts : CountsIn s d c cur i) (fails : FirstFails (countChecks s p kind c cur (digitsValue (fieldValue s p i))) st)
    (before : ∀ e, e < c → ∀ cur' j x, CountsIn s d e cur' j →
      ¬FirstFails (countChecks s p kind e cur' (digitsValue (fieldValue s p j))) x) :
    declareSlots s p kind d cs = .error (st, i) := by
  induction cs with
  | nil => cases mem
  | cons e cs ih =>
    obtain ⟨least, sorted⟩ := List.pairwise_cons.1 sorted
    rcases List.mem_cons.1 mem with rfl | mem
    · rw [declareSlots_counts counts, (declareSlot_follows s p kind c cur _).error fails]
    · have rest := ih sorted mem
      rcases takesPart_cases s d e with out | ⟨-, cur', j, counts'⟩
      · rw [declareSlots_skips out, rest]
      · obtain ⟨x, hx⟩ := (declareSlot_follows s p kind e cur' (digitsValue (fieldValue s p j))).ok
          fun st => before e (least c mem) cur' j st counts'
        rw [declareSlots_counts counts', hx, rest]
        rfl

/-- The slots of a declaration made: those that take part, each with what is declared of it (R30, R32). -/
theorem declareSlots_ok {xs : List DeclSlot} (cs : List (Fin 8)) (h : declareSlots s p kind d cs = .ok xs) :
    xs.map (·.slot) = cs.filter (takesPart s d) ∧ ∀ x ∈ xs, ∃ cur i, CountsIn s d x.slot cur i ∧
      Declared s p kind x.slot cur (digitsValue (fieldValue s p i)) x := by
  induction cs generalizing xs with
  | nil =>
    cases h
    exact ⟨rfl, nofun⟩
  | cons c cs ih =>
    rcases takesPart_cases s d c with out | ⟨takes, cur, i, counts⟩
    · rw [declareSlots_skips out] at h
      rw [List.filter_cons_of_neg (by simp [out])]
      exact ih h
    · have follows := declareSlot_follows s p kind c cur (digitsValue (fieldValue s p i))
      rw [declareSlots_counts counts] at h
      cases hx : declareSlot s p kind c cur (digitsValue (fieldValue s p i)) with
      | error st => rw [hx] at h; cases h
      | ok x =>
        rw [hx] at h follows
        cases hys : declareSlots s p kind d cs with
        | error st => rw [hys] at h; cases h
        | ok ys =>
          rw [hys] at h
          cases h
          obtain ⟨slots, each⟩ := ih hys
          have slot := follows.2.slot
          refine ⟨?_, fun y hy => ?_⟩
          · rw [List.filter_cons_of_pos takes, List.map_cons, slots, slot]
          · rcases List.mem_cons.1 hy with rfl | hy
            · exact ⟨cur, i, slot ▸ counts, slot ▸ follows.2⟩
            · exact each y hy

end

end Sys2Proof.Machine

namespace Sys2Proof.Machine

/-! ## The legs of a declaration -/

section
variable {p q : Pos} {i : Fin 16} {s t : State} {gs : List Leg}

theorem applyLegs_append (gs hs : List Leg) (s : State) : applyLegs (gs ++ hs) s = applyLegs hs (applyLegs gs s) :=
  List.foldl_append

/-- A line no leg names keeps what it holds (R22). -/
theorem applyLegs_line_ne (h : ∀ g ∈ gs, g.pos ≠ p ∨ g.line ≠ i) :
    rd (rd (applyLegs gs s).drawers p).lines i = rd (rd s.drawers p).lines i := by
  induction gs generalizing s with
  | nil => rfl
  | cons g gs ih =>
    refine (ih fun g hg => h g (List.mem_cons_of_mem _ hg)).trans ?_
    obtain ⟨-, -, -, others, -⟩ := legSaturatesLine g s
    exact others p i ((h g (List.mem_cons_self ..)).imp Ne.symm Ne.symm)

theorem applyLegs_others (h : ∀ g ∈ gs, g.pos = p) (hq : q ≠ p) : rd (applyLegs gs s).drawers q = rd s.drawers q := by
  induction gs generalizing s with
  | nil => rfl
  | cons g gs ih =>
    refine (ih fun g hg => h g (List.mem_cons_of_mem _ hg)).trans ?_
    rw [applyLeg_drawers, h g (List.mem_cons_self ..), rd_upd_ne _ _ hq]

/-- The legs of one slot of a declaration (R32). -/
def slotLegs (p : Pos) (x : DeclSlot) : List Leg :=
  match x.overShort with
  | some v => [⟨p, cashLine x.slot, x.diff⟩, ⟨p, 15, v⟩]
  | none => []

theorem declLegs_eq (r : DeclRec) : declLegs r = r.slots.flatMap (slotLegs r.pos) := rfl

theorem cashLine_inj {c e : Fin 8} (h : cashLine c = cashLine e) : c = e := Fin.ext (Fin.mk.inj h)

theorem cashLine_ne_overShort (c : Fin 8) : cashLine c ≠ 15 := by
  intro h
  have := congrArg Fin.val h
  simp only [cashLine] at this
  omega

theorem mem_slotLegs {g : Leg} {x : DeclSlot} (h : g ∈ slotLegs p x) :
    g.pos = p ∧ x.overShort ≠ none ∧ (g.line = cashLine x.slot ∨ g.line = 15) := by
  unfold slotLegs at h
  cases hv : x.overShort with
  | none => rw [hv] at h; cases h
  | some v =>
    rw [hv] at h
    rcases List.mem_cons.1 h with rfl | h
    · exact ⟨rfl, nofun, .inl rfl⟩
    · rw [List.mem_singleton.1 h]
      exact ⟨rfl, nofun, .inr rfl⟩

/-- A line that is neither line 15 nor the cash line of a slot that differs is kept (R32). -/
theorem slotLegs_kept {xs : List DeclSlot} (h15 : i ≠ 15) (hi : ∀ x ∈ xs, x.overShort ≠ none → cashLine x.slot ≠ i) :
    rd (rd (applyLegs (xs.flatMap (slotLegs p)) s).drawers p).lines i = rd (rd s.drawers p).lines i :=
  applyLegs_line_ne fun g hg => by
    obtain ⟨x, hx, hg⟩ := List.mem_flatMap.1 hg
    obtain ⟨-, some, line⟩ := mem_slotLegs hg
    refine .inr ?_
    rcases line with line | line <;> rw [line]
    · exact hi x hx some
    · exact h15.symm

/-- A slot's legs bring its cash line to the declared count (R32). -/
theorem slotLegs_count {x : DeclSlot} {n : Nat} (most : n ≤ 999999999999)
    (some : x.overShort ≠ none) (diff : x.diff = n - (rd (rd s.drawers p).lines (cashLine x.slot)).amount) :
    (rd (rd (applyLegs (slotLegs p x) s).drawers p).lines (cashLine x.slot)).amount = n := by
  obtain ⟨v, hv⟩ := Option.ne_none_iff_exists'.1 some
  have legs : slotLegs p x = [⟨p, cashLine x.slot, x.diff⟩] ++ [⟨p, 15, v⟩] := by unfold slotLegs; rw [hv]; rfl
  rw [legs, applyLegs_append, applyLegs_line_ne]
  · obtain ⟨amount, -⟩ := legSaturatesLine ⟨p, cashLine x.slot, x.diff⟩ s
    have : (applyLegs [⟨p, cashLine x.slot, x.diff⟩] s) = applyLeg ⟨p, cashLine x.slot, x.diff⟩ s := rfl
    rw [this]
    dsimp only at amount ⊢
    omega
  · simpa using (cashLine_ne_overShort _).symm

/-- After every slot's legs the cash line of each slot that differed holds its declared count (R32). -/
theorem slotsLegs_count {xs : List DeclSlot} (hn : (xs.map (·.slot)).Nodup) {x : DeclSlot} (hx : x ∈ xs)
    (most : x.count ≤ 999999999999) (some : x.overShort ≠ none)
    (diff : x.diff = x.count - (rd (rd s.drawers p).lines (cashLine x.slot)).amount) :
    (rd (rd (applyLegs (xs.flatMap (slotLegs p)) s).drawers p).lines (cashLine x.slot)).amount = x.count := by
  induction xs generalizing s with
  | nil => cases hx
  | cons y ys ih =>
    rw [List.map_cons, List.nodup_cons] at hn
    rw [List.flatMap_cons, applyLegs_append]
    rcases List.mem_cons.1 hx with rfl | hx
    · rw [slotLegs_kept (cashLine_ne_overShort _) fun y hy _ e => hn.1 (List.mem_map.2 ⟨y, hy, cashLine_inj e⟩)]
      exact slotLegs_count most some diff
    · refine ih hn.2 hx (diff.trans ?_)
      have ne : y.slot ≠ x.slot := fun e => hn.1 (e ▸ List.mem_map_of_mem hx)
      have kept := slotLegs_kept (p := p) (s := s) (xs := [y]) (cashLine_ne_overShort x.slot)
        fun z hz _ e => ne (by rw [List.mem_singleton.1 hz] at e; exact cashLine_inj e)
      rw [List.flatMap_singleton] at kept
      rw [kept]

end

/-! ## A declaration taken -/

/-- A position leaves its balance as its declaration's kind says (R31, R32). -/
def leaveBalance (p : Pos) (kind : BalKind) (form : Option (Fin 32)) (s : State) : State :=
  match kind with
  | .interim => markRow0 p (showByPart p form
      ((s.updDrawer p fun d => { d with ctx := none }).updPos p fun x => { x with state := .ready }))
  | .final => signOffPos p s

section
variable {p : Pos} {kind : BalKind} {s : State}

@[simp] theorem leaveBalance_frame (p : Pos) (kind : BalKind) (form : Option (Fin 32)) (s : State) :
    (leaveBalance p kind form s).line = s.line ∧ (leaveBalance p kind form s).tables = s.tables ∧
    (leaveBalance p kind form s).groups = s.groups ∧ (leaveBalance p kind form s).nv = s.nv ∧
    (leaveBalance p kind form s).jc = s.jc ∧ (leaveBalance p kind form s).clock = s.clock := by
  cases kind <;> simp [leaveBalance]

theorem leaveBalance_others (p : Pos) (kind : BalKind) (form : Option (Fin 32)) (s : State) :
    OthersKept p s (leaveBalance p kind form s) := by
  cases kind with
  | interim => exact fun q h => by simp [leaveBalance, markRow0, showByPart_others _ _ _ h, rd_upd_ne _ _ h]
  | final => exact signOffPos_others p s

/-- What a position is left with whose balance its declaration has ended (R31, R32). -/
theorem leaveBalance_spec (kind : BalKind) (form : Option (Fin 32)) (hs : (rd s.posns p).state = .balancing) :
    let t := leaveBalance p kind form s
    rd t.drawers p = { rd s.drawers p with ctx := none } ∧ 0 ∈ (rd t.screens p).dirty ∧
    (kind = .interim → rd t.posns p = { rd s.posns p with state := .ready } ∧
      (rd t.keys p).queue = (rd s.keys p).queue ∧ (rd t.screens p).form = form.bind (shownForm s)) ∧
    (kind = .final → rd t.posns p = { rd s.posns p with state := .signedOff, teller := none } ∧
      (rd t.keys p).queue = [] ∧ (rd t.screens p).form = shownForm s 0) := by
  cases kind with
  | interim =>
    refine ⟨by simp [leaveBalance, markRow0], by simp [leaveBalance, markRow0, mark_dirty], fun _ => ⟨?_, ?_, ?_⟩, nofun⟩
    · simp [leaveBalance, markRow0]
    · simp [leaveBalance, markRow0, showByPart_keys]
    · simp only [leaveBalance, markRow0, State.updScreen_screens, rd_upd_self, mark_form, showByPart_form]
      rfl
  | final =>
    obtain ⟨pos, drawer, queue, -, form, dirty⟩ := signOffPos_signedOff p s
    refine ⟨drawer, dirty, nofun, fun _ => ⟨pos.trans ?_, queue, form⟩⟩
    simp [leftFor, hs]

theorem takeDeclaration_eq (p : Pos) (ctx : BalCtx) (r : DeclRec) (s : State) : takeDeclaration p ctx r s =
    report p (.declaration r) (leaveGroup p ctx.leader false (leaveBalance p r.kind ctx.returnForm
      (applyLegs (declLegs r) (append (.declaration r) (placeMidnight .control s))))) := by
  unfold takeDeclaration leaveBalance
  cases r.kind <;> rfl

/-- What a declaration that is taken leaves and tells (R29, R31, R32). -/
theorem takeDeclaration_spec (p : Pos) (ctx : BalCtx) (r : DeclRec) (s : State) (hs : (rd s.posns p).state = .balancing)
    (hr : r.pos = p) : let t := takeDeclaration p ctx r s
    Appended (midnightBodies s ++ [.declaration r] ++ groupEndBodies p ctx.leader false s) s t ∧
    rd t.drawers p = { rd (applyLegs (declLegs r) s).drawers p with ctx := none } ∧ OthersKept p s t ∧
    LeftGroup p ctx.leader false s t ∧
    (r.kind = .interim → rd t.posns p = { rd s.posns p with state := .ready } ∧
      (rd t.keys p).queue = (rd s.keys p).queue ∧ (rd t.screens p).form = ctx.returnForm.bind (shownForm s)) ∧
    (r.kind = .final → rd t.posns p = { rd s.posns p with state := .signedOff, teller := none } ∧
      (rd t.keys p).queue = [] ∧ (rd t.screens p).form = shownForm s 0) ∧ 0 ∈ (rd t.screens p).dirty ∧
    (s.line.state = .online → s.line.outbound.length ≤ 24 → Reported p (.declaration r) s t) ∧
    t = { since s t with posns := t.posns, drawers := t.drawers, screens := t.screens, keys := t.keys,
                         groups := t.groups, clock := { s.clock with midnights := 0 } } := by
  obtain ⟨a, ha⟩ : ∃ a, a = append (.declaration r) (placeMidnight .control s) := ⟨_, rfl⟩
  obtain ⟨b, hb⟩ : ∃ b, b = applyLegs (declLegs r) a := ⟨_, rfl⟩
  obtain ⟨v, hv⟩ : ∃ v, v = leaveBalance p r.kind ctx.returnForm b := ⟨_, rfl⟩
  obtain ⟨e, he⟩ : ∃ e, e = leaveGroup p ctx.leader false v := ⟨_, rfl⟩
  obtain ⟨t, ht⟩ : ∃ t, t = takeDeclaration p ctx r s := ⟨_, rfl⟩
  have last : t = report p (.declaration r) e := by rw [ht, takeDeclaration_eq, ← ha, ← hb, ← hv, ← he]
  have posns : b.posns = s.posns := by simp [hb, ha]
  have keys : b.keys = s.keys := by simp [hb, ha]
  have screens : b.screens = s.screens := by simp [hb, ha]
  have tables : b.tables = s.tables := by simp [hb, ha]
  have drawers : b.drawers = (applyLegs (declLegs r) s).drawers := hb ▸ applyLegs_drawers_congr _ (by simp [ha])
  have groups : v.groups = s.groups := by simp [hv, hb, ha]
  have clock : v.clock = { s.clock with midnights := 0 } := by simp [hv, hb, ha, placeMidnight_midnights]
  have told : Told 0 s v := by
    have : Told 0 s a := ha ▸ (placeMidnight_told _ _).trans (append_told _ _)
    exact this.goesOn (by simp [hv, hb]) (by simp [hv, hb])
  have entry : Appended (midnightBodies s ++ [.declaration r]) s v := by
    have : Appended _ s a := ha ▸ placeMidnight_append (by decide) (by simp [firstForward]) s
    exact this.of_nv_jc (by simp [hv, hb]) (by simp [hv, hb]) (by simp [hv, hb])
  have toldE : Told 1 v e := he ▸ leaveGroup_told ..
  have reported : Says 1 e t := last ▸ report_says (by simp) e
  obtain ⟨drawer, dirty, interim, final⟩ := leaveBalance_spec (p := p) (s := b) r.kind ctx.returnForm (by rw [posns, hs])
  have others := leaveBalance_others p r.kind ctx.returnForm b
  rw [← hv] at drawer dirty interim final others
  rw [posns, keys, shownForm_congr tables] at interim
  rw [posns, shownForm_congr tables] at final
  unfold OthersKept at others
  rw [posns, keys, screens] at others
  have tposns : t.posns = v.posns := by simp [last, he]
  have tkeys : t.keys = v.keys := by simp [last, he]
  have tscreens : t.screens = v.screens := by simp [last, he]
  have tdrawers : t.drawers = v.drawers := by simp [last, he]
  have legs : ∀ g ∈ declLegs r, g.pos = p := fun g hg => by
    rw [declLegs_eq, hr] at hg
    obtain ⟨x, -, hg⟩ := List.mem_flatMap.1 hg
    exact (mem_slotLegs hg).1
  dsimp only
  rw [← ht]
  refine ⟨?_, by rw [tdrawers, drawer, drawers], fun q hq => ?_,
    leaveGroup_left told (by omega) groups (by simp [hv, hb, ha]) (he ▸ reported.told) (by simp [last, he]),
    by rwa [tposns, tkeys, tscreens], by rwa [tposns, tkeys, tscreens], by rwa [tscreens], fun on few => ?_, ?_⟩
  · rw [← groupEndBodies_congr p ctx.leader false groups]
    exact reported.appended (by simp [last]) (by simp [last]) (he ▸ leaveGroup_appended entry told)
  · rw [tposns, tkeys, tscreens, tdrawers]
    obtain ⟨hpos, hkey, hscreen, hdrawer⟩ := others q hq
    exact ⟨hpos, hkey, hscreen, by rw [hdrawer, drawers, applyLegs_others legs hq]⟩
  · exact last ▸ (told.trans toldE).reported on (by omega)
  · exact eq_since_positions (told.trans (toldE.trans reported.told)) (by simp [ht]) (by simp [ht])
      (by simp [last, he, clock]) (by simp [ht]) (by simp [ht]) (by simp [ht]) (by simp [ht]) (by simp [ht]) (by simp [ht])
      (by simp [ht])

end

theorem LeftGroup.congr {p : Pos} {leader : Option Pos} {ab : Bool} {s s' t : State} (h : LeftGroup p leader ab s t)
    (hg : s'.groups = s.groups) (hl : s'.line = s.line) (ht : s'.tables = s.tables) : LeftGroup p leader ab s' t := by
  unfold LeftGroup Reported at h ⊢
  rwa [hg, hl, ht]

/-! ## TRANSMIT of form 1 -/

section
variable {p : Pos} {d : FormDesc} {ctx : BalCtx} {rest : List Token} {s : State}

/-- The declaration a position makes while the token that asks for it is taken out. -/
theorem declareSlots_popped (p : Pos) (kind : BalKind) (d : FormDesc) (rest : List Token) (s : State) (cs : List (Fin 8)) :
    declareSlots (popped p rest s.begin) p kind d cs = declareSlots s p kind d cs := by
  have slot (c : Fin 8) (cur : CurrencyEntry) (n : Nat) :
      declareSlot (popped p rest s.begin) p kind c cur n = declareSlot s p kind c cur n := rfl
  have value (i : Nat) : fieldValue (popped p rest s.begin) p i = fieldValue s p i := popped_fieldValue ..
  have currencies : (popped p rest s.begin).tables.currencies = s.tables.currencies := rfl
  induction cs with
  | nil => rfl
  | cons c cs ih =>
    unfold declareSlots
    simp only [slot, value, currencies, ih]

/-- TRANSMIT of a filled form 1 by a position that balances declares it (R116, R30). -/
theorem exec_declare (hp : s.powered = true) (hs : (rd s.posns p).state = .balancing) (hf : (rd s.screens p).form = some 1)
    (hd : rd s.tables.forms 1 = some d)
    (all : ∀ i, ∀ f : FieldDesc, d.fields[i]? = some f → f.mandatory = true → isFilled f (fieldValue s p i) = true)
    (hq : (rd s.keys p).queue = .transmit :: rest) (hc : (rd s.drawers p).ctx = some ctx) :
    exec (.transmit p) s = .next (match declareSlots s p ctx.kind d (List.finRange 8) with
      | .error (st, i) => refuseDeclaration p st (some i) (popped p rest s.begin)
      | .ok xs =>
        match refusal .control (4 + (groupEndBodies p ctx.leader false s).length) s with
        | some st => refuseDeclaration p st none (popped p rest s.begin)
        | none => takeDeclaration p ctx ⟨p, ctx.kind, ctx.number, xs⟩ (popped p rest s.begin)) := by
  rw [exec_transmit_filled hp hq (.inr (.inl ⟨hs, hf⟩)) hf hd all]
  refine congrArg _ ?_
  have state : (rd (popped p rest s.begin).posns p).state = .balancing := hs
  have context : (rd (popped p rest s.begin).drawers p).ctx = some ctx := hc
  unfold routeTransmit declare
  rw [state, context]
  dsimp only
  rw [declareSlots_popped, refusal_popped, emptiesGroup_congr (s := s) p ctx.leader (by simp), groupEndBodies_length] <;> rfl

end

/-- Settles O35: the checks slot by slot, the room, and the event of a declaration that is taken. -/
theorem declarationEndsBalance : Obligations.DeclarationEndsBalance := by
  refine ⟨fun p d ctx rest s hp hs hf hd all hq hc => ?_, fun p d ctx xs rest s hp hs hf hd all hq hc hxs day => ?_⟩
  · have run := exec_declare hp hs hf hd all hq hc
    refine ⟨fun c cur i f st counts field fails before => ⟨_, run, ?_⟩, fun none => ⟨?_, fun day full => ⟨_, run, ?_⟩⟩⟩
    · rw [declareSlots_fails (List.finRange 8) (List.pairwise_lt_finRange 8) (List.mem_finRange c) counts fails before]
      exact refuseDeclaration_field (by rwa [currentFields_eq hf hd])
    · exact declareSlots_passes _ fun c _ => none c
    · obtain ⟨xs, hxs⟩ := declareSlots_passes (List.finRange 8) fun c _ => none c
      rw [hxs]
      dsimp only
      rw [refusal_control_full day (by omega)]
      exact refuseDeclaration_none ..
  · intro ends room r legs
    obtain ⟨u, hu⟩ : ∃ u, u = popped p rest s.begin := ⟨_, rfl⟩
    have run : exec (.transmit p) s = .next (takeDeclaration p ctx r u) := by
      rw [exec_declare hp hs hf hd all hq hc, hxs, hu]
      dsimp only
      rw [refusal_control_room day (by rw [← Nat.add_assoc]; exact room)]
    obtain ⟨slots, each⟩ := declareSlots_ok (List.finRange 8) hxs
    obtain ⟨entry, drawer, others, left, interim, final, dirty, reported, since⟩ :=
      takeDeclaration_spec p ctx r u (by simpa [hu] using hs) rfl
    have out : (takeDeclaration p ctx r u).out = [] := by simp [hu]
    dsimp only at since
    generalize takeDeclaration p ctx r u = t at *
    have drawers : u.drawers = s.drawers := by simp [hu]
    have posns : u.posns = s.posns := by simp [hu]
    have keys : rd u.keys p = { rd s.keys p with queue := rest } := by simp [hu]
    have shown : shownForm u = shownForm s := shownForm_congr (by simp [hu])
    have legsDrawers : (applyLegs (declLegs r) u).drawers = (applyLegs (xs.flatMap (slotLegs p)) s).drawers :=
      applyLegs_drawers_congr _ drawers
    have nodup : (xs.map (·.slot)).Nodup := slots ▸ (List.nodup_finRange 8).filter _
    have line (i : Fin 16) : rd (rd t.drawers p).lines i = rd (rd (applyLegs (xs.flatMap (slotLegs p)) s).drawers p).lines i := by
      rw [drawer, legsDrawers]
    refine ⟨t, run, ?_, slots, fun x hx => ?_, ?_, fun x hx kind => ?_, fun i h15 hi => ?_, fun q hq => ?_, ?_, ?_, ?_, dirty,
      fun on few => ?_, out, ?_⟩
    · rw [midnightBodies_congr (s := s) (by simp [hu]), groupEndBodies_congr (s := s) p ctx.leader false (by simp [hu])] at entry
      exact entry.congr (by simp [hu]) (by simp [hu]) (by simp [hu])
    · obtain ⟨cur, i, ⟨currency, ⟨f, field, role⟩, -⟩, x'⟩ := each x hx
      refine ⟨x'.live, x'.diff, ⟨i, f, field, role, x'.count⟩, x'.even, x'.home, fun kind ne foreign => ?_⟩
      obtain ⟨q, rate, serial, value⟩ := x'.foreign kind ne foreign
      exact ⟨cur, q, currency, rate, serial, value⟩
    · rw [drawer, legsDrawers]
      rfl
    · obtain ⟨cur, i, -, x'⟩ := each x hx
      have most := x'.count ▸ x'.most
      rw [line]
      by_cases none : x.overShort = none
      · rw [slotLegs_kept (cashLine_ne_overShort _) fun y hy some e => ?_, ← x'.live]
        · have same : x.diff = 0 := by
            by_contra ne
            by_cases home : x.slot = 0
            · exact absurd ((x'.home kind ne home).1.symm.trans none) nofun
            · obtain ⟨q, -, -, value⟩ := x'.foreign kind ne home
              exact absurd (value.symm.trans none) nofun
          have := x'.diff
          omega
        · exact some (List.inj_on_of_nodup_map nodup hy hx (cashLine_inj e) ▸ none)
      · exact slotsLegs_count nodup hx most none (x'.live ▸ x'.diff)
    · rw [line]
      exact slotLegs_kept h15 hi
    · have := others q hq
      simpa [hu, popped, rd_upd_ne _ _ hq] using this
    · exact left.congr (by simp [hu]) (by simp [hu]) (by simp [hu])
    · rw [posns, keys, shown] at interim
      exact interim
    · rw [posns, shown] at final
      exact final
    · have := reported (by simpa [hu] using on) (by simpa [hu] using few)
      unfold Reported at this ⊢
      simpa [hu] using this
    · conv_lhs => rw [since]
      rw [hu]
      rfl

end Sys2Proof.Machine

namespace Sys2Proof.Machine

/-! ## The retained store written, the day state passed on -/

section
variable {cause : RetainedCause} {rb : Option RetainedRec} {j k : Nat} {s t u : State}

/-- The three outcomes of a write of the retained store (R73). -/
theorem writeRetained_cases (cause : RetainedCause) (rb : Option RetainedRec) (u : State) :
    ((rb = none ∨ rb = some (closingRecord u)) ∧ writeRetained cause rb u =
      (nvWrite (.retained (closingRecord u)) u).updDay fun d => { d with retainedBad := false }) ∨
    ∃ x, rb = some x ∧ x ≠ closingRecord u ∧ writeRetained cause rb u =
      report 255 (.retainedWriteFailed (businessDate u) cause) (nvWrite (.retainedCrc (~~~(closingRecord u).crc))
        ((nvWrite (.retained x) u).updDay fun d => { d with retainedBad := true })) := by
  unfold writeRetained
  cases rb with
  | none => exact .inl ⟨.inl rfl, rfl⟩
  | some x =>
    dsimp only
    by_cases h : x = closingRecord u
    · rw [if_pos h, h]
      exact .inl ⟨.inr rfl, rfl⟩
    · rw [if_neg h]
      exact .inr ⟨x, rfl, h, rfl⟩

/-- A write of the retained store leaves the entries, the control record and the day state, and tells one message at most. -/
theorem writeRetained_spec (cause : RetainedCause) (rb : Option RetainedRec) (u : State) : let t := writeRetained cause rb u
    Says 1 u t ∧ t.nv.entries = u.nv.entries ∧ t.nv.control = u.nv.control ∧
    t.day = { u.day with retainedBad := t.day.retainedBad } := by
  rcases writeRetained_cases cause rb u with ⟨-, h⟩ | ⟨x, -, -, h⟩ <;> rw [h]
  · exact ⟨⟨rfl, rfl, [], by simp⟩, rfl, rfl, rfl⟩
  · obtain ⟨v, hv⟩ : ∃ v, v = nvWrite (.retainedCrc (~~~(closingRecord u).crc))
        ((nvWrite (.retained x) u).updDay fun d => { d with retainedBad := true }) := ⟨_, rfl⟩
    have first : Says 0 u v := hv ▸ .of_eq rfl rfl
    rw [← hv]
    refine ⟨(first.trans (report_says (by simp) v)), ?_, ?_, ?_⟩
    · simp [hv, JournalMem.write]
    · simp [hv, JournalMem.write]
    · simp [hv]

/-- What stands in the retained store after it is written in an event (R72, R73). -/
theorem writeRetained_written (date : businessDate u = businessDate s)
    (lines : ∀ p, (rd u.drawers p).lines = (rd s.drawers p).lines) (told : Told k s u) (hk : k ≤ 2)
    (after : Told j (writeRetained cause rb u) t) (hn : t.nv.retained = (writeRetained cause rb u).nv.retained)
    (hb : t.day.retainedBad = (writeRetained cause rb u).day.retainedBad) : RetainedWritten cause rb s t := by
  refine ⟨closingRecord u, date, fun p c => ?_, rfl, fun good => ?_, fun x hx ne => ?_⟩
  · simp [closingRecord, closingCash, lines]
  · rcases writeRetained_cases cause rb u with ⟨-, h⟩ | ⟨x, hx, ne, -⟩
    · rw [hn, hb, h]
      exact ⟨rfl, rfl⟩
    · rw [hx] at good
      rcases good with e | e <;> cases e
      exact absurd rfl ne
  · rcases writeRetained_cases cause rb u with ⟨good, -⟩ | ⟨x', hx', -, h⟩
    · rw [hx] at good
      rcases good with e | e <;> cases e
      exact absurd rfl ne
    · obtain rfl : x' = x := Option.some.inj (hx'.symm.trans hx)
      have stored : t.nv.retained = { x' with crc := ~~~(closingRecord u).crc } := by
        rw [hn, h]
        simp [JournalMem.write]
      refine ⟨stored, by rw [hb, h]; simp, fun on few => ?_⟩
      rw [h] at after
      rw [← date]
      refine Queued.stays (Told.reported (k := k) ?_ on (by omega)) after
      exact told.goesOn rfl rfl

theorem setDay_state (d : DayState) (s : State) : (setDay d s).day = { s.day with state := d } := rfl

theorem setDay_screens (d : DayState) (s : State) (p : Pos) : rd (setDay d s).screens p = (rd s.screens p).mark 0 := by
  simp [setDay]

theorem setDay_told (d : DayState) (s : State) : Told 0 s (setDay d s) := .of_eq rfl rfl

/-! ## Several entries -/

theorem appendAll_told (bs : List EntryBody) (s : State) : Told 0 s (appendAll bs s) := by
  induction bs generalizing s with
  | nil => exact .of_eq rfl rfl
  | cons b bs ih => exact (append_told b s).trans (ih _)

/-- Entries appended after those an event has appended already. -/
theorem appendAll_follows {as bs : List EntryBody} (hb : ∀ b ∈ bs, firstForward b ≠ .pending) (h : Appended as s u)
    (ht : Told k s u) : Appended (as ++ bs) s (appendAll bs u) := by
  induction bs generalizing as u k with
  | nil => simpa [appendAll] using h
  | cons b bs ih =>
    have told := append_told b u
    have := ih (fun c hc => hb c (List.mem_cons_of_mem _ hc))
      (h.trans (append_appended (hb b (List.mem_cons_self ..)) u) told.state ht.grows told.grows) (ht.trans told)
    simpa [appendAll] using this

/-- One entry or more appended (R45). -/
theorem appendAll_appended {bs : List EntryBody} (hb : ∀ b ∈ bs, firstForward b ≠ .pending) (ne : bs ≠ []) (s : State) :
    Appended bs s (appendAll bs s) := by
  cases bs with
  | nil => exact absurd rfl ne
  | cons b bs =>
    exact appendAll_follows (fun c hc => hb c (List.mem_cons_of_mem _ hc))
      (append_appended (hb b (List.mem_cons_self ..)) s) (append_told b s)

end

end Sys2Proof.Machine

namespace Sys2Proof.Machine

/-! ## The finish of a recovery -/

section
variable {s : State} {r : Replay} {d : RecDay} {rb : Option RetainedRec}

theorem exec_recoveryFinish (hp : s.powered = true) (hr : s.jc.replay = some r) (hs : r.slot = slotsUsed s)
    (hd : s.nv.control.fields.day = some d) : exec (.recoveryFinish rb) s = .next (finishRecovery d r rb s.begin) := by
  have replay : s.begin.jc.replay = some r := hr
  have day : s.begin.nv.control.fields.day = some d := hd
  refine (show exec (.recoveryFinish rb) s = execRecoveryFinish rb s from rfl).trans ((event_eq _ hp).trans (congrArg _ ?_))
  simp only [replay, day]
  exact if_pos hs

/-- Whether the entries of a recovery's finish are appended (R55). -/
def RecoveryFits (d : RecDay) (r : Replay) (s : State) : Prop :=
  d ≠ .closing ∧ slotsUsed s + (recoveryAbandons r).length + 1 ≤ 16256

theorem recoveryAppend_fits (hd : d ≠ .closed) (h : RecoveryFits d r s) : recoveryAppend d r s =
    (appendAll (recoveryAbandons r ++ [recoveryEntry d r (recoveryAbandons r).length s]) s, (recoveryAbandons r).length) := by
  obtain ⟨open_, room⟩ := h
  have limit : Config.controlLimit = 16256 := rfl
  exact if_pos ⟨by cases d <;> simp_all, by rw [limit]; omega⟩

theorem recoveryAppend_full (h : ¬RecoveryFits d r s) : recoveryAppend d r s = (s, 0) := by
  have limit : Config.controlLimit = 16256 := rfl
  refine if_neg fun ⟨trading, room⟩ => h ⟨?_, by rw [limit] at room; omega⟩
  rintro rfl
  rcases trading with h | h <;> cases h

theorem recoveryAbandons_notPending (d : RecDay) (r : Replay) (n : Nat) (s : State) :
    ∀ b ∈ recoveryAbandons r ++ [recoveryEntry d r n s], firstForward b ≠ .pending := by
  intro b hb
  rcases List.mem_append.1 hb with hb | hb
  · obtain ⟨p, -, h⟩ := List.mem_filterMap.1 hb
    obtain ⟨o, -, rfl⟩ := Option.map_eq_some_iff.1 h
    simp [firstForward]
  · rw [List.mem_singleton.1 hb]
    simp [recoveryEntry, firstForward]

@[simp] theorem recoveryAppend_frame (d : RecDay) (r : Replay) (s : State) :
    (recoveryAppend d r s).1.tables = s.tables ∧ (recoveryAppend d r s).1.posns = s.posns ∧
    (recoveryAppend d r s).1.screens = s.screens ∧ (recoveryAppend d r s).1.keys = s.keys ∧
    (recoveryAppend d r s).1.drawers = s.drawers ∧ (recoveryAppend d r s).1.groups = s.groups ∧
    (recoveryAppend d r s).1.day = s.day ∧ (recoveryAppend d r s).1.clock = s.clock ∧
    (recoveryAppend d r s).1.store = s.store ∧ (recoveryAppend d r s).1.queues = s.queues ∧
    (recoveryAppend d r s).1.printers = s.printers ∧ (recoveryAppend d r s).1.engine = s.engine ∧
    (recoveryAppend d r s).1.powered = s.powered ∧ (recoveryAppend d r s).1.out = s.out ∧
    (recoveryAppend d r s).1.freeUsed = s.freeUsed ∧ (recoveryAppend d r s).1.pending = s.pending := by
  unfold recoveryAppend
  dsimp only
  split <;> simp

/-- What the append of a recovery's finish tells, and what it appends when it fits (R55). -/
theorem recoveryAppend_spec (hd : d ≠ .closed) (r : Replay) (s : State) : let x := recoveryAppend d r s
    Told 0 s x.1 ∧ (RecoveryFits d r s →
      Appended (recoveryAbandons r ++ [recoveryEntry d r (recoveryAbandons r).length s]) s x.1 ∧
      x.2 = (recoveryAbandons r).length) ∧
    (¬RecoveryFits d r s → x = (s, 0)) ∧ x.1.jc = { s.jc with lowSpace := x.1.jc.lowSpace } ∧
    x.1.nv.retained = s.nv.retained ∧ businessDate x.1 = businessDate s := by
  by_cases h : RecoveryFits d r s
  · rw [recoveryAppend_fits hd h]
    have entries := appendAll_appended (recoveryAbandons_notPending d r (recoveryAbandons r).length s) (by simp) s
    obtain ⟨-, -, fields, retained, jc, -⟩ := id entries
    exact ⟨appendAll_told _ s, fun _ => ⟨entries, rfl⟩, fun n => absurd h n, jc, retained, by unfold businessDate; rw [fields]⟩
  · rw [recoveryAppend_full h]
    exact ⟨.of_eq rfl rfl, fun f => absurd f h, fun _ => rfl, rfl, rfl, rfl⟩

end

/-- Settles O9: what is appended, the day passed on, the report, the retained store in CLOSING, the engine told. -/
theorem recoveryFinishReturnsDay : Obligations.RecoveryFinishReturnsDay := by
  intro s r d rb hp hr hs hday hd ends room
  obtain ⟨v, hv⟩ : ∃ v : State, v = { s.begin with jc := { s.jc with replay := none } } := ⟨_, rfl⟩
  obtain ⟨x, hx⟩ : ∃ x, x = recoveryAppend d r v := ⟨_, rfl⟩
  obtain ⟨u, hu⟩ : ∃ u, u = setDay (recoveredDay d x.1.nv.control.fields.undelivered) x.1 := ⟨_, rfl⟩
  obtain ⟨w, hw⟩ : ∃ w, w = report 255 (.recoveryDone (.good d (slotsUsed u) x.2 r.readded)) u := ⟨_, rfl⟩
  obtain ⟨z, hz⟩ : ∃ z, z = if d = .closing then writeRetained .recovery rb w else w := ⟨_, rfl⟩
  have run : exec (.recoveryFinish rb) s = .next (z.updEngine fun e => { e with recoveryDone := true }) := by
    rw [exec_recoveryFinish hp hr hs hday, hz, hw, hu, hx, hv]
    rfl
  obtain ⟨told, fits, full, jc, retained, date⟩ := recoveryAppend_spec hd r v
  rw [← hx] at told fits full jc retained date
  have iff : RecoveryFits d r v ↔ room := by rw [hv]; rfl
  rw [iff] at fits full
  have reported : Says 1 u w := hw ▸ report_says (by simp) u
  have toldU : Told 0 s u := by
    have : Told 0 s v := hv ▸ .of_eq rfl rfl
    exact hu ▸ (this.trans told).trans (setDay_told _ _)
  have closing : Says 1 w z ∧ z.nv.entries = w.nv.entries ∧ z.nv.control = w.nv.control ∧
      z.day = { w.day with retainedBad := z.day.retainedBad } := by
    rw [hz]
    split
    · exact writeRetained_spec ..
    · exact ⟨⟨rfl, rfl, [], by simp⟩, rfl, rfl, rfl⟩
  obtain ⟨toldZ, entries, control, day⟩ := closing
  obtain ⟨tables, posns, keys, drawers, groups, clock, store, queues, printers, engine, powered, out, free, pending, jcZ,
      screens⟩ : z.tables = s.tables ∧ z.posns = s.posns ∧ z.keys = s.keys ∧ z.drawers = s.drawers ∧ z.groups = s.groups ∧
      z.clock = s.clock ∧ z.store = s.store ∧ z.queues = s.queues ∧ z.printers = s.printers ∧ z.engine = s.engine ∧
      z.powered = s.powered ∧ z.out = [] ∧ z.freeUsed = s.freeUsed ∧ z.pending = s.pending ∧ z.jc = x.1.jc ∧
      z.screens = u.screens := by
    rw [hz]
    split <;> simp [hw, hu, hx, hv]
  have nvW : w.nv = x.1.nv := by simp [hw, hu]
  have dayU : u.day = { s.day with state := recoveredDay d x.1.nv.control.fields.undelivered } := by
    rw [hu, setDay_state, hx, hv]
    simp
  have dayW : w.day = u.day := by simp [hw]
  have state : z.day.state = recoveredDay d x.1.nv.control.fields.undelivered := by rw [day, dayW, dayU]
  refine ⟨_, run, fun fit => ?_, fun full' => ?_, fun closing => ?_, fun open_ => ?_, ?_, fun p => ?_, fun h => ?_, fun h => ?_,
    fun h => ?_, fun n hn on few => ?_, ?_, ?_⟩
  · obtain ⟨appended, -⟩ := fits fit
    rw [if_neg fit.1] at hz
    have start : Appended (ends ++ [.recovery ⟨d, slotsUsed s, s.nv.control.fields.entryCount, ends.length, r.readded⟩])
        { s with jc := { s.jc with replay := none } } x.1 := by
      rw [hv] at appended
      exact appended.congr rfl rfl rfl
    have passed := start.of_nv_jc (u := u) (by simp [hu]) (by simp [hu]) (by simp [hu])
    rw [hz]
    exact reported.appended (by simp [hw]) (by simp [hw]) passed
  · have none := full full'
    rw [none] at nvW
    exact ⟨entries.trans (by rw [nvW, hv]; rfl), control.trans (by rw [nvW, hv]; rfl)⟩
  · rw [if_pos closing] at hz
    have dateW : businessDate w = businessDate s := by
      have : businessDate v = businessDate s := by rw [hv]; rfl
      unfold businessDate at date this ⊢
      rw [nvW, date, this]
    have drawersW : w.drawers = s.drawers := by simp [hw, hu, hx, hv]
    rw [hz]
    exact writeRetained_written (u := w) dateW (fun p => by rw [drawersW]) (toldU.trans reported.told) (by omega)
      (.of_eq rfl rfl) rfl rfl
  · rw [if_neg open_] at hz
    have nv : z.nv.retained = s.nv.retained := by rw [hz, nvW, retained, hv]; rfl
    have bad : z.day.retainedBad = s.day.retainedBad := by rw [hz, dayW, dayU]
    exact ⟨nv, bad⟩
  · have : z.jc = { s.jc with replay := none, lowSpace := z.jc.lowSpace } := by
      rw [jcZ, jc, hv]
    exact this
  · have row : rd z.screens p = (rd s.screens p).mark 0 := by
      rw [screens, hu, setDay_screens, hx, hv]
      simp
    refine ⟨?_, ?_⟩
    · show 0 ∈ (rd z.screens p).dirty
      rw [row, mark_dirty]
      exact .inl rfl
    · show SameButDirty _ (rd z.screens p)
      rw [row]
      exact .mark 0 _
  · exact state.trans (by rw [h]; rfl)
  · exact state.trans (by rw [h]; rfl)
  · exact state.trans (by rw [h]; rfl)
  · have number : x.2 = n := by
      rcases hn with ⟨fit, rfl⟩ | ⟨no, rfl⟩
      · exact (fits fit).2
      · rw [full no]
    have used : slotsUsed z = slotsUsed u := by
      unfold slotsUsed
      rw [control, hw]
      simp
    have := toldU.reported (p := 255) (x := .recoveryDone (.good d (slotsUsed u) x.2 r.readded)) on (by omega)
    rw [← hw, number, ← used] at this
    have waits := Queued.stays this toldZ.told
    exact waits
  · exact out
  · have line := (toldU.trans (reported.told.trans toldZ.told)).line
    have day : z.day = { s.day with state := z.day.state, retainedBad := z.day.retainedBad } := by
      rw [day, dayW, dayU]
    have : z = { since s z with screens := z.screens, day := z.day, engine := s.engine } := by
      unfold since
      rw [← line, ← tables, ← posns, ← keys, ← drawers, ← groups, ← clock, ← store, ← queues, ← printers, ← engine, ← powered,
        ← free, ← pending]
    conv_lhs => rw [this, day]
    rfl

end Sys2Proof.Machine

namespace Sys2Proof.Machine

/-! ## The replay of one entry -/

section
variable {s : State} {r : Replay} {e : Entry}

/-- A replay moved past an entry (R54). -/
def Replay.past (e : Entry) (r q : Replay) : Replay := { q with slot := r.slot + e.size, index := r.index + 1 }

/-- REPLAY_ENTRY on an entry that passes its check does what its kind asks, and moves on (R54). -/
theorem exec_replayEntry (hp : s.powered = true) (hr : s.jc.replay = some r) (hs : r.slot < slotsUsed s)
    (he : s.nv.entries[r.index]? = some e) (good : headerGood r (slotsUsed s) e = true)
    (last : r.slot + e.size = slotsUsed s → e.seq = s.nv.control.fields.entryCount) :
    exec .replayEntry s = .next (let x := replayAct e r s.begin
      { x.2 with jc := { x.2.jc with replay := some (r.past e x.1) } }) := by
  have replay : s.begin.jc.replay = some r := hr
  have entry : s.begin.nv.entries[r.index]? = some e := he
  refine (show exec .replayEntry s = execReplayEntry s from rfl).trans ((event_eq _ hp).trans (congrArg _ ?_))
  simp only [replay]
  refine (if_pos hs).trans ?_
  unfold replayNext
  rw [entry]
  refine (if_neg (by rw [show slotsUsed s.begin = slotsUsed s from rfl, good]; decide)).trans (if_neg ?_)
  rintro ⟨full, differs⟩
  exact differs (last full)

theorem headerGood_intro (hk : e.kind = kindCode e.body) (hz : e.size = kindSlots e.body) (hq : e.seq = r.index + 1)
    (hend : r.slot + e.size ≤ slotsUsed s)
    (opening : ∀ p d src m a, e.body = .opening p d src m a → p.val = r.opened ∧ r.opened = r.index) :
    headerGood r (slotsUsed s) e = true := by
  have place : openingInPlace r e.body = true := by
    cases h : e.body with
    | opening p d src m a => simpa [openingInPlace] using opening p d src m a h
    | _ => rfl
  simp [headerGood, ← hk, ← hz, hq, hend, place]

/-! ### A line re-added -/

variable {a : Account} {t : Option Nat} {l : PLine} {line : Option (Account × Option Nat × PLine)}

/-- What replay leaves of a state whose line it may re-add: its store alone may differ. -/
theorem readdLine_frame (e : Entry) (line : Option (Account × Option Nat × PLine)) (s : State) :
    (readdLine e line s).1 = { s with store := (readdLine e line s).1.store } := by
  unfold readdLine
  split
  · split
    · dsimp only
      unfold addLine updAccount
      split <;> rfl
    · rfl
  · rfl

theorem readdLine_none (h : e.print ≠ .stored ∨ line = none) : readdLine e line s = (s, 0) := by
  unfold readdLine
  cases line with
  | none => rfl
  | some x => exact if_neg fun k => h.elim (fun n => n k.1) nofun

/-- A line replay re-adds is counted (R54, R125). -/
theorem readdLine_kept (h : e.print = .stored) (room : StoreHasRoom a s) :
    readdLine e (some (a, t, l)) s = (addLine a t l s, 1) :=
  if_pos ⟨h, (storeKeeps_iff a s).2 room⟩

section
variable {u v : State} (hv : v.store = (addLine a t l u).store)
include hv

/-- A line kept joins its account's list (R125). -/
theorem accountLines_kept : accountLines a v = accountLines a u ++ [l] := by
  rw [accountLines_congr a hv, accountLines_eq, accountLines_eq, findAccount_addLine_self]
  cases findAccount a u <;> rfl

theorem accountLines_kept_other {b : Account} (hb : b ≠ a) : accountLines b v = accountLines b u := by
  rw [accountLines_congr b hv, accountLines_eq, accountLines_eq, findAccount_addLine_other _ _ _ _ _ hb]

/-- A record takes the book type of a line that has one (R124). -/
theorem bookType_kept {n : Nat} (hn : t = some n) : (findAccount a v).bind (·.bookType) = some n := by
  rw [findAccount_congr a hv, findAccount_addLine_self, hn]
  cases findAccount a u <;> rfl

end

theorem postingLine_eq {g : PostingRec} {x : LineText} (date seq : Nat) (ha : g.account = some a) (hx : g.yielded = some x) :
    postingLine date seq g = some (a, g.book.map (·.bookType), ⟨date, x.name, x.amount, x.exponent, g.balance,
      decide (g.origin = .standIn), g.book.map fun b => (b.page, b.line), seq⟩) := by
  unfold postingLine
  rw [ha, hx]
  rfl

theorem postingLine_none {g : PostingRec} (date seq : Nat) (h : g.account = none ∨ g.yielded = none) :
    postingLine date seq g = none := by
  unfold postingLine
  rcases h with h | h <;> rw [h]
  cases g.account <;> rfl

theorem StoreHasRoom.congr {s u : State} (h : StoreHasRoom a s) (hs : u.store = s.store) : StoreHasRoom a u := by
  unfold StoreHasRoom storedLines at h ⊢
  rwa [findAccount_congr a hs, hs]

end

theorem applyLegs_eq (gs : List Leg) (s : State) : applyLegs gs s = { s with drawers := (applyLegs gs s).drawers } := by
  induction gs generalizing s with
  | nil => rfl
  | cons g gs ih => exact ih (applyLeg g s)

/-- Settles O7: the entry that passes its check acts as its kind says. -/
theorem replayAppliesEntry : Obligations.ReplayAppliesEntry := by
  intro s r e hp hr hs he hk hz hq hend opening last
  have run := exec_replayEntry hp hr hs he (headerGood_intro hk hz hq hend opening) last
  clear hk hz hq hend opening last
  refine ⟨_, r.past e (replayAct e r s.begin).1, run, rfl, rfl, ?_⟩
  unfold replayAct
  cases e.body with
  | opening p d src m a =>
    refine ⟨rfl, rfl, ⟨fun i => ?_, fun o ho => ?_⟩, rfl, rfl, rfl, ⟨rfl, rfl⟩, rfl, rfl⟩
    · simp [openDrawer]
    · exact rd_upd_ne _ _ ho
  | posting g =>
    obtain ⟨line, hline⟩ : ∃ line, line = postingLine (businessDate s.begin) e.seq g := ⟨_, rfl⟩
    obtain ⟨u, hu⟩ : ∃ u, u = applyLegs g.legs s.begin := ⟨_, rfl⟩
    obtain ⟨x, hx⟩ : ∃ x, x = readdLine e line u := ⟨_, rfl⟩
    have drawers : u.drawers = (applyLegs g.legs s).drawers := hu ▸ applyLegs_drawers_congr _ rfl
    have store : u.store = s.store := by simp [hu]
    have rest : x.1 = { s.begin with drawers := u.drawers, store := x.1.store } := by
      have frame := readdLine_frame e line u
      have legs := applyLegs_eq g.legs s.begin
      rw [← hu] at legs
      rw [← hx] at frame
      conv_lhs => rw [frame, legs]
    dsimp only
    rw [← hline, ← hu, ← hx, rest]
    refine ⟨?_, ?_, ?_, fun o ho => ?_, ?_, ?_, rfl, rfl, rfl, fun a y ha hy stored room => ?_, fun no => ?_⟩
    · split <;> split <;> rfl
    · split <;> split <;> rfl
    · rw [← drawers]
      split <;> split <;> rfl
    · split <;> split <;> simp [rd_upd_ne _ _ ho]
    · split <;> split <;> simp
    · split <;> split <;> rfl
    · rw [postingLine_eq _ _ ha hy] at hline
      rw [hline] at hx
      rw [readdLine_kept stored (room.congr store)] at hx
      have lines (b : Account) : accountLines b u = accountLines b s := accountLines_congr b store
      rw [hx, ← lines]
      refine ⟨accountLines_kept (by split <;> split <;> rfl), fun b hb => ?_, rfl⟩
      rw [← lines]
      exact accountLines_kept_other (by split <;> split <;> rfl) hb
    · have same : x = (u, 0) := by
        rw [hx]
        refine readdLine_none (no.imp_right fun h => ?_)
        rw [hline]
        exact postingLine_none _ _ h
      rw [same]
      refine ⟨?_, rfl⟩
      rw [← store]
      split <;> split <;> rfl
  | bookLine b =>
    obtain ⟨x, hx⟩ : ∃ x, x = readdLine e (some (b.account, some b.bookType, bookLineOf e.seq b)) s.begin := ⟨_, rfl⟩
    have frame := readdLine_frame e (some (b.account, some b.bookType, bookLineOf e.seq b)) s.begin
    dsimp only
    rw [← hx] at frame ⊢
    rw [frame]
    refine ⟨rfl, rfl, ⟨rfl, rfl, rfl, rfl⟩, rfl, rfl, fun stored room => ?_, fun no => ?_⟩
    · have room : StoreHasRoom b.account s.begin := room
      rw [readdLine_kept stored room] at hx
      rw [hx]
      exact ⟨⟨accountLines_kept (u := s.begin) rfl, fun o ho => accountLines_kept_other (u := s.begin) rfl ho, rfl⟩,
        bookType_kept (u := s.begin) rfl rfl⟩
    · rw [readdLine_none (.inl no)] at hx
      rw [hx]
      exact ⟨rfl, rfl⟩
  | capture c =>
    have mark (m : Pos × List Pos) : markAfter r c = some m ↔ r.mark = some m ∧ c.leader = some m.1 := by simp [markAfter]
    have held : heldOff r c = true ↔ ∃ m, markAfter r c = some m ∧ c.pos ∈ m.2 := by
      simp [heldOff, mark, Option.any_eq_true, and_assoc]
    dsimp only
    refine ⟨rfl, rfl, ?_, fun i => ?_, fun o ho => rd_upd_ne _ _ ho, rfl, rfl, ?_, ⟨rfl, ?_⟩, mark, fun off => ?_, fun on => ?_⟩
    · simp
    · simp [DLine.clearMark]
    · split <;> rfl
    · split <;> rfl
    · rw [if_pos (held.2 off)]
      rfl
    · rw [if_neg (mt held.1 fun ⟨m, hm, off⟩ => on m hm off)]
      exact ⟨rd_wr_self .., fun o ho => rd_wr_ne _ _ ho⟩
  | declaration d =>
    dsimp only
    rw [applyLegs_eq]
    exact ⟨rfl, rfl, applyLegs_drawers_congr _ rfl, rfl, rfl, rfl, ⟨rfl, rfl⟩, ⟨rd_wr_self .., fun o ho => rd_wr_ne _ _ ho⟩, rfl⟩
  | abandoned p k n c => exact ⟨rfl, rfl, ⟨rfl, rfl, rfl, rfl⟩, ⟨rfl, rfl⟩, ⟨rd_wr_self .., fun o ho => rd_wr_ne _ _ ho⟩, rfl⟩
  | _ => exact ⟨rfl, rfl, ⟨rfl, rfl, rfl, rfl⟩, ⟨rfl, rfl⟩, rfl, rfl⟩

end Sys2Proof.Machine

namespace Sys2Proof.Machine

/-! ## Requests of several entries -/

section
variable {s t u v : State} {b : EntryBody} {as bs : List EntryBody} {xs ys : List Nat}

/-- The check after an append reads and leaves the line and the low-space flag by what the flag, the counts, the date and the
line are. -/
theorem lowSpaceCheck_congr (hl : u.line = v.line) (hj : u.jc.lowSpace = v.jc.lowSpace)
    (hf : slotsUsed u = slotsUsed v ∧ u.nv.control.fields.entryCount = v.nv.control.fields.entryCount ∧
      businessDate u = businessDate v) :
    (lowSpaceCheck u).line = (lowSpaceCheck v).line ∧ (lowSpaceCheck u).jc.lowSpace = (lowSpaceCheck v).jc.lowSpace := by
  obtain ⟨hs, hc, hd⟩ := hf
  rw [lowSpaceCheck_eq, lowSpaceCheck_eq, hs, hc, hd, hj]
  split
  · simp [report_eq, reportedOf, hl]
  · exact ⟨hl, hj⟩

/-- The check after one entry has joined the counts tells what an append tells (R48). -/
theorem lowSpaceCheck_lowSpace (hl : u.line = s.line) (hj : u.jc.lowSpace = s.jc.lowSpace)
    (hs : slotsUsed u = slotsUsed s + kindSlots b) (hc : u.nv.control.fields.entryCount = s.nv.control.fields.entryCount + 1)
    (hd : businessDate u = businessDate s) : LowSpaceTold [b] s (lowSpaceCheck u) := by
  obtain ⟨v, hv, vn, vl, vj⟩ : ∃ v, append b s = lowSpaceCheck v ∧ v.nv = (append b s).nv ∧ v.line = s.line ∧
      v.jc.lowSpace = s.jc.lowSpace := by
    refine ⟨_, rfl, by simp [append, appendWith], ?_, ?_⟩ <;> (dsimp only; split <;> rfl)
  have fields := append_fields b s
  rw [← vn] at fields
  obtain ⟨line, flag⟩ := lowSpaceCheck_congr (u := u) (v := v) (hl.trans vl.symm) (hj.trans vj.symm)
    ⟨by rw [hs]; unfold slotsUsed; rw [fields], by rw [hc, fields], by rw [hd]; unfold businessDate; rw [fields]⟩
  have told := append_lowSpace b s
  rw [hv] at told
  exact told.goesOn flag (by rw [line]) [] (by rw [line, List.append_nil]) fun _ _ _ => List.not_mem_nil

/-- Entries with these bodies, in this order, stand in the journal after those of s, of which the ones with these sequence
numbers that showed STORED show BACKLOGGED; nothing else of the journal memory's counts, the journal's marks and the line has
changed but the messages of R48. -/
structure Journaled (bs : List EntryBody) (seqs : List Nat) (s t : State) : Prop where
  bodies : (journal t).map (·.body) = (journal s).map (·.body) ++ bs
  fields : t.nv.control.fields = { s.nv.control.fields with
    slotsUsed := s.nv.control.fields.slotsUsed + (bs.map kindSlots).sum,
    entryCount := s.nv.control.fields.entryCount + bs.length }
  jc : t.jc = { s.jc with lowSpace := t.jc.lowSpace }
  low : LowSpaceTold bs s t
  marks : Backlogged seqs s t
  told : Told 0 s t

theorem LowSpaceTold.nil (hl : t.line = s.line) (hj : t.jc = s.jc) : LowSpaceTold [] s t := by
  refine ⟨by rw [hj]; simp, fun h => absurd rfl h.2.1, fun n c d r => ?_⟩
  unfold Reported at r
  rw [hl, List.drop_length] at r
  cases r

theorem Backlogged.of_entries (h : ∀ q e, entryAt q s = some e → entryAt q t = some e) : Backlogged [] s t :=
  fun q e he => by simpa using h q e he

theorem Backlogged.trans (h : Backlogged xs s t) (k : Backlogged ys t u) : Backlogged (xs ++ ys) s u := fun q e he => by
  rw [k q _ (h q e he)]
  by_cases stored : e.print = .stored
  · by_cases x : q ∈ xs <;> by_cases y : q ∈ ys <;> simp [stored, x, y]
  · simp [stored]

theorem Journaled.of_eq (hn : t.nv = s.nv) (hj : t.jc = s.jc) (hl : t.line = s.line) : Journaled [] [] s t where
  bodies := by simp [journal, hn]
  fields := by rw [hn]; rfl
  jc := by rw [hj]
  low := .nil hl hj
  marks := .of_entries fun q e he => by unfold entryAt journal at he ⊢; rwa [hn]
  told := .of_eq hl (by rw [hj])

theorem Journaled.trans (h : Journaled as xs s t) (k : Journaled bs ys t u) : Journaled (as ++ bs) (xs ++ ys) s u where
  bodies := by rw [k.bodies, h.bodies, List.append_assoc]
  fields := by rw [k.fields, h.fields]; simp [Nat.add_assoc]
  jc := by rw [k.jc, h.jc]
  low := h.low.trans k.low h.fields k.told.state h.told.grows k.told.grows
  marks := h.marks.trans k.marks
  told := h.told.trans k.told

/-! ### The journal after one entry -/

/-- An entry written after the counted ones, and counted, is the last of the journal (R41). -/
theorem journal_counted {e : Entry} (hn : t.nv.entries = journal s ++ [e])
    (hc : t.nv.control.fields.entryCount = s.nv.control.fields.entryCount + 1) : journal t = journal s ++ [e] := by
  unfold journal at hn ⊢
  rw [hc, hn]
  refine List.take_of_length_le ?_
  simp

theorem entryAt_journal {js : List Entry} (h : journal t = journal s ++ js) (q : Nat) (e : Entry)
    (he : entryAt q s = some e) : entryAt q t = some e := by
  unfold entryAt at he ⊢
  split at he
  · cases he
  · next ne =>
    rw [if_neg ne, h, List.getElem?_append_left, he]
    exact (List.getElem?_eq_some_iff.1 he).1

theorem append_journaled (hb : firstForward b ≠ .pending) (s : State) : Journaled [b] [] s (append b s) where
  bodies := by
    rw [journal_counted (append_entries b s) (by rw [append_fields])]
    simp [makeEntry]
  fields := by rw [append_fields]; simp
  jc := by simpa [hb] using append_jc b s
  low := append_lowSpace b s
  marks := .of_entries (entryAt_journal (journal_counted (append_entries b s) (by rw [append_fields])))
  told := append_told b s

theorem appendAll_journaled (hb : ∀ b ∈ bs, firstForward b ≠ .pending) (s : State) : Journaled bs [] s (appendAll bs s) := by
  induction bs generalizing s with
  | nil => exact .of_eq rfl rfl rfl
  | cons b bs ih =>
    exact (append_journaled (hb b (List.mem_cons_self ..)) s).trans
      (ih (fun c hc => hb c (List.mem_cons_of_mem _ hc)) _)

/-! ### A BACKLOG entry -/

/-- Entries marked BACKLOGGED at some places: an entry there that showed STORED shows BACKLOGGED (R49). -/
theorem getElem?_backlogged (is : List Nat) (es : List Entry) (j : Nat) :
    (is.foldl (fun es i => es.modify i Entry.backlog) es)[j]? = (es[j]?).map fun e => if j ∈ is then e.backlog else e := by
  have twice (e : Entry) : e.backlog.backlog = e.backlog := by
    unfold Entry.backlog
    by_cases h : e.print = .stored <;> simp [h]
  induction is generalizing es with
  | nil => simp
  | cons i is ih =>
    rw [List.foldl_cons, ih, List.getElem?_modify]
    by_cases ij : i = j
    · subst ij
      by_cases later : i ∈ is <;> cases es[i]? <;> simp [later, twice]
    · have : ¬j = i := fun h => ij h.symm
      simp [ij, this]

theorem backlogged_bodies (is : List Nat) (es : List Entry) :
    (is.foldl (fun es i => es.modify i Entry.backlog) es).map (·.body) = es.map (·.body) := by
  have body (e : Entry) : e.backlog.body = e.body := by
    unfold Entry.backlog
    split <;> rfl
  refine List.ext_getElem? fun j => ?_
  rw [List.getElem?_map, List.getElem?_map, getElem?_backlogged, Option.map_map]
  refine congrArg (fun f => Option.map f es[j]?) (funext fun e => ?_)
  show (if j ∈ is then e.backlog else e).body = e.body
  split
  · exact body e
  · rfl

/-- The entries and the counts an appended BACKLOG entry leaves (R67). -/
theorem appendBacklog_nv (s : State) (b : Account × List Nat) :
    (appendBacklog s b).nv.entries =
      ((b.2.filter fun q => 1 ≤ q && q ≤ s.nv.control.fields.entryCount).map fun q => q - 1).foldl
        (fun es i => es.modify i Entry.backlog) (journal s ++ [makeEntry (.backlog b.1 b.2) s]) ∧
    (appendBacklog s b).nv.control.fields = { s.nv.control.fields with
      slotsUsed := s.nv.control.fields.slotsUsed + 1, entryCount := s.nv.control.fields.entryCount + 1 } := by
  unfold appendBacklog
  dsimp only
  simp only [lowSpaceCheck_frame]
  exact ⟨rfl, rfl⟩

theorem appendBacklog_told (s : State) (b : Account × List Nat) : Told 0 s (appendBacklog s b) := by
  unfold appendBacklog
  dsimp only
  exact Told.trans (j := 0) (.of_eq (by rfl) (by rfl)) (lowSpaceCheck_told _)

theorem appendBacklog_journal (s : State) (b : Account × List Nat) : journal (appendBacklog s b) =
    (appendBacklog s b).nv.entries := by
  obtain ⟨entries, fields⟩ := appendBacklog_nv s b
  have length (is : List Nat) (es : List Entry) : (is.foldl (fun es i => es.modify i Entry.backlog) es).length = es.length := by
    simpa using congrArg List.length (backlogged_bodies is es)
  unfold journal
  rw [fields]
  refine List.take_of_length_le ?_
  rw [entries, length]
  simp [journal]

theorem appendBacklog_journaled (s : State) (b : Account × List Nat) :
    Journaled [.backlog b.1 b.2] b.2 s (appendBacklog s b) := by
  obtain ⟨entries, fields⟩ := appendBacklog_nv s b
  refine ⟨?_, ?_, ?_, ?_, fun q e he => ?_, appendBacklog_told s b⟩
  · rw [appendBacklog_journal, entries, backlogged_bodies]
    simp [makeEntry]
  · rw [fields]; rfl
  · unfold appendBacklog
    dsimp only
    rw [lowSpaceCheck_jc]
    rfl
  · exact lowSpaceCheck_lowSpace rfl rfl rfl rfl rfl
  · unfold entryAt at he ⊢
    split at he
    · cases he
    next ne =>
    have lt := (List.getElem?_eq_some_iff.1 he).1
    have most : (journal s).length ≤ s.nv.control.fields.entryCount := by simp [journal]
    have known : q - 1 ∈ ((b.2.filter fun q => 1 ≤ q && q ≤ s.nv.control.fields.entryCount).map fun q => q - 1) ↔ q ∈ b.2 := by
      simp only [List.mem_map, List.mem_filter, Bool.and_eq_true, decide_eq_true_eq]
      constructor
      · rintro ⟨a, ⟨mem, ge, -⟩, eq⟩
        rwa [show a = q by omega] at mem
      · exact fun mem => ⟨q, ⟨mem, by omega, by omega⟩, rfl⟩
    rw [if_neg ne, appendBacklog_journal, entries, getElem?_backlogged, List.getElem?_append_left lt, he]
    simp only [Option.map_some, known]
    by_cases mem : q ∈ b.2
    · simp [mem, Entry.backlog]
    · simp [mem]

/-- The BACKLOG entries of a request, one after the other (R67). -/
theorem appendBacklogs_journaled (bs : List (Account × List Nat)) (s : State) :
    Journaled (bs.map fun b => .backlog b.1 b.2) (bs.flatMap (·.2)) s (bs.foldl appendBacklog s) := by
  induction bs generalizing s with
  | nil => exact .of_eq rfl rfl rfl
  | cons b bs ih => exact (appendBacklog_journaled s b).trans (ih _)

/-! ### The pending midnight, and the CLOSE entry -/

/-- The MIDNIGHT entry a closing-class request places when it fits (R47). -/
def closingMidnight (s : State) : List EntryBody := if slotsUsed s + 1 ≤ 16256 then midnightBodies s else []

theorem closingMidnight_eq (s : State) : closingMidnight s =
    if midnightAhead .closing s then [.midnight s.clock.midnights] else [] := by
  have limit : Config.controlLimit = 16256 := rfl
  unfold closingMidnight midnightBodies midnightAhead
  by_cases m : 0 < s.clock.midnights <;> by_cases room : slotsUsed s + 1 ≤ 16256 <;> simp [m, room, limit]

theorem placeMidnight_closing (s : State) : Journaled (closingMidnight s) [] s (placeMidnight .closing s) ∧
    (placeMidnight .closing s).clock =
      { s.clock with midnights := if closingMidnight s = [] then s.clock.midnights else 0 } := by
  rw [placeMidnight_eq, closingMidnight_eq]
  split
  · exact ⟨(append_journaled (by simp [firstForward]) s).trans (.of_eq rfl rfl rfl), by simp⟩
  · exact ⟨.of_eq rfl rfl rfl, by simp⟩

/-- The control record's fields with a forced CLOSE entry counted (R69). -/
def forcedFields (s : State) : ControlFields :=
  { s.nv.control.fields with
    day := some .closed, undelivered := true, slotsUsed := slotsUsed s + 1,
    entryCount := s.nv.control.fields.entryCount + 1 }

/-- The forced CLOSE: its entry, the counts with it, the day recorded CLOSED-undelivered (R43, R69). -/
theorem appendClose_forced (s : State) : let t := appendClose true .closed s
    let b := EntryBody.close true (slotsUsed s + 1) (s.nv.control.fields.entryCount + 1)
    t.nv.entries.map (·.body) = (journal s).map (·.body) ++ [b] ∧ Backlogged [] s t ∧ LowSpaceTold [b] s t ∧
    t.nv.control.fields = forcedFields s ∧ t.jc = { s.jc with lowSpace := t.jc.lowSpace } ∧ Told 0 s t := by
  obtain ⟨b, hb⟩ : ∃ b, b = EntryBody.close true (slotsUsed s + 1) (s.nv.control.fields.entryCount + 1) := ⟨_, rfl⟩
  obtain ⟨u, hu, entries, fields, line, jc⟩ : ∃ u, appendClose true .closed s = lowSpaceCheck u ∧
      u.nv.entries = journal s ++ [makeEntry b s] ∧ u.nv.control.fields = forcedFields s ∧ u.line = s.line ∧
      u.jc = s.jc := by
    refine ⟨_, rfl, by rw [hb]; rfl, ?_, rfl, rfl⟩
    simp [forcedFields, nvWrite, writeControl, JournalMem.write, makeEntry, kindSlots, firstForward, slotsUsed]
  have nv : (lowSpaceCheck u).nv = u.nv := by simp
  have slots : kindSlots b = 1 := by rw [hb]; rfl
  have told : Told 0 s u := .of_eq line (by rw [jc])
  dsimp only
  rw [hu, ← hb]
  refine ⟨?_, .of_entries (entryAt_journal (journal_counted (e := makeEntry b s) ?_ ?_)), lowSpaceCheck_lowSpace line (by rw [jc]) ?_ ?_ ?_, ?_, ?_,
    told.trans (lowSpaceCheck_told u)⟩
  · rw [nv, entries]
    simp [makeEntry]
  · rw [nv, entries]
  · rw [nv, fields]
    rfl
  · unfold slotsUsed
    rw [fields, slots]
    rfl
  · rw [fields]
    rfl
  · unfold businessDate
    rw [fields]
    rfl
  · rw [nv, fields]
  · rw [lowSpaceCheck_jc, jc]

/-! ### The request of a FORCE CLOSE -/

/-- Whether the whole request of a FORCE CLOSE fits, with a MIDNIGHT ahead of it where it has a place (R69, R70). -/
def ForcedFits (ab : List EntryBody) (s : State) : Prop :=
  slotsUsed s + (closingMidnight s).length + ab.length + (backlogs s).length + 1 ≤ 16384

/-- The BACKLOG entries of a FORCE CLOSE: every one, or none without room for the whole request (R70). -/
def forcedBacklogs (ab : List EntryBody) (s : State) : List (Account × List Nat) :=
  if slotsUsed s + (closingMidnight s).length + ab.length + (backlogs s).length + 1 ≤ 16384 then backlogs s else []

theorem forcedBacklogs_fits {ab : List EntryBody} (h : ForcedFits ab s) : forcedBacklogs ab s = backlogs s := if_pos h

theorem forcedBacklogs_full {ab : List EntryBody} (h : ¬ForcedFits ab s) : forcedBacklogs ab s = [] := if_neg h

/-- The entries of a FORCE CLOSE before its CLOSE (R69). -/
def forcedBodies (ab : List EntryBody) (s : State) : List EntryBody :=
  closingMidnight s ++ ab ++ (forcedBacklogs ab s).map fun b => .backlog b.1 b.2

theorem fits_closing_iff (ab : List EntryBody) (s : State) :
    fits .closing (ab.length + (backlogs s).length + 1) s = true ↔ ForcedFits ab s := by
  have limit : CapClass.limit .closing = 16384 := rfl
  have mid : (closingMidnight s).length = if midnightAhead .closing s then 1 else 0 := by
    rw [closingMidnight_eq]
    split <;> rfl
  unfold fits ForcedFits
  rw [decide_eq_true_eq, limit, mid]
  omega

theorem forceCloseEntries_eq (ab : List EntryBody) (s : State) : forceCloseEntries ab s =
    (appendClose true .closed ((forcedBacklogs ab s).foldl appendBacklog (appendAll ab (placeMidnight .closing s))),
      if fits .closing (ab.length + (backlogs s).length + 1) s then 0 else storedLines s) := by
  unfold forceCloseEntries
  dsimp only
  by_cases h : ForcedFits ab s
  · rw [if_pos ((fits_closing_iff ab s).2 h), forcedBacklogs_fits h]
  · rw [if_neg (mt (fits_closing_iff ab s).1 h), forcedBacklogs_full h]
    rfl

/-- Bodies of one slot each (R42). -/
theorem sum_kindSlots (h : ∀ b ∈ bs, kindSlots b = 1) : (bs.map kindSlots).sum = bs.length := by
  rw [List.map_congr_left (g := fun _ => 1) h]
  simp

/-- What a FORCE CLOSE in a trading day journals (R69, R70). -/
theorem forceCloseEntries_spec {ab : List EntryBody} (hab : ∀ b ∈ ab, firstForward b ≠ .pending ∧ kindSlots b = 1) (s : State) :
    let x := forceCloseEntries ab s
    let close := slotsUsed s + (forcedBodies ab s).length + 1
    let count := s.nv.control.fields.entryCount + (forcedBodies ab s).length + 1
    x.1.nv.entries.map (·.body) = (journal s).map (·.body) ++ forcedBodies ab s ++ [.close true close count] ∧
    Backlogged ((forcedBacklogs ab s).flatMap (·.2)) s x.1 ∧
    LowSpaceTold (forcedBodies ab s ++ [.close true close count]) s x.1 ∧
    x.1.nv.control.fields = { s.nv.control.fields with
      day := some .closed, undelivered := true, slotsUsed := close, entryCount := count } ∧
    x.1.jc = { s.jc with lowSpace := x.1.jc.lowSpace } ∧ Told 0 s x.1 ∧
    x.1.clock = { s.clock with midnights := if closingMidnight s = [] then s.clock.midnights else 0 } ∧
    (ForcedFits ab s → x.2 = 0) ∧ (¬ForcedFits ab s → x.2 = storedLines s) := by
  obtain ⟨midnight, clock⟩ := placeMidnight_closing s
  obtain ⟨a, ha⟩ : ∃ a, a = appendAll ab (placeMidnight .closing s) := ⟨_, rfl⟩
  obtain ⟨u, hu⟩ : ∃ u, u = (forcedBacklogs ab s).foldl appendBacklog a := ⟨_, rfl⟩
  have journaled : Journaled (forcedBodies ab s) ((forcedBacklogs ab s).flatMap (·.2)) s u := by
    have first := midnight.trans (appendAll_journaled (fun b hb => (hab b hb).1) (placeMidnight .closing s))
    rw [← ha] at first
    exact hu ▸ first.trans (appendBacklogs_journaled (forcedBacklogs ab s) a)
  have slots : ((forcedBodies ab s).map kindSlots).sum = (forcedBodies ab s).length := sum_kindSlots fun b hb => by
    rcases List.mem_append.1 hb with hb | hb
    · rcases List.mem_append.1 hb with hb | hb
      · rw [closingMidnight_eq] at hb
        split at hb
        · rw [List.mem_singleton.1 hb]; rfl
        · cases hb
      · exact (hab b hb).2
    · obtain ⟨x, -, rfl⟩ := List.mem_map.1 hb
      rfl
  have fields := journaled.fields
  rw [slots] at fields
  obtain ⟨entries, marks, low, closed, jc, told⟩ := appendClose_forced u
  have used : slotsUsed u = slotsUsed s + (forcedBodies ab s).length := by unfold slotsUsed; rw [fields]
  have counted : u.nv.control.fields.entryCount = s.nv.control.fields.entryCount + (forcedBodies ab s).length := by rw [fields]
  rw [used, counted] at entries low
  dsimp only
  rw [forceCloseEntries_eq, ← ha, ← hu]
  refine ⟨?_, ?_, journaled.low.trans low journaled.fields told.state journaled.told.grows told.grows, ?_, ?_,
    journaled.told.trans told, ?_, fun fit => if_pos ((fits_closing_iff ab s).2 fit),
    fun full => if_neg (mt (fits_closing_iff ab s).1 full)⟩
  · rw [entries, journaled.bodies]
  · simpa using journaled.marks.trans marks
  · rw [closed]
    unfold forcedFields
    rw [used, counted, fields]
  · rw [jc, journaled.jc]
  · have backlog : u.clock = a.clock := hu ▸ foldl_keeps State.clock appendBacklog (by intros; simp) _ _
    simp only [appendClose_frame]
    rw [backlog, ha]
    simpa using clock

end

end Sys2Proof.Machine

namespace Sys2Proof.Machine

/-! ## Every position signed off -/

/-- A position signed off, unless it is (R69). -/
def signOffOne (p : Pos) (s : State) : State := if (rd s.posns p).state = .signedOff then s else signOffPos p s

/-- The positions of a list signed off, one after the other (R69). -/
def signOffEach (l : List Pos) (s : State) : State := l.foldl (fun s p => signOffOne p s) s

section
variable {p q : Pos} {l : List Pos} {s : State}

theorem signOffEach_cons (p : Pos) (l : List Pos) (s : State) : signOffEach (p :: l) s = signOffEach l (signOffOne p s) := rfl

theorem signOffAll_eq (s : State) : signOffAll s =
    { signOffEach allPos s with groups := Vector.replicate 16 none } := rfl

theorem signOffOne_others (p : Pos) (s : State) : OthersKept p s (signOffOne p s) := by
  unfold signOffOne
  split
  · exact .rfl p s
  · exact signOffPos_others p s

theorem signOffOne_tables (p : Pos) (s : State) : (signOffOne p s).tables = s.tables := by
  unfold signOffOne
  split <;> simp

theorem signOffEach_others (h : q ∉ l) : rd (signOffEach l s).posns q = rd s.posns q ∧
    rd (signOffEach l s).keys q = rd s.keys q ∧ rd (signOffEach l s).screens q = rd s.screens q ∧
    rd (signOffEach l s).drawers q = rd s.drawers q := by
  induction l generalizing s with
  | nil => exact ⟨rfl, rfl, rfl, rfl⟩
  | cons p l ih =>
    rw [List.mem_cons, not_or] at h
    obtain ⟨posns, keys, screens, drawers⟩ := signOffOne_others p s q h.1
    rw [signOffEach_cons, ← posns, ← keys, ← screens, ← drawers]
    exact ih h.2

/-- Each position of the list is signed off, or was. -/
theorem signOffEach_mem (hn : l.Nodup) (h : q ∈ l) :
    ((rd s.posns q).state ≠ .signedOff → SignedOff q s (signOffEach l s)) ∧
    ((rd s.posns q).state = .signedOff → rd (signOffEach l s).posns q = rd s.posns q ∧
      rd (signOffEach l s).keys q = rd s.keys q ∧ rd (signOffEach l s).drawers q = rd s.drawers q) := by
  induction l generalizing s with
  | nil => cases h
  | cons p l ih =>
    rw [List.nodup_cons] at hn
    rw [signOffEach_cons]
    by_cases e : q = p
    · subst e
      obtain ⟨posns, keys, screens, drawers⟩ := signOffEach_others (s := signOffOne q s) hn.1
      unfold SignedOff
      rw [posns, keys, screens, drawers]
      unfold signOffOne
      exact ⟨fun on => by rw [if_neg on]; exact signOffPos_signedOff q s, fun off => by rw [if_pos off]; exact ⟨rfl, rfl, rfl⟩⟩
    · obtain ⟨posns, keys, screens, drawers⟩ := signOffOne_others p s q e
      have := ih (s := signOffOne p s) hn.2 ((List.mem_cons.1 h).resolve_left e)
      unfold SignedOff at this ⊢
      rwa [posns, keys, drawers, shownForm_congr (signOffOne_tables p s)] at this

/-- What a FORCE CLOSE leaves of the positions (R69). -/
theorem signOffAll_spec (s : State) (p : Pos) : let t := signOffAll s
    ((rd s.posns p).state ≠ .signedOff → SignedOff p s t) ∧
    ((rd s.posns p).state = .signedOff → rd t.posns p = rd s.posns p ∧ rd t.keys p = rd s.keys p ∧
      rd t.drawers p = rd s.drawers p) ∧ rd t.groups p = none := by
  obtain ⟨on, off⟩ := signOffEach_mem (s := s) (l := allPos) (List.nodup_finRange 16) (List.mem_finRange p)
  rw [signOffAll_eq]
  generalize signOffEach allPos s = t at *
  exact ⟨on, off, by simp⟩

/-- Signing off leaves every drawer's lines and capture number (R86). -/
theorem signOffAll_lines (s : State) (p : Pos) : (rd (signOffAll s).drawers p).lines = (rd s.drawers p).lines ∧
    (rd (signOffAll s).drawers p).captureNo = (rd s.drawers p).captureNo := by
  obtain ⟨on, off, -⟩ := signOffAll_spec s p
  by_cases h : (rd s.posns p).state = .signedOff
  · obtain ⟨-, -, drawer⟩ := off h
    rw [drawer]
    exact ⟨rfl, rfl⟩
  · obtain ⟨-, drawer, -⟩ := on h
    rw [drawer]
    exact ⟨rfl, rfl⟩

end

/-! ## Every job removed -/

/-- What the removal of all jobs does at one printer (R132). -/
def clearPrinter (n : Prn) (s : State) : State :=
  if (rd s.queues n).isEmpty then s else (headTaken n s).updPrinter n fun r => { r with job := JobRec.initial }

/-- An account record with its job mark clear. -/
def AccountRec.clearJob (r : AccountRec) : AccountRec := { r with jobMark := false }

/-- The jobs' printers told of their removal, printer by printer. -/
def clearPrinters (l : List Prn) (s : State) : State := l.foldl (fun s n => clearPrinter n s) s

theorem removeAllJobs_eq (s : State) : removeAllJobs s = dropEmpty { clearPrinters allPrn s with
    queues := Vector.replicate 4 [], store := (clearPrinters allPrn s).store.map AccountRec.clearJob } := rfl

section
variable {m n : Prn} {l : List Prn} {s : State}

@[simp] theorem clearPrinter_frame (n : Prn) (s : State) :
    (clearPrinter n s).queues = s.queues ∧ (clearPrinter n s).store = s.store := by
  unfold clearPrinter
  split <;> simp

@[simp] theorem clearPrinters_frame (l : List Prn) (s : State) :
    (clearPrinters l s).queues = s.queues ∧ (clearPrinters l s).store = s.store := by
  simpa [clearPrinters] using foldl_keeps (fun x : State => (x.queues, x.store)) (fun s n => clearPrinter n s)
    (by intros; simp) l s

theorem clearPrinters_cons (n : Prn) (l : List Prn) (s : State) :
    clearPrinters (n :: l) s = clearPrinters l (clearPrinter n s) := rfl

theorem headTaken_others (h : m ≠ n) : rd (headTaken n s).printers m = rd s.printers m := by
  unfold headTaken eject
  split <;> simp [rd_upd_ne _ _ h]

theorem headTaken_form (n : Prn) (s : State) (p : Pos) : (rd (headTaken n s).screens p).form = (rd s.screens p).form := by
  have drop (sc : Screen) : (sc.dropPrompt n).form = sc.form := by
    unfold Screen.dropPrompt
    split <;> simp
  unfold headTaken
  split <;> simp [drop]

/-- A printer that holds a book ejects it for no job when its head job is removed (R148). -/
theorem headTaken_holds (h : (rd s.printers n).holds = true) :
    (rd (headTaken n s).printers n).state = .ejecting ∧ (rd (headTaken n s).printers n).ejectJob = false := by
  unfold Printer.holds at h
  unfold headTaken eject
  cases state : (rd s.printers n).state <;> rw [state] at h <;> simp_all

theorem clearPrinter_others (h : m ≠ n) : rd (clearPrinter n s).printers m = rd s.printers m := by
  unfold clearPrinter
  split
  · rfl
  · simp [rd_upd_ne _ _ h, headTaken_others h]

theorem clearPrinter_form (n : Prn) (s : State) (p : Pos) : (rd (clearPrinter n s).screens p).form = (rd s.screens p).form := by
  unfold clearPrinter
  split
  · rfl
  · simp [headTaken_form]

theorem clearPrinters_others (h : m ∉ l) : rd (clearPrinters l s).printers m = rd s.printers m := by
  induction l generalizing s with
  | nil => rfl
  | cons n l ih =>
    rw [List.mem_cons, not_or] at h
    rw [clearPrinters_cons, ih h.2, clearPrinter_others h.1]

theorem clearPrinters_form (l : List Prn) (s : State) (p : Pos) :
    (rd (clearPrinters l s).screens p).form = (rd s.screens p).form := by
  induction l generalizing s with
  | nil => rfl
  | cons n l ih => rw [clearPrinters_cons, ih, clearPrinter_form]

theorem clearPrinters_holds (hn : l.Nodup) (hm : m ∈ l) (hq : rd s.queues m ≠ []) (hh : (rd s.printers m).holds = true) :
    (rd (clearPrinters l s).printers m).state = .ejecting ∧ (rd (clearPrinters l s).printers m).ejectJob = false := by
  induction l generalizing s with
  | nil => cases hm
  | cons n l ih =>
    rw [List.nodup_cons] at hn
    rw [clearPrinters_cons]
    by_cases e : m = n
    · subst e
      rw [clearPrinters_others hn.1]
      unfold clearPrinter
      rw [if_neg (by simpa using hq)]
      simpa using headTaken_holds hh
    · exact ih hn.2 ((List.mem_cons.1 hm).resolve_left e) (by simpa using hq) (by rwa [clearPrinter_others e])

/-- What the removal of all jobs leaves of queues, printers and screens (R132, R148). -/
theorem removeAllJobs_spec (s : State) : let t := removeAllJobs s
    (∀ n, rd t.queues n = []) ∧
    (∀ n, rd s.queues n ≠ [] → (rd s.printers n).holds = true →
      (rd t.printers n).state = .ejecting ∧ (rd t.printers n).ejectJob = false) ∧
    ∀ p, (rd t.screens p).form = (rd s.screens p).form := by
  have holds := fun n => clearPrinters_holds (s := s) (l := allPrn) (m := n) (List.nodup_finRange 4) (List.mem_finRange n)
  have form := clearPrinters_form allPrn s
  rw [removeAllJobs_eq]
  generalize clearPrinters allPrn s = t at *
  exact ⟨fun n => by simp [dropEmpty], holds, form⟩

/-! ### The store without jobs -/

theorem removeAllJobs_store (s : State) : (removeAllJobs s).store =
    (s.store.filter fun r => !r.lines.isEmpty).map AccountRec.clearJob := by
  rw [removeAllJobs_eq]
  simp [dropEmpty, List.filter_map, Function.comp_def, AccountRec.clearJob]

theorem removeAllJobs_storedLines (s : State) : storedLines (removeAllJobs s) = storedLines s := by
  unfold storedLines
  rw [removeAllJobs_store, List.map_map]
  induction s.store with
  | nil => rfl
  | cons r rs ih =>
    cases h : r.lines.isEmpty
    · rw [List.filter_cons_of_pos (by simp [h]), List.map_cons, List.sum_cons, ih]
      rfl
    · rw [List.filter_cons_of_neg (by simp [h]), ih, List.map_cons, List.sum_cons, List.isEmpty_iff.1 h]
      simp

theorem insertByHead_clearJob (r : AccountRec) (rs : List AccountRec) :
    insertByHead r.clearJob (rs.map AccountRec.clearJob) = (insertByHead r rs).map AccountRec.clearJob := by
  induction rs with
  | nil => rfl
  | cons x xs ih =>
    rw [List.map_cons, insertByHead, insertByHead]
    have head (r : AccountRec) : r.clearJob.lines = r.lines := rfl
    rw [head, head]
    split
    · rfl
    · rw [ih]
      rfl

/-- The backlog of the store is that of its accounts with lines, whatever their job marks (R67). -/
theorem backlogs_removeAllJobs (s : State) : backlogs (removeAllJobs s) = backlogs s := by
  have order (rs acc : List AccountRec) : (rs.map AccountRec.clearJob).foldl (fun acc r => insertByHead r acc)
      (acc.map AccountRec.clearJob) = (rs.foldl (fun acc r => insertByHead r acc) acc).map AccountRec.clearJob := by
    induction rs generalizing acc with
    | nil => rfl
    | cons r rs ih => rw [List.map_cons, List.foldl_cons, insertByHead_clearJob, ih, List.foldl_cons]
  have sorted : backlogOrder (removeAllJobs s) = (backlogOrder s).map AccountRec.clearJob := by
    unfold backlogOrder
    rw [removeAllJobs_store, List.filter_map]
    have kept : (s.store.filter fun r => !r.lines.isEmpty).filter ((fun r => !r.lines.isEmpty) ∘ AccountRec.clearJob) =
        s.store.filter fun r => !r.lines.isEmpty := by
      rw [List.filter_filter]
      simp [AccountRec.clearJob]
    rw [kept]
    exact order _ []
  unfold backlogs
  rw [sorted, List.flatMap_map]
  rfl

end

end Sys2Proof.Machine

namespace Sys2Proof.Machine

/-! ## FORCE CLOSE -/

section
variable {h : Hdr} {rb : Option RetainedRec} {s : State}

/-- The state of a FORCE CLOSE with the alarm disarmed, every position signed off and every job removed (R69). -/
def forceCleared (s : State) : State := removeAllJobs (signOffAll (s.updDay fun d => { d with alarm := none }))

/-- The alarm disarmed (R69). -/
def disarmed (s : State) : State := s.updDay fun d => { d with alarm := none }

/-- What a FORCE CLOSE then writes to the journal memory, with the number of lines left (R69, R70). -/
def forceJournaled (s : State) : State × Nat :=
  if (forceCleared s).day.state = .closing then
    (writeControl (fun c => { c with day := some .closed, undelivered := true }) (forceCleared s), 0)
  else forceCloseEntries (abandonEntries (disarmed s)) (forceCleared s)

/-- The state in which the retained store is written, last of all but the day state (R69). -/
def forceRetained (rb : Option RetainedRec) (s : State) : State :=
  writeRetained .forceClose rb (abandonBatch { (forceJournaled s).1 with store := [] })

theorem forceCloseEvent_eq (rb : Option RetainedRec) (s : State) : forceCloseEvent rb s =
    (setDay (.closed true) (forceRetained rb s), (forceJournaled s).2) := by
  unfold forceCloseEvent
  extract_lets a ab b r c e d
  have hab : ab = abandonEntries (disarmed s) := rfl
  have hb : b = forceCleared s := rfl
  have hr : r = forceJournaled s := by
    unfold forceJournaled
    rw [← hb, ← hab]
  have hd : d = forceRetained rb s := by
    unfold forceRetained
    rw [← hr]
  rw [hd, hr]

theorem isClosed_arrived (s : State) : isClosed (arrived s) = isClosed s := by simp [isClosed]

theorem isClosed_iff (s : State) : isClosed s = true ↔ ∃ u, s.day.state = .closed u := by
  unfold isClosed
  cases s.day.state <;> simp

theorem exec_forceClose {z : State} {left : Nat} (ht : Takes s) (hd : ∀ u, s.day.state ≠ .closed u)
    (hz : forceCloseEvent rb (arrived s) = (z, left)) : exec (.forceClose h rb) s =
      .next (report 255 (.dayClosed (businessDate z) false true (some left)) (answered h .accepted .none z)) := by
  have open_ : ¬isClosed (arrived s) = true := by
    rw [isClosed_arrived, isClosed_iff]
    exact fun ⟨u, e⟩ => hd u e
  refine ((show exec (.forceClose h rb) s = execForceClose h rb s from rfl).trans (message_eq h _ ht)).trans
    (congrArg _ ((if_neg open_).trans ?_))
  rw [hz, ← reply_eq]
  rfl

theorem exec_forceClose_closed (rb : Option RetainedRec) (ht : Takes s) (hd : ∃ u, s.day.state = .closed u) :
    exec (.forceClose h rb) s = .next (answered h .dayState .none (arrived s)) := by
  have closed : isClosed (arrived s) = true := by
    rw [isClosed_arrived, isClosed_iff]
    exact hd
  exact ((show exec (.forceClose h rb) s = execForceClose h rb s from rfl).trans (message_eq h _ ht)).trans
    (congrArg _ ((if_pos closed).trans (reply_eq ..)))

/-! ### What it clears -/

@[simp] theorem forceCleared_frame (s : State) :
    (forceCleared s).line = s.line ∧ (forceCleared s).tables = s.tables ∧ (forceCleared s).nv = s.nv ∧
    (forceCleared s).jc = s.jc ∧ (forceCleared s).day = { s.day with alarm := none } ∧ (forceCleared s).clock = s.clock ∧
    (forceCleared s).engine = s.engine ∧ (forceCleared s).powered = s.powered ∧ (forceCleared s).freeUsed = s.freeUsed ∧
    (forceCleared s).pending = s.pending := by
  simp [forceCleared]

/-- What a FORCE CLOSE leaves of positions, drawers, groups, queues and printers (R36, R69, R132). -/
theorem forceCleared_spec (s : State) : let t := forceCleared s
    (∀ p, (rd s.posns p).state ≠ .signedOff →
      rd t.posns p = { leftFor .signedOff (rd s.posns p) with teller := none } ∧ (rd t.drawers p).ctx = none ∧
      (rd t.keys p).queue = [] ∧ (rd t.screens p).form = shownForm s 0) ∧
    (∀ p, (rd s.posns p).state = .signedOff → rd t.posns p = rd s.posns p ∧ rd t.keys p = rd s.keys p) ∧
    (∀ p, (rd t.drawers p).lines = (rd s.drawers p).lines ∧ (rd t.drawers p).captureNo = (rd s.drawers p).captureNo) ∧
    (∀ p, rd t.groups p = none) ∧ (∀ n, rd t.queues n = []) ∧
    (∀ n, rd s.queues n ≠ [] → (rd s.printers n).holds = true →
      (rd t.printers n).state = .ejecting ∧ (rd t.printers n).ejectJob = false) ∧
    backlogs t = backlogs s ∧ storedLines t = storedLines s := by
  obtain ⟨u, hu⟩ : ∃ u, u = s.updDay fun d => { d with alarm := none } := ⟨_, rfl⟩
  have posns : u.posns = s.posns := by simp [hu]
  have keys : u.keys = s.keys := by simp [hu]
  have drawers : u.drawers = s.drawers := by simp [hu]
  have store : (signOffAll u).store = s.store := by simp [hu]
  have queues : (signOffAll u).queues = s.queues := by simp [hu]
  have printers : (signOffAll u).printers = s.printers := by simp [hu]
  have off := signOffAll_spec u
  have lines := signOffAll_lines u
  have backlog := backlogs_removeAllJobs (signOffAll u)
  have stored := removeAllJobs_storedLines (signOffAll u)
  obtain ⟨jobs, holds, form⟩ := removeAllJobs_spec (signOffAll u)
  have frame := removeAllJobs_frame (signOffAll u)
  have run : forceCleared s = removeAllJobs (signOffAll u) := by rw [hu]; rfl
  dsimp only at *
  rw [run]
  generalize removeAllJobs (signOffAll u) = t at *
  generalize signOffAll u = v at *
  rw [posns, keys, drawers] at off
  rw [drawers] at lines
  rw [queues, printers] at holds
  obtain ⟨-, -, posnsT, keysT, drawersT, groupsT, -⟩ := frame
  have shown : shownForm u = shownForm s := shownForm_congr (by simp [hu])
  refine ⟨fun p on => ?_, fun p was => ?_, fun p => by rw [drawersT]; exact lines p, fun p => ?_, jobs, holds, ?_, ?_⟩
  · obtain ⟨signed, -⟩ := off p
    obtain ⟨pos, drawer, queue, -, form0, -⟩ := signed on
    rw [posns] at pos
    exact ⟨by rw [posnsT, pos], by rw [drawersT, drawer], by rw [keysT, queue], by rw [form, form0, shown]⟩
  · obtain ⟨-, kept, -⟩ := off p
    obtain ⟨pos, key, -⟩ := kept was
    exact ⟨by rw [posnsT, pos], by rw [keysT, key]⟩
  · obtain ⟨-, -, group⟩ := off p
    rw [groupsT, group]
  · rw [backlog]
    simp only [backlogs, backlogOrder, store]
  · rw [stored]
    simp only [storedLines, store]

/-! ### What it journals -/

@[simp] theorem forceCloseEntries_frame (ab : List EntryBody) (s : State) :
    (forceCloseEntries ab s).1.tables = s.tables ∧ (forceCloseEntries ab s).1.posns = s.posns ∧
    (forceCloseEntries ab s).1.screens = s.screens ∧ (forceCloseEntries ab s).1.keys = s.keys ∧
    (forceCloseEntries ab s).1.drawers = s.drawers ∧ (forceCloseEntries ab s).1.groups = s.groups ∧
    (forceCloseEntries ab s).1.day = s.day ∧ (forceCloseEntries ab s).1.queues = s.queues ∧
    (forceCloseEntries ab s).1.printers = s.printers ∧ (forceCloseEntries ab s).1.engine = s.engine ∧
    (forceCloseEntries ab s).1.powered = s.powered ∧ (forceCloseEntries ab s).1.freeUsed = s.freeUsed ∧
    (forceCloseEntries ab s).1.pending = s.pending := by
  have backlog (bs : List (Account × List Nat)) (s : State) := foldl_keeps (fun x : State => (x.tables, x.posns, x.screens,
    x.keys, x.drawers, x.groups, x.day, x.queues, x.printers, x.engine, x.powered, x.freeUsed, x.pending)) appendBacklog
    (by intros; simp) bs s
  simp only [Prod.mk.injEq] at backlog
  rw [forceCloseEntries_eq]
  simp [backlog]

@[simp] theorem forceJournaled_frame (s : State) :
    (forceJournaled s).1.tables = s.tables ∧ (forceJournaled s).1.posns = (forceCleared s).posns ∧
    (forceJournaled s).1.screens = (forceCleared s).screens ∧ (forceJournaled s).1.keys = (forceCleared s).keys ∧
    (forceJournaled s).1.drawers = (forceCleared s).drawers ∧ (forceJournaled s).1.groups = (forceCleared s).groups ∧
    (forceJournaled s).1.day = { s.day with alarm := none } ∧ (forceJournaled s).1.queues = (forceCleared s).queues ∧
    (forceJournaled s).1.printers = (forceCleared s).printers ∧ (forceJournaled s).1.engine = s.engine ∧
    (forceJournaled s).1.powered = s.powered ∧ (forceJournaled s).1.freeUsed = s.freeUsed ∧
    (forceJournaled s).1.pending = s.pending := by
  unfold forceJournaled
  split <;> simp

theorem forceJournaled_closing (h : s.day.state = .closing) : forceJournaled s =
    (writeControl (fun c => { c with day := some .closed, undelivered := true }) (forceCleared s), 0) :=
  if_pos (by simpa using h)

theorem forceJournaled_trading (h : s.day.state ≠ .closing) :
    forceJournaled s = forceCloseEntries (abandonEntries s) (forceCleared s) :=
  if_neg (by simpa using h)

theorem abandonEntries_bodies (s : State) : ∀ b ∈ abandonEntries s, firstForward b ≠ .pending ∧ kindSlots b = 1 := by
  intro b hb
  obtain ⟨p, -, h⟩ := List.mem_filterMap.1 hb
  obtain ⟨c, -, rfl⟩ := Option.map_eq_some_iff.1 h
  exact ⟨by simp [firstForward], rfl⟩

/-- The entries of a FORCE CLOSE read the counts, the midnight count and the store alone. -/
theorem forcedBodies_congr {s t : State} (ab : List EntryBody) (hn : t.nv = s.nv) (hc : t.clock = s.clock)
    (hb : backlogs t = backlogs s) : closingMidnight t = closingMidnight s ∧ forcedBacklogs ab t = forcedBacklogs ab s ∧
      forcedBodies ab t = forcedBodies ab s ∧ (ForcedFits ab t ↔ ForcedFits ab s) := by
  have used : slotsUsed t = slotsUsed s := by unfold slotsUsed; rw [hn]
  have mid : closingMidnight t = closingMidnight s := by unfold closingMidnight; rw [used, midnightBodies_congr hc]
  have backlog : forcedBacklogs ab t = forcedBacklogs ab s := by unfold forcedBacklogs; rw [used, mid, hb]
  exact ⟨mid, backlog, by unfold forcedBodies; rw [mid, backlog], by unfold ForcedFits; rw [used, mid, hb]⟩

/-- What a FORCE CLOSE of a trading day journals, told from the state in which its message arrives (R69, R70). -/
theorem forceJournaled_spec (h : s.day.state ≠ .closing) : let x := forceJournaled s
    let ab := abandonEntries s
    let close := slotsUsed s + (forcedBodies ab s).length + 1
    let count := s.nv.control.fields.entryCount + (forcedBodies ab s).length + 1
    x.1.nv.entries.map (·.body) = (journal s).map (·.body) ++ forcedBodies ab s ++ [.close true close count] ∧
    Backlogged ((forcedBacklogs ab s).flatMap (·.2)) s x.1 ∧
    LowSpaceTold (forcedBodies ab s ++ [.close true close count]) s x.1 ∧
    x.1.nv.control.fields = { s.nv.control.fields with
      day := some .closed, undelivered := true, slotsUsed := close, entryCount := count } ∧
    x.1.jc = { s.jc with lowSpace := x.1.jc.lowSpace } ∧
    x.1.clock = { s.clock with midnights := if closingMidnight s = [] then s.clock.midnights else 0 } ∧
    (ForcedFits ab s → x.2 = 0) ∧ (¬ForcedFits ab s → x.2 = storedLines s) := by
  have journaled := forceCloseEntries_spec (abandonEntries_bodies s) (forceCleared s)
  obtain ⟨-, -, -, -, -, -, backlog, stored⟩ := forceCleared_spec s
  obtain ⟨line, -, nv, jc, -, clock, -⟩ := forceCleared_frame s
  rw [← forceJournaled_trading h] at journaled
  dsimp only at *
  generalize forceCleared s = c at *
  generalize forceJournaled s = x at *
  obtain ⟨mid, backlogged, bodies, fits⟩ := forcedBodies_congr (abandonEntries s) nv clock backlog
  have used : slotsUsed c = slotsUsed s := by unfold slotsUsed; rw [nv]
  have before : journal c = journal s := by unfold journal; rw [nv]
  rw [bodies, backlogged, mid, fits, used, before, nv, jc, clock, stored] at journaled
  obtain ⟨entries, marks, low, fields, jcX, -, clockX, whole, full⟩ := journaled
  refine ⟨entries, fun q e he => marks q e ?_, ?_, fields, jcX, clockX, whole, full⟩
  · unfold entryAt at he ⊢
    rwa [before]
  · unfold LowSpaceTold Reported slotsUsed businessDate at low ⊢
    rwa [nv, jc, line] at low

theorem forceJournaled_told (s : State) : Told 0 s (forceJournaled s).1 := by
  have cleared : Told 0 s (forceCleared s) := .of_eq (by simp) (by simp)
  by_cases h : s.day.state = .closing
  · rw [forceJournaled_closing h]
    exact cleared.goesOn (by simp) (by simp)
  · rw [forceJournaled_trading h]
    obtain ⟨-, -, -, -, -, told, -⟩ := forceCloseEntries_spec (abandonEntries_bodies s) (forceCleared s)
    exact cleared.trans told

theorem forceJournaled_date (s : State) : businessDate (forceJournaled s).1 = businessDate s := by
  unfold businessDate
  by_cases h : s.day.state = .closing
  · rw [forceJournaled_closing h]
    simp [writeControl, JournalMem.write]
  · obtain ⟨-, -, -, fields, -⟩ := forceJournaled_spec h
    rw [fields]

/-- What a FORCE CLOSE of a trading day journals, told of the state before its message arrives. -/
theorem forceJournaled_arrived (h : s.day.state ≠ .closing) : let x := forceJournaled (arrived s)
    let ab := abandonEntries s
    let close := slotsUsed s + (forcedBodies ab s).length + 1
    let count := s.nv.control.fields.entryCount + (forcedBodies ab s).length + 1
    x.1.nv.entries.map (·.body) = (journal s).map (·.body) ++ forcedBodies ab s ++ [.close true close count] ∧
    Backlogged ((forcedBacklogs ab s).flatMap (·.2)) (arrived s) x.1 ∧
    LowSpaceTold (forcedBodies ab s ++ [.close true close count]) (arrived s) x.1 ∧
    x.1.nv.control.fields = { s.nv.control.fields with
      day := some .closed, undelivered := true, slotsUsed := close, entryCount := count } ∧
    x.1.jc = { s.jc with lowSpace := x.1.jc.lowSpace } ∧
    x.1.clock = { s.clock with midnights := if closingMidnight s = [] then s.clock.midnights else 0 } ∧
    (ForcedFits ab s → x.2 = 0) ∧ (¬ForcedFits ab s → x.2 = storedLines s) := by
  have spec := forceJournaled_spec (s := arrived s) (by simpa using h)
  have abandoned : abandonEntries (arrived s) = abandonEntries s := by simp [abandonEntries]
  have stored : storedLines (arrived s) = storedLines s := by simp [storedLines]
  obtain ⟨mid, backlogged, bodies, fits⟩ := forcedBodies_congr (s := s) (t := arrived s) (abandonEntries s) (by simp) (by simp)
    (by simp [backlogs, backlogOrder])
  have before : journal (arrived s) = journal s := by simp [journal]
  dsimp only at spec ⊢
  generalize forceJournaled (arrived s) = x at *
  obtain ⟨nv, jc, clock⟩ : (arrived s).nv = s.nv ∧ (arrived s).jc = s.jc ∧ (arrived s).clock = s.clock := by simp
  rw [abandoned, bodies, backlogged, mid, fits, slotsUsed_arrived, before, nv, jc, clock, stored] at spec
  exact spec

theorem Backlogged.congr {seqs : List Nat} {t u v : State} (h : Backlogged seqs u v) (hn : u.nv = s.nv)
    (he : t.nv.entries = v.nv.entries) (hc : t.nv.control = v.nv.control) : Backlogged seqs s t := by
  unfold Backlogged entryAt journal at h ⊢
  rwa [he, hc, ← hn]

end

/-- Settles O42: a closed day refused; else what the request clears, what it journals, what it writes to the retained store. -/
theorem forceCloseEndsDay : Obligations.ForceCloseEndsDay := by
  intro h rb s ht
  refine ⟨fun closed => exec_forceClose_closed rb ht closed, fun notClosed => ?_⟩
  intro ab mid whole bs bodies close count
  obtain ⟨u, hu⟩ : ∃ u, u = arrived s := ⟨_, rfl⟩
  obtain ⟨w, hw⟩ : ∃ w, w = abandonBatch { (forceJournaled u).1 with store := [] } := ⟨_, rfl⟩
  obtain ⟨y, hy⟩ : ∃ y, y = writeRetained .forceClose rb w := ⟨_, rfl⟩
  obtain ⟨z, hz⟩ : ∃ z, z = setDay (.closed true) y := ⟨_, rfl⟩
  obtain ⟨t, last⟩ : ∃ t, t = report 255 (.dayClosed (businessDate z) false true (some (forceJournaled u).2))
      (answered h .accepted .none z) := ⟨_, rfl⟩
  have run : exec (.forceClose h rb) s = .next t := by
    rw [last]
    refine exec_forceClose ht notClosed ?_
    rw [forceCloseEvent_eq, hz, hy, hw, hu]
    rfl
  obtain ⟨wrote, entriesY, controlY, dayY⟩ := writeRetained_spec .forceClose rb w
  rw [← hy] at wrote entriesY controlY dayY
  have silent : Says 0 (forceJournaled u).1 w := hw ▸ .of_eq (by simp) (by simp)
  have toldW : Told 0 u w := (forceJournaled_told u).trans silent.told
  have toldZ : Says 0 y z := hz ▸ .of_eq (by simp) (by simp)
  have replied := answered_says h .accepted .none z
  have reported : Says 1 (answered h .accepted .none z) t := last ▸ report_says (by simp) _
  have after : Says (0 + (1 + 1)) y t := toldZ.trans (replied.trans reported)
  obtain ⟨cleared, kept, lines, groups, queues, holds, -⟩ := forceCleared_spec u
  have nv : t.nv = y.nv := by simp [last, hz, answered]
  have nvW : w.nv = (forceJournaled u).1.nv := by simp [hw]
  have entries : t.nv.entries = (forceJournaled u).1.nv.entries := by rw [nv, entriesY, nvW]
  have control : t.nv.control = (forceJournaled u).1.nv.control := by rw [nv, controlY, nvW]
  have jc : t.jc = (forceJournaled u).1.jc := by simp [last, hz, hy, hw, answered]
  have clock : t.clock = (forceJournaled u).1.clock := by simp [last, hz, hy, hw, answered]
  have day : t.day = { s.day with state := .closed true, alarm := none, retainedBad := t.day.retainedBad } := by
    have dayT : t.day = { y.day with state := .closed true } := by simp [last, hz, answered, setDay_state]
    rw [dayT, dayY, hw]
    simp [hu]
  obtain ⟨posns, keys, drawers, groupsT, queuesT, printers⟩ : t.posns = (forceCleared u).posns ∧
      t.keys = (forceCleared u).keys ∧ t.drawers = (forceCleared u).drawers ∧ t.groups = (forceCleared u).groups ∧
      t.queues = (forceCleared u).queues ∧ t.printers = (forceCleared u).printers := by
    simp [last, hz, hy, hw, answered]
  have form (p : Pos) : (rd t.screens p).form = (rd (forceCleared u).screens p).form := by
    have screens : rd t.screens p = (rd (forceCleared u).screens p).mark 0 := by
      simp [last, hz, hy, hw, answered, setDay_screens]
    rw [screens, mark_form]
  obtain ⟨same, sameKeys, sameDrawers, sameQueues, samePrinters, sameTables⟩ : u.posns = s.posns ∧ u.keys = s.keys ∧
      u.drawers = s.drawers ∧ u.queues = s.queues ∧ u.printers = s.printers ∧ u.tables = s.tables := by simp [hu]
  rw [same, shownForm_congr sameTables] at cleared
  rw [same, sameKeys] at kept
  rw [sameDrawers] at lines
  rw [sameQueues, samePrinters] at holds
  have state : u.day.state = s.day.state := by simp [hu]
  refine ⟨t, (forceJournaled u).2, run, day, fun p on => ?_, fun p off => ?_, fun p => ?_, fun p => ?_, fun n => ?_,
    fun n hq hh => ?_, fun closing => ?_, fun trading => ?_, ?_, fun few => ⟨?_, ?_⟩, ?_⟩
  · rw [posns, drawers, keys, form]
    exact cleared p on
  · rw [posns, keys]
    exact kept p off
  · rw [drawers]
    exact lines p
  · rw [groupsT]
    exact groups p
  · rw [queuesT]
    exact queues n
  · rw [printers]
    exact holds n hq hh
  · rw [entries, control, clock, jc, forceJournaled_closing (state.trans closing), hu]
    simp [writeControl, JournalMem.write]
  · obtain ⟨bodiesT, marks, low, fields, jcT, clockT, fit, full⟩ := forceJournaled_arrived trading
    rw [← hu] at bodiesT marks low fields jcT clockT fit full
    rw [entries, control, clock, ← hu]
    refine ⟨bodiesT, marks.congr (by simp [hu]) entries control, ?_, after.lowSpace (wrote.lowSpace (silent.lowSpace low)),
      clockT, fields, fit, full⟩
    rw [jc]
    exact jcT
  · rw [← hu]
    have date : businessDate w = businessDate u := by
      have := forceJournaled_date u
      unfold businessDate at this ⊢
      rwa [nvW]
    have drawersW : w.drawers = (forceCleared u).drawers := by simp [hw]
    have linesW (p : Pos) : (rd w.drawers p).lines = (rd u.drawers p).lines := by
      rw [drawersW, sameDrawers]
      exact (lines p).1
    refine writeRetained_written date linesW toldW (Nat.zero_le 2) (hy ▸ after.told) (by rw [nv, hy]) ?_
    rw [last, hz, hy]
    simp [answered]
  · have := (toldW.trans (wrote.told.trans toldZ.told)).replied (hdr := h) (st := .accepted) (x := .none)
      (by rw [hu, arrived_outbound]; omega)
    exact Replied.arrived (hu ▸ Queued.stays this reported.told)
  · have dateZ : businessDate z = businessDate s := by
      have := forceJournaled_date u
      have nvZ : z.nv.control = (forceJournaled u).1.nv.control := by rw [← control, nv, hz]; simp
      unfold businessDate at this ⊢
      rw [nvZ, this, hu]
      simp
    have := (toldW.trans (wrote.told.trans (toldZ.told.trans replied.told))).reported (p := 255)
      (x := .dayClosed (businessDate z) false true (some (forceJournaled u).2)) (hu ▸ arrived_online s)
      (by rw [hu, arrived_outbound]; omega)
    rw [← last, dateZ] at this
    exact Reported.arrived (hu ▸ this)
  · have line := (toldW.trans (wrote.told.trans after.told)).line
    rw [← hu]
    obtain ⟨tables, store, engine, powered, free, pending⟩ : t.tables = u.tables ∧ t.store = [] ∧
        t.engine = { u.engine with state := .idle, batch := none, dayAwaited := false, flights := [], timer := none } ∧
        t.powered = u.powered ∧ t.freeUsed = u.freeUsed ∧ t.pending = u.pending := by
      simp [last, hz, hy, hw, answered, abandonBatch, engineIdle]
    unfold since
    rw [← line, ← tables, ← engine, ← powered, ← free, ← pending, ← store]

end Sys2Proof.Machine

namespace Sys2Proof.Machine

/-! ## Power-on and power failure -/

/-- Settles O5: the control record that checks good decides the day; one that does not leaves CLOSED and unreadable. -/
theorem powerOnReadsControlRecord : Obligations.PowerOnReadsControlRecord := by
  intro s
  refine ⟨readControl (powerUp s), rfl, ?_⟩
  have nv : (powerUp s).nv = s.nv := rfl
  unfold readControl
  dsimp only
  rw [nv]
  by_cases good : s.nv.control.good = true
  · rw [if_pos good]
    refine ⟨rfl, rfl, rfl, rfl, rfl, rfl, fun bad => ?_, fun _ => ⟨rfl, rfl, fun closed => ?_, fun notClosed => ?_⟩⟩
    · rw [good] at bad; cases bad
    · exact ⟨if_pos closed, if_pos closed⟩
    · exact ⟨if_neg notClosed, if_neg notClosed⟩
  · rw [if_neg good]
    exact ⟨rfl, rfl, rfl, rfl, rfl, rfl, fun _ => ⟨rfl, rfl, rfl, rfl, rfl⟩, fun g => absurd g good⟩

/-- A record whose CRC is the ones' complement of the right one does not check good (R40). -/
theorem not_good_of_complement (f : ControlFields) : ControlRec.good ⟨f, ~~~(crc16 (controlBytes f))⟩ = false := by
  have differs (x : BitVec 16) : (~~~x == x) = false := by
    refine beq_eq_false_iff_ne.2 fun e => ?_
    have bit := congrArg (fun y => y.getLsbD 0) e
    simp at bit
  simp [ControlRec.good, differs]

theorem tornControl_spec (free : Nat) (m : JournalMem) : (tornControl free m).control.good = false ∧
    (tornControl free m).entries = m.entries ∧ (tornControl free m).retained = m.retained :=
  ⟨not_good_of_complement _, rfl, rfl⟩

/-- The completed writes of the last event, on the memory it found (R45). -/
theorem cutMemory_false (n : Nat) (s : State) :
    cutMemory n false s = (s.nvLog.take n).foldl (fun m w => m.write w) s.nvBefore := by
  unfold cutMemory
  split <;> rfl

theorem cutMemory_torn {n : Nat} {s : State} {w : NvWrite} (h : s.nvLog[n]? = some w) :
    cutMemory n true s = tornWrite s.freeUsed w (cutMemory n false s) := by
  rw [cutMemory_false]
  simp only [cutMemory, h, if_true]

theorem cutMemory_past {n : Nat} {s : State} (h : s.nvLog.length ≤ n) (torn : Bool) :
    cutMemory n torn s = cutMemory n false s := by
  rw [cutMemory_false]
  simp only [cutMemory, List.getElem?_eq_none h]

theorem exec_powerFailure {s : State} (h : s.powered = true) (n : Nat) (torn : Bool) :
    exec (.powerFailure n torn) s = .next (powerDown (cutMemory n torn s) s) := by
  show execPowerFailure n torn s = _
  rw [execPowerFailure, if_pos h]

/-- Settles O6: by the write that was cut short. -/
theorem powerFailureKeepsCompletedWrites : Obligations.PowerFailureKeepsCompletedWrites := by
  intro s n torn powered done
  have complete : cutMemory n false s = done := cutMemory_false n s
  refine ⟨_, exec_powerFailure powered n torn, rfl, ?_, ?_⟩
  · rintro (rfl | past)
    · exact complete
    · exact (cutMemory_past past torn).trans complete
  · rintro rfl
    refine ⟨?_, fun e slots => ?_, ?_⟩
    · rintro c (write | ⟨is, write⟩) <;>
        (show (cutMemory n true s).control.good = false ∧ (cutMemory n true s).entries = _ ∧
           (cutMemory n true s).retained = _
         rw [cutMemory_torn write, complete]
         exact tornControl_spec _ _)
    · show cutMemory n true s = done
      rw [cutMemory_torn slots, complete]
      rfl
    · rintro x (write | ⟨c, write⟩) <;>
        (show (cutMemory n true s).control = _ ∧ (cutMemory n true s).entries = _
         rw [cutMemory_torn write, complete]
         exact ⟨rfl, rfl⟩)

/-! ## A replay that fails -/

/-- The check of R54 on an entry fails where one of its parts does. -/
theorem headerGood_false {r : Replay} {used : Nat} {e : Entry}
    (h : e.kind ≠ kindCode e.body ∨ e.size ≠ kindSlots e.body ∨ e.seq ≠ r.index + 1 ∨ used < r.slot + e.size ∨
      ∃ p d src m a, e.body = .opening p d src m a ∧ (p.val ≠ r.opened ∨ r.opened ≠ r.index)) :
    headerGood r used e = false := by
  unfold headerGood
  rcases h with kind | size | seq | past | ⟨p, d, src, m, a, body, place⟩
  · simp [kind]
  · simp [size]
  · simp [seq]
  · simp [past]
  · have : openingInPlace r e.body = false := by
      rw [body]
      rcases place with q | q <;> simp [openingInPlace, q]
    simp [this]

theorem exec_replayEntry_begun {s : State} {r : Replay} (hp : s.powered = true) (hr : s.jc.replay = some r)
    (hs : r.slot < slotsUsed s) : exec .replayEntry s = .next (replayNext r s.begin) := by
  show execReplayEntry s = _
  rw [execReplayEntry, event_eq _ hp]
  have hs' : r.slot < slotsUsed s.begin := hs
  simp only [State.begin_jc, hr, if_pos hs']

/-- A replay stops at an entry that is missing or fails a check (R54). -/
theorem replayNext_fails {s : State} {r : Replay}
    (h : s.nv.entries[r.index]? = none ∨ ∃ e, s.nv.entries[r.index]? = some e ∧
      (headerGood r (slotsUsed s) e = false ∨ (r.slot + e.size = slotsUsed s ∧ e.seq ≠ s.nv.control.fields.entryCount))) :
    replayNext r s = failReplay r.slot s := by
  unfold replayNext
  rcases h with missing | ⟨e, there, bad | last⟩
  · rw [missing]
  · rw [there]
    simp only [bad, if_true]
  · rw [there]
    dsimp only
    rw [if_pos last]
    exact ite_self _

/-- What a failed replay leaves (R54): drawers, usage and store at their power-on values, the journal unreadable. -/
theorem failReplay_spec (slot : Nat) (s : State) : let t := failReplay slot s
    t.jc = ⟨true, s.jc.lowSpace, 0, none⟩ ∧ t.day = { s.day with state := .closed true } ∧
    t.screens = mapV s.screens (Screen.mark 0) ∧ t.posns = mapV s.posns clearUsage ∧
    t.line = { s.line with outbound := s.line.outbound ++ reportedOf 255 (.recoveryDone (.unreadable slot)) s } ∧
    t = { s with drawers := Vector.replicate 16 Drawer.initial, posns := t.posns, screens := t.screens, jc := t.jc,
                 line := t.line, store := [], day := t.day } := by
  unfold failReplay
  dsimp only
  rw [report_eq]
  exact ⟨rfl, rfl, rfl, rfl, rfl, rfl⟩

/-- Settles O8: each failing check leads to the one stop of R54. -/
theorem replayStopsAtBadEntry : Obligations.ReplayStopsAtBadEntry := by
  intro s r powered replay slot bad
  have stops : replayNext r s.begin = failReplay r.slot s.begin := by
    refine replayNext_fails (bad.imp id fun ⟨e, there, why⟩ => ⟨e, there, ?_⟩)
    rcases why with kind | size | seq | past | place | last
    · exact Or.inl (headerGood_false (Or.inl kind))
    · exact Or.inl (headerGood_false (Or.inr (Or.inl size)))
    · exact Or.inl (headerGood_false (Or.inr (Or.inr (Or.inl seq))))
    · exact Or.inl (headerGood_false (Or.inr (Or.inr (Or.inr (Or.inl past)))))
    · exact Or.inl (headerGood_false (Or.inr (Or.inr (Or.inr (Or.inr place)))))
    · exact Or.inr last
  obtain ⟨jc, day, screens, posns, line, frame⟩ := failReplay_spec r.slot s.begin
  rw [exec_replayEntry_begun powered replay slot, stops]
  generalize failReplay r.slot s.begin = t at *
  refine ⟨t, rfl, by rw [frame]; rfl, by rw [frame], by rw [day], jc, fun p => ?_, fun p => ?_, fun p => ?_, fun p => ?_,
    line, ?_⟩
  · rw [frame]; exact rd_replicate ..
  · rw [posns, rd_mapV]; rfl
  · rw [screens]; simp
  · rw [screens, rd_mapV]; exact SameButDirty.mark ..
  · have stored : t.store = [] := by rw [frame]
    have drawers : t.drawers = Vector.replicate 16 Drawer.initial := by rw [frame]
    rw [day, stored, drawers]
    rw [day] at frame
    exact frame

end Sys2Proof.Machine

namespace Sys2Proof.Machine

/-! ## Reset -/

theorem cutMemory_reset (k : Nat) : cutMemory k false State.reset = JournalMem.blank := by
  simp [cutMemory, State.reset]

theorem findAccount_reset (a : Account) : findAccount a State.reset = none := rfl

/-- Settles O4: nothing is queued, dirty rows are the twenty rows, no form, no line, no entry, no batch. -/
theorem resetMeetsInvariants : Obligations.ResetMeetsInvariants := by
  have keys (p : Pos) : rd State.reset.keys p = KeyUnit.initial := rd_replicate ..
  have queues (n : Prn) : rd State.reset.queues n = [] := rd_replicate ..
  have screens (p : Pos) : rd State.reset.screens p = Screen.initial := rd_replicate ..
  have printers (n : Prn) : rd State.reset.printers n = Printer.initial := rd_replicate ..
  have drawers (p : Pos) : rd State.reset.drawers p = Drawer.initial := rd_replicate ..
  have posns (p : Pos) : rd State.reset.posns p = PosRec.initial := rd_replicate ..
  have forms (n : Fin 32) : rd State.reset.tables.forms n = none := rd_replicate ..
  have dirty : (List.range 20).Pairwise (· < ·) ∧ ∀ r ∈ List.range 20, r ≤ 19 :=
    ⟨List.pairwise_lt_range, fun r h => by rw [List.mem_range] at h; omega⟩
  have store : StoreBounded State.reset := ⟨by decide, by decide, List.nodup_nil, fun _ h => (nomatch h)⟩
  have jobs : OneJobEach State.reset := fun a => by simp [queues, jobMarked, findAccount_reset]
  have fits : ClosingFits JournalMem.blank := fun h => by rcases h with h | h <;> cases h
  have slots : SlotsBounded State.reset :=
    ⟨fun h => (nomatch h), fun h => (by rcases h with h | h <;> cases h), fun _ => fits,
      fun k _ => by rw [cutMemory_reset]; exact fits, fun _ => ⟨true, rfl⟩, fun _ => rfl,
      fun p h => absurd (by rw [drawers]; rfl) h⟩
  refine ⟨⟨by decide, fun p => by rw [keys]; decide, fun n => by rw [queues]; decide, by decide, by decide, fun _ => rfl,
    fun p => by rw [screens]; exact ⟨dirty.1, dirty.2, by decide, by decide⟩,
    fun n d h => (by rw [forms] at h; cases h), store, jobs, slots⟩, ?window, ?rest, ?forward⟩
  case window => exact ⟨⟨fun _ => rfl, fun _ => rfl⟩, fun _ => rfl, fun b h => by cases h⟩
  case rest =>
    refine ⟨fun h => absurd rfl h, fun n h => ?_, fun _ => ⟨fun p => by rw [posns]; rfl, queues⟩⟩
    rw [printers] at h
    rcases h with h | h <;> cases h
  case forward =>
    have none : PendingIsStandIn JournalMem.blank := fun e h => by cases h
    exact ⟨none, fun k => by rw [cutMemory_reset]; exact none⟩

end Sys2Proof.Machine

namespace Sys2Proof.Machine

/-! ## The writes of an event -/

/-- The journal memory with its writes, and the queue of waiting commands, are as they were. -/
def Quiet (t u : State) : Prop := u.nv = t.nv ∧ u.nvBefore = t.nvBefore ∧ u.nvLog = t.nvLog ∧ u.pending = t.pending

theorem Quiet.rfl (t : State) : Quiet t t := ⟨Eq.refl _, Eq.refl _, Eq.refl _, Eq.refl _⟩

theorem Quiet.trans {s t u : State} (h : Quiet s t) (k : Quiet t u) : Quiet s u := by
  obtain ⟨h1, h2, h3, h4⟩ := h
  obtain ⟨k1, k2, k3, k4⟩ := k
  exact ⟨k1.trans h1, k2.trans h2, k3.trans h3, k4.trans h4⟩

/-- A write that keeps the law of R50: an entry is written PENDING only as a stand-in posting, in an event that may make one,
and a forward state changes only from PENDING to FORWARDED, in an event that may take an acknowledgement. -/
def MayWrite (standIn ack : Bool) (m : JournalMem) : NvWrite → Prop
  | .slots e => e.fwd = .notNeeded ∨ (standIn = true ∧ e.fwd = .pending ∧ ∃ r, e.body = .posting r ∧ r.origin = .standIn)
  | .states i _ f => ∀ e, m.entries[i]? = some e → f = e.fwd ∨ (ack = true ∧ e.fwd = .pending ∧ f = .forwarded)
  | _ => True

/-- The event has gone on from s by such writes alone, and by changes outside the journal memory. -/
inductive Writes (standIn ack : Bool) (s : State) : State → Prop
  | start : Writes standIn ack s s
  | quiet {t u : State} : Writes standIn ack s t → Quiet t u → Writes standIn ack s u
  | write {t : State} (w : NvWrite) : Writes standIn ack s t → MayWrite standIn ack t.nv w →
      Writes standIn ack s (nvWrite w t)

section
variable {standIn ack : Bool} {s t : State}

theorem Writes.of_quiet (h : Quiet s t) : Writes standIn ack s t := .quiet .start h

theorem Writes.pending (h : Writes standIn ack s t) : t.pending = s.pending := by
  induction h with
  | start => rfl
  | quiet _ q ih => exact q.2.2.2.trans ih
  | write _ _ _ ih => exact ih

theorem Writes.nvBefore (h : Writes standIn ack s t) : t.nvBefore = s.nvBefore := by
  induction h with
  | start => rfl
  | quiet _ q ih => exact q.2.1.trans ih
  | write _ _ _ ih => exact ih

/-! ### The operations that write -/

theorem report_quiet (p : Nat) (r : Report) (t : State) : Quiet t (report p r t) := by simp [Quiet]

theorem store_quiet (l : List AccountRec) (t : State) : Quiet t { t with store := l } := ⟨rfl, rfl, rfl, rfl⟩

theorem lowSpaceCheck_quiet (t : State) : Quiet t (lowSpaceCheck t) := by simp [Quiet]

theorem writeControl_writes (f : ControlFields → ControlFields) (h : Writes standIn ack s t) :
    Writes standIn ack s (writeControl f t) := .write _ h trivial

theorem firstForward_cases (b : EntryBody) : firstForward b = .notNeeded ∨
    (firstForward b = .pending ∧ ∃ r, b = .posting r ∧ r.origin = .standIn) := by
  cases b with
  | posting r => by_cases o : r.origin = .standIn <;> simp [firstForward, o]
  | _ => exact Or.inl rfl

theorem slots_writes (b : EntryBody) (hb : firstForward b = .pending → standIn = true) (h : Writes standIn ack s t) :
    Writes standIn ack s (nvWrite (.slots (makeEntry b t)) t) := by
  refine .write _ h ((firstForward_cases b).imp id fun ⟨p, r, body, origin⟩ => ⟨hb p, p, r, body, origin⟩)

theorem appendWith_writes (m : ControlFields → ControlFields) (b : EntryBody) (hb : firstForward b = .pending → standIn = true)
    (h : Writes standIn ack s t) : Writes standIn ack s (appendWith m b t) := by
  unfold appendWith
  have counted := writeControl_writes (fun c => m { c with
    slotsUsed := c.slotsUsed + (makeEntry b t).size, entryCount := c.entryCount + 1 }) (slots_writes b hb h)
  refine .quiet counted (Quiet.trans ?_ (lowSpaceCheck_quiet _))
  split <;> exact ⟨rfl, rfl, rfl, rfl⟩

theorem append_writes (b : EntryBody) (hb : firstForward b = .pending → standIn = true) (h : Writes standIn ack s t) :
    Writes standIn ack s (append b t) := appendWith_writes id b hb h

theorem appendAll_writes (bs : List EntryBody) (hb : ∀ b ∈ bs, firstForward b ≠ .pending) (h : Writes standIn ack s t) :
    Writes standIn ack s (appendAll bs t) := by
  unfold appendAll
  induction bs generalizing t with
  | nil => exact h
  | cons b bs ih =>
    exact ih (fun c m => hb c (List.mem_cons_of_mem _ m))
      (append_writes b (fun p => absurd p (hb b List.mem_cons_self)) h)

theorem appendBacklog_writes (b : Account × List Nat) (h : Writes standIn ack s t) :
    Writes standIn ack s (appendBacklog t b) := by
  have entered := slots_writes (.backlog b.1 b.2) (fun p => nomatch p) h
  exact .quiet (.write (.backlogged _ _) entered trivial) (lowSpaceCheck_quiet _)

theorem appendBacklogs_writes (bs : List (Account × List Nat)) (h : Writes standIn ack s t) :
    Writes standIn ack s (bs.foldl appendBacklog t) := by
  induction bs generalizing t with
  | nil => exact h
  | cons b bs ih => exact ih (appendBacklog_writes b h)

theorem placeMidnight_writes (c : CapClass) (h : Writes standIn ack s t) : Writes standIn ack s (placeMidnight c t) := by
  rw [placeMidnight_eq]
  split
  · exact .quiet (append_writes (.midnight _) (fun p => nomatch p) h) ⟨rfl, rfl, rfl, rfl⟩
  · exact h

theorem entryAt_getElem? {q : Nat} {e : Entry} (h : entryAt q s = some e) : s.nv.entries[q - 1]? = some e := by
  unfold entryAt at h
  split at h
  · cases h
  · unfold journal at h
    rw [List.getElem?_take] at h
    split at h
    · exact h
    · cases h

theorem changePrint_writes (q : Nat) (x : PrintState) (h : Writes standIn ack s t) :
    Writes standIn ack s (changePrint q x t) := by
  unfold changePrint
  split
  · next e he =>
    split
    · refine .write _ h fun f hf => Or.inl ?_
      rw [entryAt_getElem? he] at hf
      cases hf; rfl
    · exact h
  · exact h

theorem changeForward_writes (q : Nat) (h : Writes standIn true s t) : Writes standIn true s (changeForward q t) := by
  unfold changeForward
  split
  · next e he =>
    split
    · next pending =>
      refine .quiet (.write (.states _ _ .forwarded) h fun f hf => Or.inr ⟨rfl, ?_, rfl⟩) ⟨rfl, rfl, rfl, rfl⟩
      rw [entryAt_getElem? he] at hf
      cases hf; exact pending
    · exact h
  · exact h

theorem setDelivered_writes (n : Nat) (h : Writes standIn ack s t) : Writes standIn ack s (setDelivered n t) := by
  unfold setDelivered
  dsimp only
  split
  · exact writeControl_writes _ h
  · exact h

theorem writeRetained_writes (c : RetainedCause) (rb : Option RetainedRec) (h : Writes standIn ack s t) :
    Writes standIn ack s (writeRetained c rb t) := by
  have retained (r : RetainedRec) : Writes standIn ack s (nvWrite (.retained r) t) := .write _ h trivial
  unfold writeRetained
  dsimp only
  split
  · exact .quiet (retained _) ⟨rfl, rfl, rfl, rfl⟩
  · split
    · exact .quiet (retained _) ⟨rfl, rfl, rfl, rfl⟩
    · next found _ =>
      have marked := (retained found).quiet (u := (nvWrite (.retained found) t).updDay fun d => { d with retainedBad := true })
        ⟨rfl, rfl, rfl, rfl⟩
      exact .quiet (.write (.retainedCrc _) marked trivial) (report_quiet ..)

/-! ### Balances and declarations -/

theorem captureOne_writes (k : BalKind) (l : Option Pos) (p : Pos) (h : Writes standIn ack s t) :
    Writes standIn ack s (captureOne k l p t) := by
  have entered := append_writes (.capture ⟨p, k, nextCapture (rd t.drawers p), l, (rd t.drawers p).lines⟩)
    (fun p => nomatch p) h
  exact .quiet entered (Quiet.trans ⟨rfl, rfl, rfl, rfl⟩ (report_quiet ..))

theorem beginBalance_quiet (k : BalKind) (l : Option Pos) (p : Pos) (t : State) : Quiet t (beginBalance k l p t) := by
  simp [Quiet]

theorem singleBalance_writes (k : BalKind) (p : Pos) (h : Writes standIn ack s t) :
    Writes standIn ack s (singleBalance k p t) :=
  .quiet (captureOne_writes k none p (placeMidnight_writes _ h)) (beginBalance_quiet ..)

theorem completeGroup_writes (l : Pos) (g : GroupRec) (h : Writes standIn ack s t) :
    Writes standIn ack s (completeGroup l g t) := by
  have entered := append_writes (.groupEnd l g.kind g.abandoned) (fun p => nomatch p) h
  exact .quiet entered (Quiet.trans ⟨rfl, rfl, rfl, rfl⟩ (report_quiet ..))

theorem leaveGroup_writes (p : Pos) (l : Option Pos) (a : Bool) (h : Writes standIn ack s t) :
    Writes standIn ack s (leaveGroup p l a t) := by
  unfold leaveGroup
  split
  · exact h
  · split
    · exact h
    · dsimp only
      split
      · exact completeGroup_writes _ _ h
      · exact .quiet h ⟨rfl, rfl, rfl, rfl⟩

theorem captures_writes (k : BalKind) (l : Option Pos) (ps : List Pos) (h : Writes standIn ack s t) :
    Writes standIn ack s (ps.foldl (fun s q => captureOne k l q s) t) := by
  induction ps generalizing t with
  | nil => exact h
  | cons p ps ih => exact ih (captureOne_writes k l p h)

theorem beginBalances_quiet (k : BalKind) (l : Option Pos) (ps : List Pos) (t : State) :
    Quiet t (ps.foldl (fun s q => beginBalance k l q s) t) := by
  induction ps generalizing t with
  | nil => exact .rfl t
  | cons p ps ih => exact (beginBalance_quiet k l p t).trans (ih _)

theorem groupBalanceEvent_writes (k : BalKind) (l : Pos) (h : Writes standIn ack s t) :
    Writes standIn ack s (groupBalanceEvent k l t) := by
  have begun (g off on : List Pos) := (captures_writes k (some l) g (append_writes (.groupBegin l k g off)
    (fun p => nomatch p) (placeMidnight_writes .control h))).quiet (beginBalances_quiet k (some l) on _)
  unfold groupBalanceEvent
  dsimp only
  split
  · exact completeGroup_writes _ _ (begun _ _ _)
  · exact .quiet (begun _ _ _) ⟨rfl, rfl, rfl, rfl⟩

theorem takeDeclaration_writes (p : Pos) (c : BalCtx) (r : DeclRec) (h : Writes standIn ack s t) :
    Writes standIn ack s (takeDeclaration p c r t) := by
  have entered := append_writes (.declaration r) (fun p => nomatch p) (placeMidnight_writes .control h)
  unfold takeDeclaration
  refine .quiet (leaveGroup_writes _ _ _ (.quiet entered ?_)) (report_quiet ..)
  split <;> simp [Quiet]

theorem declare_writes (p : Pos) (d : FormDesc) (h : Writes standIn ack s t) : Writes standIn ack s (declare p d t) := by
  unfold declare
  split
  · exact h
  · split
    · exact .quiet h (by simp [Quiet])
    · split
      · exact .quiet h (by simp [Quiet])
      · exact takeDeclaration_writes _ _ _ h

theorem abandonBalance_writes (p : Pos) (c : BalCtx) (h : Writes standIn ack s t) :
    Writes standIn ack s (abandonBalance p c t) := by
  have entered := append_writes (.abandoned p c.kind c.number .forceSignOff) (fun p => nomatch p)
    (placeMidnight_writes .control h)
  exact leaveGroup_writes _ _ _ (.quiet entered (by simp [Quiet]))

theorem balanceKey_writes (k : BalKind) (p : Pos) (h : Writes standIn ack s t) :
    Writes standIn ack s (balanceKey k p t) := by
  unfold balanceKey
  split
  · exact .quiet h (by simp [Quiet])
  · split
    · exact .quiet h (by simp [Quiet])
    · exact singleBalance_writes k p h

theorem groupKey_writes (k : BalKind) (p : Pos) (h : Writes standIn ack s t) : Writes standIn ack s (groupKey k p t) := by
  unfold groupKey
  split
  · exact .quiet h (by simp [Quiet])
  · split
    · exact .quiet h (by simp [Quiet])
    · exact groupBalanceEvent_writes k p h

/-! ### Postings and lines -/

theorem offerLine_writes (a : Account) (b : Option Nat) (l : PLine) (h : Writes standIn ack s t) :
    Writes standIn ack s (offerLine a b l t) := by
  unfold offerLine
  split
  · exact changePrint_writes _ _ (.quiet h (by simp [Quiet]))
  · exact changePrint_writes _ _ h

theorem jobForKept_quiet (p : Pos) (a : Account) (t : State) : Quiet t (jobForKept p a t) := by simp [Quiet]

theorem handOnLine_writes (p : Pos) (line : Option (Account × Option Nat × PLine)) (h : Writes standIn ack s t) :
    Writes standIn ack s (handOnLine p line t) := by
  unfold handOnLine
  split
  · exact h
  · split
    · exact .quiet (offerLine_writes _ _ _ h) (jobForKept_quiet ..)
    · exact offerLine_writes _ _ _ h

theorem applyLegs_quiet (gs : List Leg) (t : State) : Quiet t (applyLegs gs t) := by simp [Quiet]

theorem applyPosting_writes (late : Bool) (req : PostReq) (pl : Plan) (origin : req.origin = .standIn → standIn = true)
    (h : Writes standIn ack s t) : Writes standIn ack s (applyPosting late req pl t).1 := by
  have waiting (x : State) : firstForward (.posting (postingRec late req pl x)) = .pending → standIn = true := by
    intro p
    refine origin ?_
    by_contra o
    simp [firstForward, postingRec, o] at p
  have entered := append_writes (.posting (postingRec late req pl (placeMidnight .business t))) (waiting _)
    (placeMidnight_writes .business h)
  exact handOnLine_writes _ _ (.quiet entered (applyLegs_quiet ..))

theorem offerLines_writes (a : Account) (b seq : Nat) (ls : List BookLineItem) (h : Writes standIn ack s t) :
    Writes standIn ack s (offerLines a b seq ls t).1 := by
  induction ls generalizing t seq with
  | nil => exact h
  | cons l ls ih => exact ih _ (offerLine_writes _ _ _ h)

theorem takeBookLines_writes (hd : Hdr) (p : Pos) (a : Account) (b : Nat) (ls : List BookLineItem)
    (h : Writes standIn ack s t) : Writes standIn ack s (takeBookLines hd p a b ls t) := by
  have bodies : ∀ x ∈ bookLineEntries a b ls, firstForward x ≠ .pending := by
    intro x hx
    obtain ⟨l, -, rfl⟩ := List.mem_map.1 hx
    exact fun p => nomatch p
  have offered := offerLines_writes a b (nextSeq (placeMidnight .business t)) ls
    (appendAll_writes _ bodies (placeMidnight_writes .business h))
  refine .quiet offered (u := takeBookLines hd p a b ls t) ?_
  unfold takeBookLines
  dsimp only
  split <;> simp [Quiet]

theorem takePost_writes (hd : Hdr) (req : PostReq) (pl : Plan) (origin : req.origin = .standIn → standIn = true)
    (h : Writes standIn ack s t) : Writes standIn ack s (takePost hd req pl t) :=
  .quiet (applyPosting_writes (lateFlag (rd t.posns pl.pos) req.entryRef) req pl origin h) (by simp [Quiet, takePost])

theorem linePrinted_writes (a : Account) (h : Writes standIn ack s t) : Writes standIn ack s (linePrinted a t) := by
  unfold linePrinted
  split
  · exact h
  · exact .quiet (changePrint_writes _ _ h) ⟨rfl, rfl, rfl, rfl⟩

theorem takeStandIn_writes (p : Pos) (req : PostReq) (pl : Plan) (h : Writes true ack s t) :
    Writes true ack s (takeStandIn p req pl t) :=
  .quiet (applyPosting_writes false req pl (fun _ => rfl) h) (by simp [Quiet, takeStandIn])

/-! ### The day -/

/-- The state of an opened day before its OPENING entries: the control record started afresh (R64). -/
def openCleared (b : OpenBody) (s : State) : State :=
  let s := writeControl (fun _ => ⟨b.date, some .opened, 0, 0, 0, true⟩) s
  let s := { s with jc := { s.jc with unreadable := false, lowSpace := false, pendingCount := 0 } }
  { s with clock := { s.clock with midnights := 0 } }

/-- The OPENING entries of a day (R64). -/
def openingEntries (src : OpenSource) (b : OpenBody) (s : State) : List EntryBody :=
  allPos.map fun p => .opening p b.date src (b.discard && s.day.state == .closed true) (rd (openingAmounts b s) p)

/-- What an opened day starts with beside its journal (R64). -/
def openStarted (b : OpenBody) (amounts : Vector (Vector Int 8) 16) (s : State) : State :=
  let s := { s with drawers := tabV fun p => openDrawer (rd amounts p), groups := Vector.replicate 16 none }
  let s := { s with posns := mapV s.posns openPosition }
  let s := { s with screens := mapV s.screens openScreen, store := [] }
  let s := (abandonBatch s).updEngine fun e => { e with lastBatch := 0 }
  setDay .opened (s.updDay fun d => { d with date := some b.date, alarm := none })

theorem openStarted_quiet (b : OpenBody) (amounts : Vector (Vector Int 8) 16) (s : State) : Quiet s (openStarted b amounts s) :=
  ⟨rfl, rfl, rfl, rfl⟩

theorem openEvent_eq (src : OpenSource) (b : OpenBody) (s : State) :
    openEvent src b s = openStarted b (openingAmounts b s) (appendAll (openingEntries src b s) (openCleared b s)) := by
  unfold openEvent
  extract_lets amounts mark a1 a2 a3 a4 a5 a6
  have cleared : a5 = openCleared b s := rfl
  have entered : a6 = appendAll (openingEntries src b s) a5 := rfl
  rw [← cleared, ← entered]
  clear_value a6
  rfl

theorem enterCutoff_writes {c : CutoffCause} {u : State} (ok : enterCutoff c t = .ok u) (h : Writes standIn ack s t) :
    Writes standIn ack s u := by
  unfold enterCutoff at ok
  split at ok
  · cases ok
  · rw [← Except.ok.inj ok]
    have entered := append_writes (.cutoff c) (fun p => nomatch p) (placeMidnight_writes .control h)
    exact .quiet (writeControl_writes (fun c => { c with day := some .cutoff }) entered) ⟨rfl, rfl, rfl, rfl⟩

theorem appendClose_writes (f : Bool) (d : RecDay) (h : Writes standIn ack s t) : Writes standIn ack s (appendClose f d t) :=
  appendWith_writes _ _ (fun p => nomatch p) h

/-- The journal of a day that enters CLOSING: its jobs removed, then the BACKLOG entries and the CLOSE entry (R67). -/
def closingJournaled (s : State) : State :=
  appendClose false .closing ((backlogs (removeAllJobs s)).foldl appendBacklog (placeMidnight .closing (removeAllJobs s)))

/-- The retained store written at the entry to CLOSING, the store empty (R67, R73). -/
def closingRetained (rb : Option RetainedRec) (s : State) : State :=
  writeRetained .closing rb { closingJournaled s with store := [] }

/-- The DAY_CLOSING report of a state that has entered CLOSING (R67). -/
def reportClosing (backlogs : Nat) (s : State) : State :=
  report 255 (.dayClosing (businessDate s) (slotsUsed s) s.nv.control.fields.entryCount backlogs (!s.day.retainedBad)) s

theorem enterClosing_eq (rb : Option RetainedRec) (s : State) : enterClosing rb s =
    if fits .closing ((backlogs (removeAllJobs s)).length + 1) (removeAllJobs s) = false then s
    else dayBatchAtClosing (reportClosing (backlogs (removeAllJobs s)).length (setDay .closing (closingRetained rb s))) := rfl

theorem enterClosing_writes (rb : Option RetainedRec) (h : Writes standIn ack s t) :
    Writes standIn ack s (enterClosing rb t) := by
  have jobs : Writes standIn ack s (removeAllJobs t) := .quiet h (by simp [Quiet])
  have journaled : Writes standIn ack s (closingJournaled t) :=
    appendClose_writes _ _ (appendBacklogs_writes _ (placeMidnight_writes .closing jobs))
  have emptied := journaled.quiet (store_quiet [] _)
  have retained : Writes standIn ack s (closingRetained rb t) := writeRetained_writes _ _ emptied
  rw [enterClosing_eq]
  split
  · exact h
  · exact .quiet retained (by simp [Quiet, reportClosing])

theorem abandonEntries_plain (u : State) : ∀ b ∈ abandonEntries u, firstForward b ≠ .pending := by
  intro b hb
  obtain ⟨p, -, e⟩ := List.mem_filterMap.1 hb
  obtain ⟨c, -, rfl⟩ := Option.map_eq_some_iff.1 e
  exact fun p => nomatch p

theorem forceCloseEntries_writes (ab : List EntryBody) (hab : ∀ b ∈ ab, firstForward b ≠ .pending)
    (h : Writes standIn ack s t) : Writes standIn ack s (forceCloseEntries ab t).1 := by
  have entered := appendAll_writes ab hab (placeMidnight_writes .closing h)
  unfold forceCloseEntries
  dsimp only
  split
  · exact appendClose_writes _ _ (appendBacklogs_writes _ entered)
  · exact appendClose_writes _ _ entered

theorem forceJournaled_writes (h : Writes standIn ack s t) : Writes standIn ack s (forceJournaled t).1 := by
  have cleared : Writes standIn ack s (forceCleared t) := .quiet h (by simp [Quiet, forceCleared])
  unfold forceJournaled
  split
  · exact writeControl_writes (fun c => { c with day := some .closed, undelivered := true }) cleared
  · exact forceCloseEntries_writes _ (abandonEntries_plain _) cleared

theorem forceCloseEvent_writes (rb : Option RetainedRec) (h : Writes standIn ack s t) :
    Writes standIn ack s (forceCloseEvent rb t).1 := by
  rw [forceCloseEvent_eq]
  have emptied := (forceJournaled_writes h).quiet (u := abandonBatch { (forceJournaled t).1 with store := [] })
    (by simp [Quiet])
  exact .quiet (writeRetained_writes .forceClose rb emptied) ⟨rfl, rfl, rfl, rfl⟩

theorem openingEntries_plain (b : OpenBody) (src : OpenSource) (mark : Bool) (amounts : Vector (Vector Int 8) 16) :
    ∀ x ∈ allPos.map (fun p => EntryBody.opening p b.date src mark (rd amounts p)), firstForward x ≠ .pending := by
  intro x hx
  obtain ⟨p, -, rfl⟩ := List.mem_map.1 hx
  exact fun p => nomatch p

theorem openEvent_writes (src : OpenSource) (b : OpenBody) (h : Writes standIn ack s t) :
    Writes standIn ack s (openEvent src b t) := by
  have written := writeControl_writes (fun _ => ⟨b.date, some .opened, 0, 0, 0, true⟩) h
  have cleared : Writes standIn ack s (openCleared b t) := by
    unfold openCleared
    exact .quiet written ⟨rfl, rfl, rfl, rfl⟩
  rw [openEvent_eq]
  exact .quiet (appendAll_writes _ (openingEntries_plain b src _ _) cleared) (openStarted_quiet ..)

theorem deliverDay_writes (f : Bool) (h : Writes standIn ack s t) : Writes standIn ack s (deliverDay f t) :=
  .quiet (writeControl_writes (fun c => { c with day := some .closed, undelivered := false }) h) (by simp [Quiet, deliverDay])

theorem takeCompletion_writes (d : Nat) (h : Writes standIn ack s t) : Writes standIn ack s (takeCompletion d t) := by
  unfold takeCompletion
  split
  · exact h
  · split
    · exact deliverDay_writes _ h
    · exact deliverDay_writes _ h
    · exact h

theorem recoveryAppend_writes (d : RecDay) (r : Replay) (h : Writes standIn ack s t) :
    Writes standIn ack s (recoveryAppend d r t).1 := by
  unfold recoveryAppend
  dsimp only
  split
  · refine appendAll_writes _ (fun b hb => ?_) h
    rcases List.mem_append.1 hb with hb | hb
    · obtain ⟨p, -, e⟩ := List.mem_filterMap.1 hb
      obtain ⟨c, -, rfl⟩ := Option.map_eq_some_iff.1 e
      exact fun p => nomatch p
    · rw [List.mem_singleton.1 hb]
      exact fun p => nomatch p
  · exact h

theorem finishRecovery_writes (d : RecDay) (r : Replay) (rb : Option RetainedRec) (h : Writes standIn ack s t) :
    Writes standIn ack s (finishRecovery d r rb t) := by
  have appended := recoveryAppend_writes d r (h.quiet (u := { t with jc := { t.jc with replay := none } }) ⟨rfl, rfl, rfl, rfl⟩)
  have told (x : DayState) (y : Report) := appended.quiet (Quiet.trans (t := setDay x _) ⟨rfl, rfl, rfl, rfl⟩
    (report_quiet 255 y _))
  unfold finishRecovery
  dsimp only
  split
  · exact .quiet (writeRetained_writes _ _ (told _ _)) ⟨rfl, rfl, rfl, rfl⟩
  · exact .quiet (told _ _) ⟨rfl, rfl, rfl, rfl⟩

/-! ### Acknowledgements -/

theorem ackBlock_writes (k : BatchKind) (n : Nat) (h : Writes standIn true s t) :
    Writes standIn true s (ackBlock k n t) := by
  have forwards (xs : List (Nat × Entry)) (u : State) (h : Writes standIn true s u) :
      Writes standIn true s (xs.foldl (fun s x => changeForward x.2.seq s) u) := by
    induction xs generalizing u with
    | nil => exact h
    | cons x xs ih => exact ih _ (changeForward_writes _ h)
  unfold ackBlock
  split
  · exact h
  · cases k with
    | day => exact .quiet (setDelivered_writes _ h) ⟨rfl, rfl, rfl, rfl⟩
    | forward => exact .quiet (forwards _ _ h) ⟨rfl, rfl, rfl, rfl⟩

theorem ackThrough_writes (b : Batch) (n : Nat) (h : Writes standIn true s t) :
    Writes standIn true s (ackThrough b n t) := by
  have blocks (is : List Nat) (u : State) (h : Writes standIn true s u) :
      Writes standIn true s (is.foldl (fun s i => ackBlock b.kind i s) u) := by
    induction is generalizing u with
    | nil => exact h
    | cons i is ih => exact ih _ (ackBlock_writes _ _ h)
  exact .quiet (blocks _ _ h) ⟨rfl, rfl, rfl, rfl⟩

/-- What follows the acknowledged blocks of an ACCEPT (R163, R168). -/
theorem acceptAck_quiet (b : Batch) (n : Nat) (t : State) : Quiet (ackThrough b n t) (acceptAck b n t) := by
  unfold acceptAck
  dsimp only
  (repeat' split) <;> simp [Quiet]

theorem refuseAck_writes (b : Batch) (n : Nat) (h : Writes standIn true s t) :
    Writes standIn true s (refuseAck b n t) := by
  have failed (u : State) (h : Writes standIn true s u) : Writes standIn true s (failBatch (.refused n) u) :=
    .quiet h (by simp [Quiet])
  unfold refuseAck
  dsimp only
  split
  · exact failed _ (ackThrough_writes _ _ h)
  · exact failed _ h

theorem takeAck_writes (a : AckBody) (h : Writes standIn true s t) : Writes standIn true s (takeAck a t) := by
  unfold takeAck
  split
  · exact h
  · split
    · split
      · exact .quiet (ackThrough_writes _ _ h) (acceptAck_quiet ..)
      · exact refuseAck_writes _ _ h
    · exact h

end

end Sys2Proof.Machine

namespace Sys2Proof.Machine

/-! ## The writes of a command -/

section
variable {standIn ack : Bool} {s t u : State}

theorem Writes.trans (h : Writes standIn ack s t) (k : Writes standIn ack t u) : Writes standIn ack s u := by
  induction k with
  | start => exact h
  | quiet _ q ih => exact ih.quiet q
  | write w _ m ih => exact ih.write w m

/-- A command that answers a next state, its writes all of those its event may make; without power it changes nothing. -/
def Makes (standIn ack : Bool) (o : State → Host.Outcome State Fault Refusal) : Prop :=
  (∀ s, s.powered = true → ∃ t, o s = .next t ∧ Writes standIn ack s.begin t) ∧ ∀ s, s.powered = false → o s = .next s

theorem event_unpowered (f : State → State) {s : State} (h : s.powered = false) : Machine.event f s = .next s := by
  simp [Machine.event, h]

variable {f : State → State}

theorem Makes.event (h : ∀ s, Writes standIn ack s (f s)) : Makes standIn ack (event f) :=
  ⟨fun s hp => ⟨_, event_eq f hp, h s.begin⟩, fun _ hp => event_unpowered f hp⟩

theorem Makes.quiet (h : ∀ s, Quiet s (f s)) : Makes standIn ack (Machine.event f) := .event fun s => .of_quiet (h s)

theorem arrive_quiet (s : State) : Quiet s (arrive s) := by simp [Quiet]

theorem reply_quiet (h : Hdr) (st : Status) (s : State) : Quiet s (reply h st s) := by simp [Quiet]

theorem replyWith_quiet (h : Hdr) (st : Status) (x : Extra) (s : State) : Quiet s (replyWith h st x s) := by simp [Quiet]

theorem tone_quiet (p : Pos) (s : State) : Quiet s (tone p s) := by simp [Quiet]

theorem Makes.message {hd : Hdr} (h : ∀ s, Writes standIn ack s (f s)) : Makes standIn ack (message hd f) := by
  refine .event fun s => (Writes.of_quiet (arrive_quiet s)).trans ?_
  dsimp only
  split
  · exact .of_quiet (reply_quiet ..)
  · exact h _

theorem Makes.tableMessage (h : ∀ s, Quiet s (f s)) : Makes standIn ack (tableMessage f) :=
  .quiet fun s => (arrive_quiet s).trans (h _)

theorem Makes.silentMessage (h : ∀ s, Writes standIn ack s (f s)) : Makes standIn ack (silentMessage f) := by
  refine .event fun s => (Writes.of_quiet (arrive_quiet s)).trans ?_
  dsimp only
  split
  · exact .start
  · exact h _

theorem takeNotices_quiet (s : State) : Quiet s (takeNotices s) := by simp [Quiet]

theorem withNotices_writes (b : Bool) (h : ∀ s, Writes standIn ack s (f s)) (s : State) :
    Writes standIn ack s (withNotices b f s) := by
  cases b with
  | false => exact h s
  | true => exact (Writes.of_quiet (takeNotices_quiet s)).trans (h _)

theorem atPosition_writes {hd : Hdr} {g : Pos → State → State} (h : ∀ p s, Writes standIn ack s (g p s)) (s : State) :
    Writes standIn ack s (atPosition hd g s) := by
  unfold atPosition
  split
  · exact h _ s
  · exact .of_quiet (reply_quiet ..)

theorem takeToken_writes {p : Pos} {want : Token → Bool} {act : Token → State → State}
    (h : ∀ t s, Writes standIn ack s (act t s)) (s : State) : Writes standIn ack s (takeToken p want act s) := by
  have popped (q : List Token) : Writes standIn ack s (s.updKeys p fun k => { k with queue := q }) :=
    .of_quiet ⟨rfl, rfl, rfl, rfl⟩
  unfold takeToken
  split
  · exact .start
  · dsimp only
    split
    · split
      · exact .start
      · exact (popped _).trans (h _ _)
      · split
        · exact (popped _).trans (h _ _)
        · exact (popped _).quiet (tone_quiet ..)
      · exact (popped _).quiet (tone_quiet ..)
    · exact .start

theorem Makes.key {p : Pos} {want : Token} (h : ∀ s, Writes standIn ack s (f s)) : Makes standIn ack (keyCommand p want f) :=
  .event (takeToken_writes fun _ s => h s)

/-! ### Loads and queries -/

theorem answerLoad_quiet (hd : Hdr) {r : Except Status State} {s : State} (h : ∀ t, r = .ok t → Quiet s t) :
    Quiet s (answerLoad hd r s) := by
  unfold answerLoad
  split
  · exact (h _ rfl).trans (reply_quiet ..)
  · exact reply_quiet ..

theorem loadFormFields_quiet (hd : Hdr) (i : Nat) (c : Content FormDesc) (s : State) : Quiet s (loadFormFields hd i c s) :=
  answerLoad_quiet hd fun t ok => by split_ifs at ok; cases ok; exact .rfl _

theorem loadFormText_quiet (hd : Hdr) (i : Nat) (c : Content FormText) (s : State) : Quiet s (loadFormText hd i c s) :=
  answerLoad_quiet hd fun t ok => by split_ifs at ok; cases ok; exact .rfl _

theorem loadCode_quiet (hd : Hdr) (i : Nat) (c : Content CodeEntry) (s : State) : Quiet s (loadCode hd i c s) :=
  answerLoad_quiet hd fun t ok => by split_ifs at ok; cases ok; exact .rfl _

theorem loadCurrency_quiet (hd : Hdr) (i : Nat) (c : Content CurrencyEntry) (s : State) : Quiet s (loadCurrency hd i c s) :=
  answerLoad_quiet hd fun t ok => by split_ifs at ok; cases ok; exact .rfl _

theorem loadRate_quiet (hd : Hdr) (i : Nat) (c : Content RateEntry) (s : State) : Quiet s (loadRate hd i c s) :=
  answerLoad_quiet hd fun t ok => by split_ifs at ok; cases ok; exact .rfl _

theorem loadLimit_quiet (hd : Hdr) (i : Nat) (c : Content Nat) (s : State) : Quiet s (loadLimit hd i c s) :=
  answerLoad_quiet hd fun t ok => by split_ifs at ok; cases ok; exact .rfl _

theorem loadPosition_quiet (hd : Hdr) (i : Nat) (c : Content PositionEntry) (s : State) : Quiet s (loadPosition hd i c s) := by
  refine answerLoad_quiet hd fun t ok => ?_
  split at ok
  · cases ok
  · dsimp only at ok
    split_ifs at ok
    cases ok
    exact .rfl _

theorem loadLayout_quiet (hd : Hdr) (i : Nat) (c : Content Layout) (s : State) : Quiet s (loadLayout hd i c s) :=
  answerLoad_quiet hd fun t ok => by split_ifs at ok; cases ok; exact .rfl _

theorem loadParams_quiet (hd : Hdr) (i : Nat) (c : Content Params) (s : State) : Quiet s (loadParams hd i c s) :=
  answerLoad_quiet hd fun t ok => by split_ifs at ok; cases ok; exact .rfl _

theorem loadBare_quiet (hd : Hdr) (body : Option (Nat × Nat)) (s : State) : Quiet s (loadBare hd body s) := by
  unfold loadBare
  split
  · exact reply_quiet ..
  · split
    · exact loadFormFields_quiet ..
    · exact loadFormText_quiet ..
    · exact loadCode_quiet ..
    · exact loadCurrency_quiet ..
    · exact loadRate_quiet ..
    · exact loadLimit_quiet ..
    · exact loadPosition_quiet ..
    · exact loadLayout_quiet ..
    · exact loadParams_quiet ..
    · split <;> exact reply_quiet ..

theorem answerQuery_quiet (hd : Hdr) (t i : Nat) (s : State) : Quiet s (answerQuery hd t i s) := by
  unfold answerQuery
  split
  · exact replyWith_quiet ..
  · exact reply_quiet ..

/-! ### Commands that leave the journal memory -/

/-- Whether a command is a TRANSFER ACK (R164). -/
def isAck : Instr → Bool
  | .transferAck .. => true
  | _ => false

theorem openDay_makes (hd : Hdr) (b : OpenBody) : Makes standIn ack (execOpen hd b) := by
  refine .message fun s => ?_
  split
  · exact .of_quiet (reply_quiet ..)
  · split
    · exact .of_quiet (reply_quiet ..)
    · exact .of_quiet (reply_quiet ..)
    · exact .quiet (openEvent_writes _ b .start) (reply_quiet ..)

theorem closeDay_makes (hd : Hdr) : Makes standIn ack (execClose hd) := by
  refine .message fun s => ?_
  split
  · exact .of_quiet (reply_quiet ..)
  · split
    · exact .of_quiet (reply_quiet ..)
    · next ok => exact .quiet (enterCutoff_writes ok .start) ((reply_quiet ..).trans (report_quiet ..))

theorem forceClose_makes (hd : Hdr) (rb : Option RetainedRec) : Makes standIn ack (execForceClose hd rb) := by
  refine .message fun s => ?_
  split
  · exact .of_quiet (reply_quiet ..)
  · exact .quiet (forceCloseEvent_writes rb .start) ((reply_quiet ..).trans (report_quiet ..))

theorem sendDay_makes (h : EngineHdr) : Makes standIn ack (execSendDay h) := by
  refine .message fun s => ?_
  split
  · refine withNotices_writes _ (fun s => .of_quiet (Quiet.trans ?_ (reply_quiet ..))) s
    unfold sendDayEffect
    split
    · simp [Quiet]
    · split <;> simp [Quiet]
  · exact .of_quiet (reply_quiet ..)

theorem takeSendForward_quiet (hd : Hdr) (s : State) : Quiet s (takeSendForward hd s) := by
  unfold takeSendForward sendForwardEffect
  (repeat' split) <;> simp [Quiet]

theorem sendForward_makes (h : EngineHdr) (k : SendKind) : Makes standIn ack (execSendForward h k) := by
  refine .message fun s => ?_
  cases k with
  | noKnownRequest => exact .of_quiet (reply_quiet ..)
  | noKnownKind => exact withNotices_writes _ (fun s => .of_quiet (reply_quiet ..)) s
  | forward => exact withNotices_writes _ (fun s => .of_quiet (takeSendForward_quiet ..)) s

theorem signOn_makes (hd : Hdr) (b : SignOnBody) : Makes standIn ack (execSignOn hd b) := by
  refine .message fun s => ?_
  split
  · exact .of_quiet (reply_quiet ..)
  · refine atPosition_writes (fun p s => .of_quiet ?_) s
    unfold signOnRequest
    (repeat' split) <;> simp [Quiet, signOnPos]

theorem forceOffBalancing_writes (hd : Hdr) (p : Pos) (s : State) : Writes standIn ack s (forceOffBalancing hd p s) := by
  unfold forceOffBalancing
  split
  · exact .of_quiet (by simp [Quiet])
  · split
    · exact .of_quiet (reply_quiet ..)
    · exact .quiet (abandonBalance_writes _ _ .start) (reply_quiet ..)

theorem forceSignOff_makes (hd : Hdr) : Makes standIn ack (execForceSignOff hd) := by
  refine .message (atPosition_writes fun p s => ?_)
  split
  · exact .of_quiet (reply_quiet ..)
  · exact .of_quiet (by simp [Quiet])
  · exact .of_quiet (by simp [Quiet])
  · exact forceOffBalancing_writes ..

theorem unlock_makes (hd : Hdr) : Makes standIn ack (execUnlock hd) := by
  refine .message (atPosition_writes fun p s => ?_)
  split <;> exact .of_quiet (by simp [Quiet])

theorem withKind_writes {hd : Hdr} {k : Option BalKind} {g : BalKind → State → State}
    (h : ∀ k s, Writes standIn ack s (g k s)) (s : State) : Writes standIn ack s (withKind hd k g s) := by
  cases k with
  | none => exact .of_quiet (reply_quiet ..)
  | some k => exact h k s

theorem balanceRequest_makes (hd : Hdr) (k : Option BalKind) : Makes standIn ack (execPositionControlBalance hd k) := by
  refine .message (withKind_writes fun k s => ?_)
  split
  · exact .of_quiet (reply_quiet ..)
  · refine atPosition_writes (fun p s => ?_) s
    split
    · exact .of_quiet (reply_quiet ..)
    · split
      · exact .of_quiet (reply_quiet ..)
      · exact .quiet (singleBalance_writes _ _ .start) (reply_quiet ..)

theorem groupRequest_makes (hd : Hdr) (k : Option BalKind) : Makes standIn ack (execPositionControlGroupBalance hd k) := by
  refine .message (withKind_writes fun k s => ?_)
  split
  · exact .of_quiet (reply_quiet ..)
  · refine atPosition_writes (fun p s => ?_) s
    split
    · exact .of_quiet (reply_quiet ..)
    · exact .quiet (groupBalanceEvent_writes _ _ .start) (reply_quiet ..)

theorem post_makes (hd : Hdr) (b : PostBody) : Makes standIn ack (execPost hd b) := by
  refine .message fun s => ?_
  split
  · exact .of_quiet (reply_quiet ..)
  · split
    · exact .of_quiet (reply_quiet ..)
    · exact takePost_writes _ _ _ (fun o => nomatch o) .start

theorem bookLines_makes (hd : Hdr) (b : BookLinesBody) : Makes standIn ack (execBookLines hd b) := by
  refine .message fun s => ?_
  split
  · exact .of_quiet (reply_quiet ..)
  · split
    · exact .of_quiet (reply_quiet ..)
    · split
      · exact .of_quiet (reply_quiet ..)
      · exact takeBookLines_writes _ _ _ _ _ .start

theorem finishScreen_quiet (hd : Hdr) (p : Pos) (b : Bool) (s : State) : Quiet s (finishScreen hd p b s) := by simp [Quiet]

theorem paint_makes (hd : Hdr) (b : PaintBody) : Makes standIn ack (execPaint hd b) := by
  refine .message (atPosition_writes fun p s => .of_quiet ?_)
  split
  · exact reply_quiet ..
  · exact Quiet.trans (by simp [Quiet]) (finishScreen_quiet ..)

theorem form_makes (hd : Hdr) (n : Nat) (b : Bool) : Makes standIn ack (execForm hd n b) := by
  refine .message (atPosition_writes fun p s => .of_quiet ?_)
  split
  · split
    · exact Quiet.trans (by simp [Quiet]) (finishScreen_quiet ..)
    · exact reply_quiet ..
  · exact reply_quiet ..

theorem notice_makes (hd : Hdr) (b : NoticeBody) : Makes standIn ack (execNotice hd b) := by
  refine .message (atPosition_writes fun p s => .of_quiet ?_)
  split
  · exact reply_quiet ..
  · exact Quiet.trans (by simp [Quiet]) (finishScreen_quiet ..)

theorem setTime_makes (hd : Hdr) (n : Nat) : Makes standIn ack (execSetTime hd n) := by
  refine .message fun s => .of_quiet ?_
  split
  · exact reply_quiet ..
  · exact Quiet.trans ⟨rfl, rfl, rfl, rfl⟩ (reply_quiet hd .accepted (setClock n s))

theorem setCutoff_makes (hd : Hdr) (n : Nat) : Makes standIn ack (execSetCutoff hd n) := by
  refine .message fun s => .of_quiet ?_
  split
  · exact reply_quiet ..
  · exact Quiet.trans ⟨rfl, rfl, rfl, rfl⟩ (reply_quiet hd .accepted (s.updDay _))

theorem clearCutoff_makes (hd : Hdr) : Makes standIn ack (execClearCutoff hd) :=
  .message fun s => .of_quiet (Quiet.trans ⟨rfl, rfl, rfl, rfl⟩ (reply_quiet hd .accepted (s.updDay _)))

theorem eachPos_quiet {f : Pos → State → State} (h : ∀ p s, Quiet s (f p s)) (s : State) : Quiet s (eachPos f s) := by
  unfold eachPos
  generalize allPos = ps
  induction ps generalizing s with
  | nil => exact .rfl s
  | cons p ps ih => exact (h p s).trans (ih _)

theorem release_quiet (p : Pos) (s : State) : Quiet s (release p s) := by simp [Quiet]

theorem repaint_quiet (p : Pos) (s : State) : Quiet s (repaint p s) := by simp [Quiet, repaint]

theorem removeAllJobs_quiet (s : State) : Quiet s (removeAllJobs s) := by simp [Quiet]

theorem restartEngine_quiet (s : State) : Quiet s (restartEngine s) := by simp [Quiet]

theorem restart_makes (h : EngineHdr) : Makes standIn ack (execRestart h) := by
  refine .silentMessage fun s => ?_
  unfold restart
  dsimp only
  have keys : Quiet s { s with keys := mapV s.keys KeyUnit.restart } := ⟨rfl, rfl, rfl, rfl⟩
  have shown := (keys.trans (eachPos_quiet release_quiet _)).trans (eachPos_quiet repaint_quiet _)
  exact (Writes.of_quiet (shown.trans (removeAllJobs_quiet _))).trans
    (withNotices_writes _ (fun s => .of_quiet (restartEngine_quiet s)) _)

theorem transferAck_makes (h : EngineHdr) (b : AckBody) : Makes standIn true (execTransferAck h b) :=
  .silentMessage (withNotices_writes _ fun _ => takeAck_writes b .start)

theorem tableQuery_makes (hd : Hdr) (b : Option (Nat × Nat)) : Makes standIn ack (execTableQuery hd b) := by
  refine .tableMessage fun s => ?_
  split
  · exact reply_quiet ..
  · exact answerQuery_quiet ..

/-- A message makes no PENDING entry, and a TRANSFER ACK alone makes a FORWARDED one. -/
theorem takeMessage_makes (c : Instr) : Makes standIn (isAck c) (takeMessage c) := by
  cases c with
  | unknownKind hd k =>
    show Makes _ _ (execUnknownKind hd k)
    unfold execUnknownKind
    split
    · exact .quiet fun s => .rfl s
    · exact .message fun s => .of_quiet (reply_quiet ..)
  | lineCheck => exact .quiet arrive_quiet
  | paint hd b => exact paint_makes hd b
  | form hd n b => exact form_makes hd n b
  | notice hd b => exact notice_makes hd b
  | post hd b => exact post_makes hd b
  | bookLines hd b => exact bookLines_makes hd b
  | formFieldsLoad hd i c => exact .tableMessage (loadFormFields_quiet hd i c)
  | formTextLoad hd i c => exact .tableMessage (loadFormText_quiet hd i c)
  | postingCodesLoad hd i c => exact .tableMessage (loadCode_quiet hd i c)
  | currenciesLoad hd i c => exact .tableMessage (loadCurrency_quiet hd i c)
  | ratesLoad hd i c => exact .tableMessage (loadRate_quiet hd i c)
  | limitClassesLoad hd i c => exact .tableMessage (loadLimit_quiet hd i c)
  | positionsLoad hd i c => exact .tableMessage (loadPosition_quiet hd i c)
  | bookLayoutsLoad hd i c => exact .tableMessage (loadLayout_quiet hd i c)
  | parametersLoad hd i c => exact .tableMessage (loadParams_quiet hd i c)
  | tableLoadReadOnly hd b => exact .tableMessage (loadBare_quiet hd b)
  | tableQuery hd b => exact tableQuery_makes hd b
  | positionsQuery hd i => exact .tableMessage (answerQuery_quiet hd 7 i)
  | drawerQuery hd i => exact .tableMessage (answerQuery_quiet hd 10 i)
  | printerStatusQuery hd i => exact .tableMessage (answerQuery_quiet hd 11 i)
  | journalStatusQuery hd i => exact .tableMessage (answerQuery_quiet hd 12 i)
  | dayAndLineStatusQuery hd i => exact .tableMessage (answerQuery_quiet hd 13 i)
  | openDay hd b => exact openDay_makes hd b
  | closeDay hd => exact closeDay_makes hd
  | setTime hd n => exact setTime_makes hd n
  | setCutoff hd n => exact setCutoff_makes hd n
  | clearCutoff hd => exact clearCutoff_makes hd
  | forceClose hd rb => exact forceClose_makes hd rb
  | sendDay h => exact sendDay_makes h
  | sendForward h k => exact sendForward_makes h k
  | signOn hd b => exact signOn_makes hd b
  | forceSignOff hd => exact forceSignOff_makes hd
  | unlock hd => exact unlock_makes hd
  | positionControlBalance hd k => exact balanceRequest_makes hd k
  | positionControlGroupBalance hd k => exact groupRequest_makes hd k
  | transferAck h b => exact transferAck_makes h b
  | restart h => exact restart_makes h
  | _ => exact .quiet fun s => .rfl s

end

end Sys2Proof.Machine

namespace Sys2Proof.Machine

section
variable {standIn ack : Bool}

/-! ### The commands that are no messages -/

/-- Whether a command is the take of a TRANSMIT, which alone can make a stand-in posting (R119). -/
def isTransmit : Instr → Bool
  | .transmit _ => true
  | _ => false

theorem replayAct_quiet (e : Entry) (r : Replay) (s : State) : Quiet s (replayAct e r s).2 := by
  have line (l : Option (Account × Option Nat × PLine)) (t : State) : Quiet t (readdLine e l t).1 := by
    unfold readdLine
    (repeat' split) <;> simp [Quiet]
  have legs (gs : List Leg) (t : State) : Quiet t (applyLegs gs t) := applyLegs_quiet ..
  unfold replayAct
  split
  case h_2 q _ =>
    have added := (legs q.legs s).trans (line (postingLine (businessDate s) e.seq q) _)
    dsimp only
    (repeat' split) <;> exact added.trans ⟨rfl, rfl, rfl, rfl⟩
  case h_3 => exact line _ _
  case h_5 => exact legs _ _
  all_goals exact ⟨rfl, rfl, rfl, rfl⟩

theorem replayNext_quiet (r : Replay) (s : State) : Quiet s (replayNext r s) := by
  have failed (n : Nat) : Quiet s (failReplay n s) := by
    unfold failReplay
    exact Quiet.trans ⟨rfl, rfl, rfl, rfl⟩ (report_quiet ..)
  unfold replayNext
  split
  · exact failed _
  · split
    · exact failed _
    · split
      · exact failed _
      · exact (replayAct_quiet _ r s).trans ⟨rfl, rfl, rfl, rfl⟩

theorem replayEntry_makes : Makes standIn ack execReplayEntry := by
  refine .quiet fun s => ?_
  split
  · exact .rfl s
  · split
    · exact replayNext_quiet ..
    · exact .rfl s

theorem recoveryFinish_makes (rb : Option RetainedRec) : Makes standIn ack (execRecoveryFinish rb) := by
  refine .event fun s => ?_
  split
  · split
    · exact finishRecovery_writes _ _ _ .start
    · exact .start
  · exact .start

theorem setCursor_quiet (p : Pos) (i x : Nat) (s : State) : Quiet s (setCursor p i x s) := by simp [Quiet]

theorem atCursor_quiet {p : Pos} {f : Nat → FieldDesc → State → State} (h : ∀ i d s, Quiet s (f i d s)) (s : State) :
    Quiet s (atCursor p f s) := by
  unfold atCursor
  split
  · exact tone_quiet ..
  · split
    · exact tone_quiet ..
    · exact h _ _ s

theorem typeChar_quiet (p : Pos) (b : Byte) (s : State) : Quiet s (typeChar p b s) := by
  refine atCursor_quiet (fun i d s => ?_) s
  unfold typeText
  dsimp only
  (repeat' split) <;> simp [Quiet]

theorem backspaceField_quiet (p : Pos) (s : State) : Quiet s (backspaceField p s) := by
  refine atCursor_quiet (fun i d s => ?_) s
  dsimp only
  (repeat' split) <;> simp [Quiet]

theorem eraseCursorField_quiet (p : Pos) (s : State) : Quiet s (eraseCursorField p s) := by
  refine atCursor_quiet (fun i d s => ?_) s
  split <;> simp [Quiet]

theorem character_makes (p : Pos) : Makes standIn ack (execCharacter p) := by
  refine .event (takeToken_writes fun t s => .of_quiet ?_)
  split
  · exact typeChar_quiet ..
  · exact .rfl s

theorem clear_makes (p : Pos) : Makes standIn ack (execClear p) := by
  refine .key fun s => .of_quiet ?_
  split <;> simp [Quiet]

theorem standInAttempt_writes (p : Pos) (d : FormDesc) (s : State) : Writes true ack s (standInAttempt p d s) := by
  have numbered : Writes true ack s (s.updPos p nextEntryNo) := .of_quiet ⟨rfl, rfl, rfl, rfl⟩
  unfold standInAttempt
  dsimp only
  split
  · refine .quiet numbered ?_
    unfold refuseStandIn
    dsimp only
    split <;> simp [Quiet]
  · exact takeStandIn_writes _ _ _ numbered

theorem sendEntry_quiet (p : Pos) (n : Fin 32) (d : FormDesc) (s : State) : Quiet s (sendEntry p n d s) := by
  unfold sendEntry
  split <;> simp [Quiet]

theorem sendSignOn_quiet (p : Pos) (n : Fin 32) (d : FormDesc) (s : State) : Quiet s (sendSignOn p n d s) := by
  unfold sendSignOn
  split <;> simp [Quiet]

theorem routeTransmit_writes (p : Pos) (n : Fin 32) (d : FormDesc) (s : State) :
    Writes true ack s (routeTransmit p n d s) := by
  unfold routeTransmit
  split
  · split
    · exact .of_quiet (sendSignOn_quiet ..)
    · exact .of_quiet (by simp [Quiet])
  · split
    · exact .of_quiet (tone_quiet ..)
    · split
      · exact .of_quiet (sendEntry_quiet ..)
      · exact standInAttempt_writes ..
  · exact declare_writes p d .start
  · exact .start

theorem transmit_makes (p : Pos) : Makes true ack (execTransmit p) := by
  refine .key fun s => ?_
  unfold transmitForm
  split
  · exact .of_quiet (tone_quiet ..)
  · split
    · exact .of_quiet (tone_quiet ..)
    · split
      · exact .of_quiet (by simp [Quiet])
      · exact routeTransmit_writes ..

theorem printBook_makes (p : Pos) : Makes standIn ack (execPrintBook p) := by
  refine .key fun s => .of_quiet ?_
  unfold printBookOf
  (repeat' split) <;> simp [Quiet]

theorem cancelBook_makes (p : Pos) : Makes standIn ack (execCancelBook p) := by
  refine .key fun s => .of_quiet ?_
  unfold cancelBookOf
  (repeat' split) <;> simp [Quiet]

theorem keyToken_makes (p : Pos) (t : Token) : Makes standIn ack (execKeyToken p t) := by
  refine .quiet fun s => ?_
  split <;> simp [Quiet]

theorem reviewUp_makes (p : Pos) : Makes standIn ack (execReviewUp p) := by
  refine .quiet fun s => ?_
  split <;> simp [Quiet]

theorem reviewDown_makes (p : Pos) : Makes standIn ack (execReviewDown p) := by
  refine .quiet fun s => ?_
  split <;> simp [Quiet]

theorem rowSend_makes (p : Pos) : Makes standIn ack (execRowSend p) := by
  refine .quiet fun s => ?_
  unfold sendRow
  (repeat' split) <;> simp [Quiet]

theorem entryTimerExpiry_makes (p : Pos) : Makes standIn ack (execEntryTimerExpiry p) := by
  refine .quiet fun s => ?_
  (repeat' split) <;> simp [Quiet]

theorem lineLoss_makes : Makes standIn ack execLineLoss := by
  refine .quiet fun s => ?_
  split
  · have down : Quiet s (s.updLine fun l => { l with state := .standIn, timer := none }) := ⟨rfl, rfl, rfl, rfl⟩
    exact (down.trans (eachPos_quiet release_quiet _)).trans (by simp [Quiet, loseLine])
  · exact .rfl s

theorem clockAdvance_makes : Makes standIn ack execClockAdvance := by
  refine .quiet fun s => ?_
  unfold advanceClock
  dsimp only
  (repeat' split) <;> exact ⟨rfl, rfl, rfl, rfl⟩

theorem cutoffAlarmFire_makes : Makes standIn ack execCutoffAlarmFire := by
  refine .event fun s => ?_
  split
  · split
    · unfold fireAlarm
      split
      · exact .of_quiet ⟨rfl, rfl, rfl, rfl⟩
      · next ok => exact .quiet (enterCutoff_writes ok .start) (report_quiet ..)
    · exact .start
  · exact .start

theorem closingConditionTest_makes (rb : Option RetainedRec) : Makes standIn ack (execClosingConditionTest rb) := by
  refine .event fun s => ?_
  split
  · exact enterClosing_writes rb .start
  · exact .start

theorem dayBatchCompletion_makes : Makes standIn ack execDayBatchCompletion := by
  refine .event fun s => ?_
  split
  · exact .start
  · exact takeCompletion_writes _ (.of_quiet ⟨rfl, rfl, rfl, rfl⟩)

theorem transferLineLoss_makes : Makes standIn ack execTransferLineLoss := by
  refine .quiet fun s => ?_
  split <;> simp [Quiet]

theorem transferLineReturn_makes : Makes standIn ack execTransferLineReturn := by
  refine .quiet fun s => ?_
  split <;> simp [Quiet]

theorem transferRecoveryFinish_makes : Makes standIn ack execTransferRecoveryFinish := by
  refine .quiet fun s => ?_
  dsimp only
  (repeat' split) <;> simp [Quiet]

theorem ackTimerExpiry_makes : Makes standIn ack execAckTimerExpiry := by
  refine .quiet fun s => ?_
  unfold expireAck
  dsimp only
  (repeat' split) <;> simp [Quiet]

theorem outboundSendStart_makes : Makes standIn ack execOutboundSendStart := by
  refine .quiet fun s => ?_
  (repeat' split) <;> simp [Quiet]

theorem outboundSendDone_makes : Makes standIn ack execOutboundSendDone := by
  refine .quiet fun s => ?_
  (repeat' split) <;> simp [Quiet]

/-! ### Printers -/

theorem ready_makes (n : Prn) : Makes standIn ack (execReady n) := by
  refine .quiet fun s => ?_
  split <;> simp [Quiet]

theorem homeDone_makes (n : Prn) : Makes standIn ack (execHomeDone n) := by
  refine .quiet fun s => ?_
  split <;> simp [Quiet, homed]

theorem bookIn_makes (n : Prn) : Makes standIn ack (execBookIn n) := by
  refine .quiet fun s => ?_
  split <;> simp [Quiet]

theorem failAttempt_quiet (n : Prn) (w : Reason) (s : State) : Quiet s (failAttempt n w s) := by simp [Quiet, failAttempt]

theorem stripeData_makes (n : Prn) (d : StripeData) : Makes standIn ack (execStripeData n d) := by
  refine .quiet fun s => ?_
  unfold takeStripe judgeStripe acceptBook
  dsimp only
  (repeat' split) <;> simp [Quiet, failAttempt]

theorem stripeFail_makes (n : Prn) : Makes standIn ack (execStripeFail n) := by
  refine .quiet fun s => ?_
  split
  · exact failAttempt_quiet ..
  · exact .rfl s

theorem printerDecision_makes (n : Prn) : Makes standIn ack (execPrinterDecision n) := by
  refine .quiet fun s => ?_
  unfold decide_
  dsimp only
  (repeat' split) <;> simp [Quiet]

theorem lineDoneEvent_writes (n : Prn) (s : State) : Writes standIn ack s (lineDoneEvent n s) := by
  have printed : ∀ q : List Job, Writes standIn ack s (match q with
      | j :: _ => linePrinted j.account s
      | [] => s) := fun q => by
    cases q with
    | nil => exact .start
    | cons j q => exact linePrinted_writes _ .start
  have held (t : State) (y : Layout) (c : Bool) : Quiet t (if c then
      writeStripe n .cancelled (t.updPrinter n fun r => Printer.advance y.linesPerPage (Printer.countLine r))
      else (t.updPrinter n fun r => Printer.advance y.linesPerPage (Printer.countLine r)).updPrinter n Printer.hold) := by
    split <;> simp [Quiet]
  exact .quiet (printed (rd s.queues n)) (held _ _ _)

theorem lineDone_makes (n : Prn) : Makes standIn ack (execLineDone n) := by
  refine .event fun s => ?_
  split
  · exact lineDoneEvent_writes ..
  · exact .start

theorem stripeWritten_makes (n : Prn) : Makes standIn ack (execStripeWritten n) := by
  refine .quiet fun s => ?_
  split <;> simp [Quiet]

theorem stripeWriteFail_makes (n : Prn) : Makes standIn ack (execStripeWriteFail n) := by
  refine .quiet fun s => ?_
  split <;> simp [Quiet]

theorem ejectEnded_quiet (n : Prn) (w : Reason) (s : State) : Quiet s (ejectEnded n w s) := by
  unfold ejectEnded
  dsimp only
  (repeat' split) <;> simp [Quiet]

theorem ejectDone_makes (n : Prn) : Makes standIn ack (execEjectDone n) := by
  refine .quiet fun s => ?_
  dsimp only
  split
  · split
    · exact ejectEnded_quiet ..
    · simp [Quiet]
  · exact .rfl s

theorem fault_makes (n : Prn) : Makes standIn ack (execFault n) := by
  refine .quiet fun s => ?_
  split <;> simp [Quiet]

theorem printerTimerExpiry_makes (n : Prn) : Makes standIn ack (execPrinterTimerExpiry n) := by
  refine .quiet fun s => ?_
  (repeat' split) <;> simp [Quiet]

theorem bookWaitExpiry_makes (n : Prn) : Makes standIn ack (execBookWaitExpiry n) := by
  refine .quiet fun s => ?_
  unfold bookWaitEnds
  split <;> simp [Quiet]

end

/-! ### Every command -/

theorem exec_message (c : Instr) (h : isMessage c = true) : exec c = takeMessage c := by
  cases c <;> first | rfl | cases h

/-- Every command but those of power and of inbound bytes answers a next state by writes its kind may make. -/
theorem exec_makes (c : Instr) (on : c ≠ .powerOn) (off : ∀ n torn, c ≠ .powerFailure n torn) (bytes : ∀ i, c ≠ .frameDiscard i) :
    Makes (isTransmit c) (isAck c) (exec c) := by
  cases c with
  | powerOn => exact absurd rfl on
  | powerFailure n torn => exact absurd rfl (off n torn)
  | frameDiscard i => exact absurd rfl (bytes i)
  | replayEntry => exact replayEntry_makes
  | recoveryFinish rb => exact recoveryFinish_makes rb
  | keyToken p t => exact keyToken_makes p t
  | reviewUp p => exact reviewUp_makes p
  | reviewDown p => exact reviewDown_makes p
  | present p => exact .quiet fun s => ⟨rfl, rfl, rfl, rfl⟩
  | rowTaken p => exact .quiet fun s => ⟨rfl, rfl, rfl, rfl⟩
  | rowSend p => exact rowSend_makes p
  | character p => exact character_makes p
  | fieldNext p => exact .key fun s => .of_quiet (atCursor_quiet (fun _ _ _ => setCursor_quiet ..) s)
  | fieldBack p => exact .key fun s => .of_quiet (atCursor_quiet (fun _ _ _ => setCursor_quiet ..) s)
  | backspace p => exact .key fun s => .of_quiet (backspaceField_quiet p s)
  | eraseField p => exact .key fun s => .of_quiet (eraseCursorField_quiet p s)
  | clear p => exact clear_makes p
  | transmit p => exact transmit_makes p
  | balance p => exact .key fun s => balanceKey_writes _ p .start
  | signOff p => exact .key fun s => balanceKey_writes _ p .start
  | groupBalance p => exact .key fun s => groupKey_writes _ p .start
  | groupClose p => exact .key fun s => groupKey_writes _ p .start
  | printBook p => exact printBook_makes p
  | cancelBook p => exact cancelBook_makes p
  | attention p => exact .key fun s => .of_quiet (report_quiet ..)
  | entryTimerExpiry p => exact entryTimerExpiry_makes p
  | lineLoss => exact lineLoss_makes
  | clockAdvance => exact clockAdvance_makes
  | cutoffAlarmFire => exact cutoffAlarmFire_makes
  | closingConditionTest rb => exact closingConditionTest_makes rb
  | dayBatchCompletion => exact dayBatchCompletion_makes
  | transferLineLoss => exact transferLineLoss_makes
  | transferLineReturn => exact transferLineReturn_makes
  | transferRecoveryFinish => exact transferRecoveryFinish_makes
  | ackTimerExpiry => exact ackTimerExpiry_makes
  | outboundSendStart => exact outboundSendStart_makes
  | outboundSendDone => exact outboundSendDone_makes
  | ready n => exact ready_makes n
  | homeDone n => exact homeDone_makes n
  | bookIn n => exact bookIn_makes n
  | stripeData n d => exact stripeData_makes n d
  | stripeFail n => exact stripeFail_makes n
  | printerDecision n => exact printerDecision_makes n
  | lineDone n => exact lineDone_makes n
  | stripeWritten n => exact stripeWritten_makes n
  | stripeWriteFail n => exact stripeWriteFail_makes n
  | ejectDone n => exact ejectDone_makes n
  | fault n => exact fault_makes n
  | printerTimerExpiry n => exact printerTimerExpiry_makes n
  | bookWaitExpiry n => exact bookWaitExpiry_makes n
  | _ => exact takeMessage_makes _

end Sys2Proof.Machine

namespace Sys2Proof.Machine

/-! ## Every command answers -/

theorem exec_unpowered {c : Instr} {s : State} (h : s.powered = false) (on : c ≠ .powerOn) : exec c s = .next s := by
  by_cases off : ∃ n torn, c = .powerFailure n torn
  · obtain ⟨n, torn, rfl⟩ := off
    show execPowerFailure n torn s = _
    rw [execPowerFailure, h]
    rfl
  · by_cases bytes : ∃ i, c = .frameDiscard i
    · obtain ⟨i, rfl⟩ := bytes
      exact event_unpowered _ h
    · exact (exec_makes c on (fun n torn e => off ⟨n, torn, e⟩) fun i e => bytes ⟨i, e⟩).2 s h

/-- A message leaves the queue of waiting commands, with power or without. -/
theorem takeMessage_pending (c : Instr) (s : State) : ∃ t, takeMessage c s = .next t ∧ t.pending = s.pending := by
  cases h : s.powered with
  | false => exact ⟨s, (takeMessage_makes (standIn := false) c).2 s h, rfl⟩
  | true =>
    obtain ⟨t, run, writes⟩ := (takeMessage_makes (standIn := false) c).1 s h
    exact ⟨t, run, writes.pending⟩

theorem handOn_message (nf : Bool) (rb : Option RetainedRec) (s : State) (m : List Byte) {t : State}
    (run : takeMessage (frameCommand nf rb m) s = .next t) : handOn nf rb s (.message m) = { t with out := s.out ++ t.out } := by
  have left : stateOf (takeMessage (frameCommand nf rb m) s) s = t := by rw [run]; rfl
  rw [← left]
  rfl

theorem handOn_pending (nf : Bool) (rb : Option RetainedRec) (s : State) (e : FrameEvent) :
    (handOn nf rb s e).pending = s.pending := by
  cases e with
  | discarded => rfl
  | message m =>
    obtain ⟨t, run, pending⟩ := takeMessage_pending (frameCommand nf rb m) s
    rw [handOn_message nf rb s m run]
    exact pending

theorem takeBytes_pending (i : Inbound) (s : State) : (takeBytes i s).pending = s.pending :=
  foldl_keeps State.pending (handOn i.noticesFirst i.readBack) (handOn_pending _ _) _ s

theorem exec_answers (c : Instr) (s : State) : ∃ t, exec c s = .next t ∧ t.pending = s.pending := by
  by_cases on : c = .powerOn
  · subst on
    refine ⟨_, rfl, ?_⟩
    unfold readControl
    dsimp only
    split <;> rfl
  · cases h : s.powered with
    | false => exact ⟨s, exec_unpowered h on, rfl⟩
    | true =>
      by_cases off : ∃ n torn, c = .powerFailure n torn
      · obtain ⟨n, torn, rfl⟩ := off
        exact ⟨_, exec_powerFailure h n torn, rfl⟩
      · by_cases bytes : ∃ i, c = .frameDiscard i
        · obtain ⟨i, rfl⟩ := bytes
          exact ⟨_, event_eq _ h, takeBytes_pending i s.begin⟩
        · obtain ⟨t, run, writes⟩ := exec_makes c on (fun n torn e => off ⟨n, torn, e⟩) (fun i e => bytes ⟨i, e⟩) |>.1 s h
          exact ⟨t, run, writes.pending⟩

theorem step_answers (s : State) : ∃ t, step s = .next t := by
  unfold step
  split
  · exact ⟨s, rfl⟩
  · obtain ⟨t, run, -⟩ := exec_answers _ _
    exact ⟨t, run⟩

theorem run_succ (n : Nat) {s t : Sys2Proof.core.State} (h : Host.Core.step Sys2Proof.core s = .next t) :
    Host.Core.run Sys2Proof.core (n + 1) s = Host.Core.run Sys2Proof.core n t := by
  rw [Host.Core.run, h]

/-- Settles O2: every command but those of power goes through an event, and the rest never end one. -/
theorem everyCommandAnswersNext : Obligations.EveryCommandAnswersNext := by
  refine ⟨exec_answers, fun s n => ?_, fun c s h on => exec_unpowered h on⟩
  induction n generalizing s with
  | zero => exact ⟨s, rfl⟩
  | succ n ih =>
    obtain ⟨t, run⟩ := step_answers s
    obtain ⟨u, rest⟩ := ih t
    have one : Host.Core.step Sys2Proof.core s = .next t := run
    exact ⟨u, (run_succ n one).trans rest⟩

end Sys2Proof.Machine

namespace Sys2Proof.Machine

/-! ## What holds at every cut of the event's writes -/

/-- The journal memory is what the writes of the event have made of it, and what each of them left has a property (R45). -/
def CutsHold (P : JournalMem → Prop) (t : State) : Prop :=
  t.nv = t.nvLog.foldl (fun m w => m.write w) t.nvBefore ∧ ∀ k, P (cutMemory k false t)

section
variable {P : JournalMem → Prop} {s t : State}

theorem CutsHold.start (h : P s.nv) : CutsHold P s.begin :=
  ⟨rfl, fun k => by rw [cutMemory_false, State.begin_nvLog, List.take_nil]; exact h⟩

theorem CutsHold.quiet (h : CutsHold P s) (q : Quiet s t) : CutsHold P t := by
  obtain ⟨nv, before, log, -⟩ := q
  refine ⟨by rw [nv, log, before]; exact h.1, fun k => ?_⟩
  rw [cutMemory_false, log, before, ← cutMemory_false]
  exact h.2 k

theorem CutsHold.now (h : CutsHold P s) : P s.nv := by
  have last := h.2 s.nvLog.length
  rwa [cutMemory_false, List.take_length, ← h.1] at last

theorem CutsHold.write (h : CutsHold P s) {w : NvWrite} (hw : P (s.nv.write w)) : CutsHold P (nvWrite w s) := by
  refine ⟨by simp [← h.1], fun k => ?_⟩
  rw [cutMemory_false, nvWrite_nvLog, nvWrite_nvBefore]
  by_cases early : k ≤ s.nvLog.length
  · rw [List.take_append_of_le_length early, ← cutMemory_false]
    exact h.2 k
  · rw [List.take_of_length_le (by simp; omega), List.foldl_append, ← h.1]
    exact hw

end

/-! ## The law of R50 -/

theorem backlog_keeps (e : Entry) : e.backlog.body = e.body ∧ e.backlog.fwd = e.fwd := by
  unfold Entry.backlog
  split <;> exact ⟨rfl, rfl⟩

/-- Lines marked BACKLOGGED keep their bodies and forward states (R49, R50). -/
theorem foldl_backlog_getElem? (is : List Nat) (es : List Entry) {i : Nat} {f : Entry}
    (h : (is.foldl (fun es i => es.modify i Entry.backlog) es)[i]? = some f) :
    ∃ e, es[i]? = some e ∧ f.body = e.body ∧ f.fwd = e.fwd := by
  induction is generalizing es with
  | nil => exact ⟨f, h, rfl, rfl⟩
  | cons j is ih =>
    obtain ⟨g, hg, body, fwd⟩ := ih _ h
    rw [List.getElem?_modify] at hg
    obtain ⟨e, he, rfl⟩ := Option.map_eq_some_iff.1 hg
    refine ⟨e, he, ?_⟩
    rw [body, fwd]
    split
    · exact backlog_keeps e
    · exact ⟨rfl, rfl⟩

/-- What an event's write leaves at a place of the journal: a new entry, or the entry that stood there with its forward state
as it was, or FORWARDED from PENDING. -/
theorem MayWrite.entry {standIn ack : Bool} {m : JournalMem} {w : NvWrite} (h : MayWrite standIn ack m w) {i : Nat} {f : Entry}
    (hf : (m.write w).entries[i]? = some f) :
    f.fwd = .notNeeded ∨ (standIn = true ∧ f.fwd = .pending ∧ ∃ r, f.body = .posting r ∧ r.origin = .standIn) ∨
      ∃ e, m.entries[i]? = some e ∧ f.body = e.body ∧
        (f.fwd = e.fwd ∨ (ack = true ∧ e.fwd = .pending ∧ f.fwd = .forwarded)) := by
  cases w with
  | slots x =>
    have placed : (m.entries.take m.control.fields.entryCount ++ [x])[i]? = some f := hf
    rcases List.getElem?_append .. ▸ placed with placed
    split at placed
    · rw [List.getElem?_take] at placed
      split at placed
      · exact Or.inr (Or.inr ⟨f, placed, rfl, Or.inl rfl⟩)
      · cases placed
    · obtain rfl := List.mem_singleton.1 (List.mem_of_getElem? placed)
      exact h.imp id Or.inl
  | control c => exact Or.inr (Or.inr ⟨f, hf, rfl, Or.inl rfl⟩)
  | retained r => exact Or.inr (Or.inr ⟨f, hf, rfl, Or.inl rfl⟩)
  | retainedCrc c => exact Or.inr (Or.inr ⟨f, hf, rfl, Or.inl rfl⟩)
  | backlogged c is =>
    obtain ⟨e, he, body, fwd⟩ := foldl_backlog_getElem? is m.entries hf
    exact Or.inr (Or.inr ⟨e, he, body, Or.inl fwd⟩)
  | states j p g =>
    have changed : (m.entries.modify j fun e => { e with print := p, fwd := g })[i]? = some f := hf
    rw [List.getElem?_modify] at changed
    obtain ⟨e, he, rfl⟩ := Option.map_eq_some_iff.1 changed
    refine Or.inr (Or.inr ⟨e, he, ?_⟩)
    split
    · next j_eq =>
      subst j_eq
      exact ⟨rfl, h e he⟩
    · exact ⟨rfl, Or.inl rfl⟩

theorem PendingIsStandIn.write {standIn ack : Bool} {m : JournalMem} {w : NvWrite} (law : PendingIsStandIn m)
    (h : MayWrite standIn ack m w) : PendingIsStandIn (m.write w) := by
  intro f hf pending
  obtain ⟨i, hi⟩ := List.getElem?_of_mem hf
  rcases h.entry hi with fresh | ⟨-, -, body⟩ | ⟨e, he, body, same | ⟨-, -, done⟩⟩
  · rw [fresh] at pending; cases pending
  · exact body
  · rw [body]
    exact law e (List.mem_of_getElem? he) (same ▸ pending)
  · rw [done] at pending; cases pending

section
variable {standIn ack : Bool} {s t : State}

theorem Writes.cutsHold (h : Writes standIn ack s t) (start : CutsHold PendingIsStandIn s) : CutsHold PendingIsStandIn t := by
  induction h with
  | start => exact start
  | quiet _ q ih => exact ih.quiet q
  | write w _ may ih => exact ih.write (ih.now.write may)

theorem ForwardLaw.of_cuts (h : CutsHold PendingIsStandIn t) : ForwardLaw t := ⟨h.now, h.2⟩

/-- An event keeps the law of R50, whatever cuts it short. -/
theorem Writes.forwardLaw (h : Writes standIn ack s.begin t) (law : PendingIsStandIn s.nv) : ForwardLaw t :=
  .of_cuts (h.cutsHold (.start law))

/-- Where the PENDING and the FORWARDED entries of a journal memory come from: a PENDING entry stood there PENDING, but for
what a stand-in posting adds; a FORWARDED one stood there FORWARDED, but for what an acknowledgement changes. -/
def Arises (standIn ack : Bool) (m n : JournalMem) : Prop :=
  ∀ (i : Nat) (f : Entry), n.entries[i]? = some f →
    (f.fwd = .pending → standIn = true ∨ ∃ e, m.entries[i]? = some e ∧ e.fwd = .pending) ∧
    (f.fwd = .forwarded → ∃ e, m.entries[i]? = some e ∧ (e.fwd = .forwarded ∨ (ack = true ∧ e.fwd = .pending)))

theorem Arises.rfl (m : JournalMem) : Arises standIn ack m m :=
  fun _ f hf => ⟨fun p => Or.inr ⟨f, hf, p⟩, fun p => ⟨f, hf, Or.inl p⟩⟩

theorem Writes.arises (h : Writes standIn ack s t) (one : standIn = false ∨ ack = false) :
    Arises standIn ack s.nv t.nv := by
  induction h with
  | start => exact .rfl _
  | quiet _ q ih => rw [q.1]; exact ih
  | write w _ may ih =>
    intro i f hf
    rcases may.entry hf with fresh | ⟨may, pending, -⟩ | ⟨e, he, -, same | ⟨acked, pending, done⟩⟩
    · rw [fresh]
      exact ⟨fun p => (nomatch p), fun p => nomatch p⟩
    · rw [pending]
      exact ⟨fun _ => Or.inl may, fun p => nomatch p⟩
    · rw [same]
      exact ih i e he
    · rw [done]
      refine ⟨fun p => (nomatch p), fun _ => ?_⟩
      rcases (ih i e he).1 pending with may | ⟨e', he', pending'⟩
      · rcases one with no | no
        · rw [no] at may; cases may
        · rw [no] at acked; cases acked
      · exact ⟨e', he', Or.inr ⟨acked, pending'⟩⟩

end

/-! ### Power -/

theorem tornWrite_entries (free : Nat) (w : NvWrite) (m : JournalMem) : (tornWrite free w m).entries = m.entries := by
  cases w <;> rfl

theorem cutMemory_entries (n : Nat) (torn : Bool) (s : State) :
    (cutMemory n torn s).entries = (cutMemory n false s).entries := by
  cases torn with
  | false => rfl
  | true =>
    rw [cutMemory_false]
    unfold cutMemory
    dsimp only
    split
    · exact tornWrite_entries ..
    · rfl

theorem powerDown_law {s : State} (law : ForwardLaw s) (n : Nat) (torn : Bool) :
    ForwardLaw (powerDown (cutMemory n torn s) s) := by
  have memory : PendingIsStandIn (cutMemory n torn s) := by
    unfold PendingIsStandIn
    rw [cutMemory_entries]
    exact law.2 n
  refine ⟨memory, fun k => ?_⟩
  rw [cutMemory_false]
  show PendingIsStandIn (([].take k).foldl _ _)
  rw [List.take_nil]
  exact memory

theorem readControl_powerUp_nv (s : State) : let t := readControl (powerUp s)
    t.nv = s.nv ∧ t.nvBefore = s.nv ∧ t.nvLog = [] := by
  unfold readControl
  dsimp only
  split <;> exact ⟨rfl, rfl, rfl⟩

theorem powerOn_law {s : State} (law : ForwardLaw s) : ForwardLaw (readControl (powerUp s)) := by
  obtain ⟨nv, before, log⟩ := readControl_powerUp_nv s
  refine ⟨nv ▸ law.1, fun k => ?_⟩
  rw [cutMemory_false, log, before, List.take_nil]
  exact law.1

/-! ### Inbound bytes -/

theorem loadCommand_not_ack (hd : Hdr) (body : List Byte) : isAck (loadCommand hd body) = false := by
  unfold loadCommand
  dsimp only
  (repeat' split) <;> rfl

theorem queryCommand_not_ack (hd : Hdr) (body : List Byte) : isAck (queryCommand hd body) = false := by
  unfold queryCommand
  dsimp only
  (repeat' split) <;> rfl

theorem dayCommand_not_ack (hd : Hdr) (nf : Bool) (rb : Option RetainedRec) (r : DayRequest) :
    isAck (dayCommand hd nf rb r) = false := by cases r <;> rfl

theorem positionCommand_not_ack (hd : Hdr) (r : PosRequest) : isAck (positionCommand hd r) = false := by cases r <;> rfl

theorem ack_of_ite {c : Prop} [Decidable c] {x y z : Instr} (hx : isAck x = true → x = z) (hy : isAck y = true → y = z) :
    isAck (if c then x else y) = true → (if c then x else y) = z := by
  split
  · exact hx
  · exact hy

theorem eq_of_not_ack {x z : Instr} (hx : isAck x = false) : isAck x = true → x = z := by
  rw [hx]
  exact fun h => nomatch h

theorem messageCommand_ack {nf : Bool} {rb : Option RetainedRec} {kind : Byte} {hd : Hdr} {body : List Byte} :
    isAck (messageCommand nf rb kind hd body) = true →
    messageCommand nf rb kind hd body = .transferAck ⟨hd, nf⟩ (Config.ackBody body) := by
  unfold messageCommand
  refine ack_of_ite (eq_of_not_ack rfl) <| ack_of_ite (eq_of_not_ack rfl) <| ack_of_ite (eq_of_not_ack rfl) <|
    ack_of_ite (eq_of_not_ack rfl) <| ack_of_ite (eq_of_not_ack rfl) <| ack_of_ite ?load <| ack_of_ite ?query <|
    ack_of_ite ?day <| ack_of_ite ?position <| ack_of_ite (fun _ => rfl) <| ack_of_ite (eq_of_not_ack rfl) <|
    ack_of_ite (eq_of_not_ack rfl) (eq_of_not_ack rfl)
  case load => exact eq_of_not_ack (loadCommand_not_ack ..)
  case query => exact eq_of_not_ack (queryCommand_not_ack ..)
  case day => exact eq_of_not_ack (dayCommand_not_ack ..)
  case position => exact eq_of_not_ack (positionCommand_not_ack ..)

/-- A message of inbound bytes that is a TRANSFER ACK is taken with the operand of the bytes (assumption 47). -/
theorem frameCommand_ack {nf : Bool} {rb : Option RetainedRec} {m : List Byte} (h : isAck (frameCommand nf rb m) = true) :
    ∃ hd a, frameCommand nf rb m = .transferAck ⟨hd, nf⟩ a := ⟨_, _, messageCommand_ack h⟩

/-- What one message among inbound bytes leaves of the journal memory. -/
theorem handOn_arises (nf : Bool) (rb : Option RetainedRec) (s : State) (e : FrameEvent) :
    (ForwardLaw s → ForwardLaw (handOn nf rb s e)) ∧
    Arises false true s.nv (handOn nf rb s e).nv ∧
    ((∀ m, e = .message m → isAck (frameCommand nf rb m) = false) → Arises false false s.nv (handOn nf rb s e).nv) := by
  cases e with
  | discarded => exact ⟨id, .rfl _, fun _ => .rfl _⟩
  | message m =>
    have makes := takeMessage_makes (standIn := false) (frameCommand nf rb m)
    cases powered : s.powered with
    | false =>
      rw [handOn_message nf rb s m (makes.2 s powered)]
      exact ⟨id, .rfl _, fun _ => .rfl _⟩
    | true =>
      obtain ⟨t, run, writes⟩ := makes.1 s powered
      rw [handOn_message nf rb s m run]
      have arises := writes.arises (Or.inl rfl)
      refine ⟨fun law => writes.forwardLaw law.1, fun i f hf => ⟨(arises i f hf).1, fun done => ?_⟩, fun plain => ?_⟩
      · obtain ⟨e, he, why⟩ := (arises i f hf).2 done
        exact ⟨e, he, why.imp id fun w => ⟨rfl, w.2⟩⟩
      · rw [plain m rfl] at arises
        exact arises

theorem handOns_law (nf : Bool) (rb : Option RetainedRec) (es : List FrameEvent) {s : State} (law : ForwardLaw s) :
    ForwardLaw (es.foldl (handOn nf rb) s) := by
  induction es generalizing s with
  | nil => exact law
  | cons e es ih => exact ih ((handOn_arises nf rb s e).1 law)

/-- Inbound bytes: an entry FORWARDED among them was PENDING, and one of the messages is a TRANSFER ACK. -/
theorem handOns_forwarded (nf : Bool) (rb : Option RetainedRec) (es : List FrameEvent) {s : State} {i : Nat} {f : Entry}
    (hf : (es.foldl (handOn nf rb) s).nv.entries[i]? = some f) :
    (f.fwd = .pending → ∃ e, s.nv.entries[i]? = some e ∧ e.fwd = .pending) ∧
    (f.fwd = .forwarded → ∃ e, s.nv.entries[i]? = some e ∧ (e.fwd = .forwarded ∨ (e.fwd = .pending ∧
      ∃ m, .message m ∈ es ∧ isAck (frameCommand nf rb m) = true))) := by
  induction es generalizing s with
  | nil => exact ⟨fun p => ⟨f, hf, p⟩, fun p => ⟨f, hf, Or.inl p⟩⟩
  | cons x es ih =>
    obtain ⟨-, any, plain⟩ := handOn_arises nf rb s x
    obtain ⟨kept, done⟩ := ih hf
    have pendingBefore {g : Entry} (hg : (handOn nf rb s x).nv.entries[i]? = some g) (p : g.fwd = .pending) :
        ∃ e, s.nv.entries[i]? = some e ∧ e.fwd = .pending := ((any i g hg).1 p).resolve_left (fun n => nomatch n)
    refine ⟨fun p => ?_, fun p => ?_⟩
    · obtain ⟨g, hg, gp⟩ := kept p
      exact pendingBefore hg gp
    · obtain ⟨g, hg, gf | ⟨gp, m, hm, acked⟩⟩ := done p
      · by_cases acks : ∃ m, x = .message m ∧ isAck (frameCommand nf rb m) = true
        · obtain ⟨m, rfl, acked⟩ := acks
          obtain ⟨e, he, why⟩ := (any i g hg).2 gf
          exact ⟨e, he, why.imp id fun w => ⟨w.2, m, List.mem_cons_self, acked⟩⟩
        · obtain ⟨e, he, why⟩ := (plain fun m hm => by
            cases b : isAck (frameCommand nf rb m) with
            | false => rfl
            | true => exact absurd ⟨m, hm, b⟩ acks) i g hg |>.2 gf
          exact ⟨e, he, Or.inl (why.resolve_right fun w => nomatch w.1)⟩
      · obtain ⟨e, he, ep⟩ := pendingBefore hg gp
        exact ⟨e, he, Or.inr ⟨ep, m, List.mem_cons_of_mem _ hm, acked⟩⟩

end Sys2Proof.Machine

namespace Sys2Proof.Machine

/-! ### The entries a TRANSFER ACK changes -/

/-- A journal memory after acknowledgements: an entry is as it was, or FORWARDED from PENDING at one of the places given (R50,
R164). -/
def ForwardedAt (C : Nat → Prop) (es fs : List Entry) : Prop :=
  ∀ i, fs[i]? = es[i]? ∨ ∃ e, es[i]? = some e ∧ e.fwd = .pending ∧ C i ∧ fs[i]? = some { e with fwd := .forwarded }

section
variable {C : Nat → Prop} {es fs : List Entry} {s u : State}

theorem ForwardedAt.refl (es : List Entry) : ForwardedAt C es es := fun _ => Or.inl rfl

theorem ForwardedAt.of_pending (h : ForwardedAt C es fs) {i : Nat} {e : Entry} (he : fs[i]? = some e) (p : e.fwd = .pending) :
    es[i]? = some e := by
  rcases h i with same | ⟨_, -, -, -, done⟩
  · rw [← same, he]
  · rw [he] at done
    cases done
    cases p

theorem ForwardedAt.take (h : ForwardedAt C es fs) (n : Nat) : ForwardedAt C (es.take n) (fs.take n) := by
  intro i
  rw [List.getElem?_take, List.getElem?_take]
  by_cases inside : i < n
  · rw [if_pos inside, if_pos inside]
    exact h i
  · rw [if_neg inside, if_neg inside]
    exact Or.inl rfl

/-- The slots of the entries stay, so that a PENDING entry is read where it was (R39). -/
theorem ForwardedAt.slotted (h : ForwardedAt C es fs) {n : Nat} {x : Nat × Entry} (hx : x ∈ slotted n fs)
    (p : x.2.fwd = .pending) : x ∈ slotted n es := by
  induction fs generalizing es n C with
  | nil => cases hx
  | cons f fs ih =>
    have first : ∃ e rest, es = e :: rest ∧ e.size = f.size ∧ (f = e ∨ f.fwd = .forwarded) := by
      rcases h 0 with same | ⟨e, he, -, -, done⟩
      · obtain ⟨rest, rfl⟩ := List.head?_eq_some_iff.1 (List.head?_eq_getElem? (l := es) ▸ same.symm)
        exact ⟨_, _, rfl, rfl, Or.inl rfl⟩
      · obtain ⟨rest, rfl⟩ := List.head?_eq_some_iff.1 (List.head?_eq_getElem? (l := es) ▸ he)
        cases done
        exact ⟨_, _, rfl, rfl, Or.inr rfl⟩
    obtain ⟨e, rest, rfl, size, which⟩ := first
    have later : ForwardedAt (fun i => C (i + 1)) rest fs := fun i => h (i + 1)
    rcases List.mem_cons.1 hx with rfl | hx
    · rcases which with rfl | done
      · exact List.mem_cons_self
      · rw [done] at p
        cases p
    · rw [← size] at hx
      exact List.mem_cons_of_mem _ (ih later hx)

/-- What acknowledgements leave: the control record, the readable marks, and the entries but for those FORWARDED. -/
def AckLeaves (C : Nat → Prop) (s u : State) : Prop :=
  u.nv.control = s.nv.control ∧ u.jc.unreadable = s.jc.unreadable ∧ ForwardedAt C s.nv.entries u.nv.entries

theorem AckLeaves.journal (h : AckLeaves C s u) : ForwardedAt C (journal s) (journal u) := by
  obtain ⟨control, -, entries⟩ := h
  unfold Machine.journal
  rw [control]
  exact entries.take _

theorem AckLeaves.readable (h : AckLeaves C s u) {x : Nat × Entry} (hx : x ∈ readable u) (p : x.2.fwd = .pending) :
    x ∈ readable s := by
  have journal := h.journal
  obtain ⟨control, unreadable, -⟩ := h
  unfold Machine.readable slotsUsed at hx ⊢
  rw [control, unreadable] at hx
  split at hx
  · cases hx
  · rename_i marked
    rw [if_neg marked]
    obtain ⟨there, low⟩ := List.mem_filter.1 hx
    exact List.mem_filter.2 ⟨journal.slotted there p, low⟩

theorem AckLeaves.flightEntries (h : AckLeaves C s u) {g : Flight} {x : Nat × Entry} (hx : x ∈ flightEntries .forward g u) :
    x ∈ flightEntries .forward g s := by
  obtain ⟨there, chosen⟩ := List.mem_filter.1 hx
  have p : x.2.fwd = .pending := by
    have carried := (Bool.and_eq_true_iff.1 chosen).2
    unfold carries at carried
    split at carried
    · contradiction
    · exact eq_of_beq (Bool.and_eq_true_iff.1 carried).2
    · cases carried
  exact List.mem_filter.2 ⟨h.readable there p, chosen⟩

theorem entryAt_some {q : Nat} {e : Entry} (h : entryAt q u = some e) : q ≠ 0 ∧ (journal u)[q - 1]? = some e := by
  unfold entryAt at h
  split at h
  · cases h
  · exact ⟨‹_›, h⟩

/-- An entry named by the sequence number of one that a block carried, changed. -/
theorem AckLeaves.changeForward (h : AckLeaves C s u) {q : Nat} (hq : q ≠ 0 → C (q - 1)) : AckLeaves C s (changeForward q u) := by
  unfold Machine.changeForward
  split
  next e he =>
    split
    next p =>
      obtain ⟨q_ne, there⟩ := entryAt_some he
      have here : u.nv.entries[q - 1]? = some e := by
        unfold Machine.journal at there
        rw [List.getElem?_take] at there
        split at there
        · exact there
        · cases there
      refine ⟨h.1, h.2.1, fun i => ?_⟩
      show (u.nv.entries.modify (q - 1) fun e' => { e' with print := e.print, fwd := .forwarded })[i]? = _ ∨ ∃ f : Entry, _ ∧ _ ∧ _ ∧
        (u.nv.entries.modify (q - 1) fun e' => { e' with print := e.print, fwd := .forwarded })[i]? = _
      rw [List.getElem?_modify]
      split
      next i_eq =>
        subst i_eq
        rw [here]
        exact Or.inr ⟨e, h.2.2.of_pending here p, p, hq q_ne, rfl⟩
      next =>
        rw [Option.map_eq_map, Option.map_id']
        exact h.2.2 i
    next => exact h
  next => exact h

theorem AckLeaves.changeForwards (xs : List (Nat × Entry)) (h : AckLeaves C s u)
    (hxs : ∀ x ∈ xs, x.2.seq ≠ 0 → C (x.2.seq - 1)) :
    AckLeaves C s (xs.foldl (fun s x => Machine.changeForward x.2.seq s) u) := by
  induction xs generalizing u with
  | nil => exact h
  | cons x xs ih =>
    exact ih (h.changeForward (hxs x List.mem_cons_self)) fun y hy => hxs y (List.mem_cons_of_mem _ hy)

end

/-- The places of the entries that blocks of a FORWARD batch with the numbers given carry. -/
def CarriedBy (lo hi : Nat) (s : State) (i : Nat) : Prop :=
  ∃ g x, g ∈ s.engine.flights ∧ lo < g.number ∧ g.number ≤ hi ∧ x ∈ flightEntries .forward g s ∧ x.2.seq = i + 1

theorem changeForwards_engine (xs : List (Nat × Entry)) (s : State) :
    (xs.foldl (fun s x => changeForward x.2.seq s) s).engine = s.engine :=
  foldl_keeps State.engine (fun s x => changeForward x.2.seq s) (fun _ _ => by simp) xs s

/-- One block of a FORWARD batch acknowledged. -/
theorem ackBlock_leaves {lo hi n : Nat} {s u : State} (hlo : lo < n) (hhi : n ≤ hi)
    (h : AckLeaves (CarriedBy lo hi s) s u) (flights : ∀ g ∈ u.engine.flights, g ∈ s.engine.flights) :
    AckLeaves (CarriedBy lo hi s) s (ackBlock .forward n u) ∧
      ∀ g ∈ (ackBlock .forward n u).engine.flights, g ∈ s.engine.flights := by
  unfold ackBlock
  split
  next => exact ⟨h, flights⟩
  next g found =>
    have number : g.number = n := by simpa using List.find?_some found
    have there := flights g (List.mem_of_find?_eq_some found)
    refine ⟨h.changeForwards (flightEntries .forward g u) fun x hx seq => ?_, fun f hf => ?_⟩
    · exact ⟨g, x, there, number ▸ hlo, number ▸ hhi, h.flightEntries hx, by omega⟩
    · refine flights f (List.mem_of_mem_filter (p := fun g => g.number != n) ?_)
      rw [← changeForwards_engine (flightEntries .forward g u) u]
      exact hf

theorem ackThrough_leaves (b : Batch) (forward : b.kind = .forward) {n hi : Nat} (hn : n ≤ hi) (s : State) :
    AckLeaves (CarriedBy b.acked hi s) s (ackThrough b n s) := by
  have blocks (is : List Nat) (his : ∀ i ∈ is, b.acked < i ∧ i ≤ n) (u : State)
      (h : AckLeaves (CarriedBy b.acked hi s) s u) (flights : ∀ g ∈ u.engine.flights, g ∈ s.engine.flights) :
      AckLeaves (CarriedBy b.acked hi s) s (is.foldl (fun s i => ackBlock .forward i s) u) := by
    induction is generalizing u with
    | nil => exact h
    | cons i is ih =>
      obtain ⟨low, high⟩ := his i List.mem_cons_self
      obtain ⟨left, fewer⟩ := ackBlock_leaves low (high.trans hn) h flights
      exact ih (fun j hj => his j (List.mem_cons_of_mem _ hj)) _ left fewer
  unfold ackThrough
  rw [forward]
  exact blocks _ (fun i hi => by rw [List.mem_range'_1] at hi; omega) s ⟨rfl, rfl, .refl _⟩ fun _ hg => hg

/-- A block of a DAY batch acknowledged leaves every entry (R50). -/
theorem ackBlock_day_entries (n : Nat) (u : State) : (ackBlock .day n u).nv.entries = u.nv.entries := by
  unfold ackBlock
  split
  · rfl
  · show (setDelivered _ u).nv.entries = _
    unfold setDelivered
    dsimp only
    split <;> rfl

theorem ackThrough_day_entries (b : Batch) (day : b.kind = .day) (n : Nat) (s : State) :
    (ackThrough b n s).nv.entries = s.nv.entries := by
  unfold ackThrough
  rw [day]
  exact foldl_keeps (fun s => s.nv.entries) (fun s i => ackBlock .day i s) (fun s i => ackBlock_day_entries i s) _ s

theorem failBatch_entries (c : FailCause) (s : State) : (failBatch c s).nv.entries = s.nv.entries := by
  have quiet : Quiet s (failBatch c s) := by simp [Quiet]
  rw [quiet.1]

/-- What a TRANSFER ACK leaves of the entries: those as they were, and those of its blocks of a FORWARD batch (R164). -/
theorem takeAck_entries (a : AckBody) (s : State) (b : Batch) (batch : s.engine.batch = some b) :
    ForwardedAt (fun i => b.kind = .forward ∧ CarriedBy b.acked a.through s i) s.nv.entries (takeAck a s).nv.entries := by
  have through (n : Nat) (hn : n ≤ a.through) :
      ForwardedAt (fun i => b.kind = .forward ∧ CarriedBy b.acked a.through s i) s.nv.entries (ackThrough b n s).nv.entries := by
    intro i
    cases kind : b.kind with
    | day => exact Or.inl (by rw [ackThrough_day_entries b kind])
    | forward =>
      rcases (ackThrough_leaves b kind hn s).2.2 i with same | ⟨e, he, p, c, done⟩
      · exact Or.inl same
      · exact Or.inr ⟨e, he, p, ⟨rfl, c⟩, done⟩
  unfold takeAck
  rw [batch]
  dsimp only
  split
  · split
    · rw [(acceptAck_quiet b a.through s).1]
      exact through _ le_rfl
    · unfold refuseAck
      dsimp only
      rw [failBatch_entries]
      split
      · exact through _ (Nat.sub_le ..)
      · exact .refl _
  · exact .refl _

theorem takeAck_nobatch (a : AckBody) (s : State) (batch : s.engine.batch = none) : takeAck a s = s := by
  unfold takeAck
  rw [batch]

end Sys2Proof.Machine

namespace Sys2Proof.Machine

/-! ## Every step keeps the law of R50 -/

/-- What the second part of the law asks of a place whose entry the event makes FORWARDED (R50, R164). -/
def ForwardJustified (c : Instr) (s : State) (i : Nat) (e : Entry) : Prop :=
  (∃ n torn, c = .powerFailure n torn) ∨ (e.fwd = .pending ∧
    ((∃ h a nf, c = .transferAck ⟨h, nf⟩ a ∧ (nf = false → ∃ b g x, s.engine.batch = some b ∧ b.kind = .forward ∧
        g ∈ s.engine.flights ∧ b.acked < g.number ∧ g.number ≤ a.through ∧ x ∈ flightEntries .forward g s ∧ x.2.seq = i + 1)) ∨
      ∃ bytes nf rb m h a, c = .frameDiscard ⟨bytes, nf, rb⟩ ∧ .message m ∈ (runFramer s.line.framer bytes).2 ∧
        frameCommand nf rb m = .transferAck ⟨h, nf⟩ a))

/-- What an event may do to the entries: the law is kept, and an entry FORWARDED is justified. -/
def KeepsForwardLaw (c : Instr) (s t : State) : Prop :=
  ForwardLaw t ∧ ∀ i e f, s.nv.entries[i]? = some e → t.nv.entries[i]? = some f → e.fwd ≠ .forwarded → f.fwd = .forwarded →
    ForwardJustified c s i e

theorem KeepsForwardLaw.of_entries {c : Instr} {s t : State} (law : ForwardLaw t)
    (same : t.nv.entries = s.nv.entries) : KeepsForwardLaw c s t :=
  ⟨law, fun i e f he hf no done => by
    rw [same, he] at hf
    cases hf
    exact absurd done no⟩

theorem arrived_batch (s : State) : (arrived s).engine.batch = s.engine.batch ∧ (arrived s).engine.flights = s.engine.flights := by
  unfold arrived arrive lineReturn
  dsimp only
  split <;> simp

theorem flightEntries_congr {s t : State} (nv : t.nv = s.nv) (jc : t.jc = s.jc) (k : BatchKind) (g : Flight) :
    flightEntries k g t = flightEntries k g s := by
  unfold flightEntries readable journal slotsUsed
  rw [nv, jc]

/-- A TRANSFER ACK taken as a command before the notices that wait (R164). -/
theorem execTransferAck_justified (hd : Hdr) (a : AckBody) {s t : State} (powered : s.powered = true)
    (run : execTransferAck ⟨hd, false⟩ a s = .next t) {i : Nat} {e f : Entry} (he : s.nv.entries[i]? = some e)
    (hf : t.nv.entries[i]? = some f) (no : e.fwd ≠ .forwarded) (done : f.fwd = .forwarded) :
    ∃ b g x, s.engine.batch = some b ∧ b.kind = .forward ∧ g ∈ s.engine.flights ∧ b.acked < g.number ∧
      g.number ≤ a.through ∧ x ∈ flightEntries .forward g s ∧ x.2.seq = i + 1 := by
  obtain ⟨-, -, -, -, -, nv, jc, -⟩ := arrived_frame s
  obtain ⟨batch, flights⟩ := arrived_batch s
  have unchanged (h : t.nv = s.nv) : False := by
    rw [h, he] at hf
    cases hf
    exact no done
  by_cases recovering : s.day.state = .recovering
  · have skip := silentMessage_recovering (withNotices false (takeAck a)) powered recovering
    cases run.symm.trans skip
    exact (unchanged nv).elim
  · have taken := silentMessage_eq (withNotices false (takeAck a)) ⟨powered, recovering⟩
    cases run.symm.trans taken
    rw [withNotices_false] at hf unchanged
    cases none_or : s.engine.batch with
    | none =>
      rw [takeAck_nobatch a _ (batch.trans none_or)] at unchanged
      exact (unchanged nv).elim
    | some b =>
      have at_i := takeAck_entries a (arrived s) b (batch.trans none_or) i
      rw [hf, nv, he] at at_i
      rcases at_i with same | ⟨-, -, -, ⟨forward, g, x, hg, low, high, hx, seq⟩, -⟩
      · cases same
        exact absurd done no
      · rw [flights] at hg
        rw [flightEntries_congr nv jc] at hx
        exact ⟨b, g, x, rfl, forward, hg, low, high, hx, seq⟩

theorem frameDiscard_keeps (x : Inbound) {s : State} (law : ForwardLaw s) :
    KeepsForwardLaw (.frameDiscard x) s (takeBytes x s.begin) := by
  have start : ForwardLaw s.begin := .of_cuts (.start law.1)
  refine ⟨handOns_law x.noticesFirst x.readBack (runFramer s.line.framer x.bytes).2 start, fun i e f he hf no done => ?_⟩
  obtain ⟨e', he', before | ⟨p, m, hm, ack⟩⟩ :=
    (handOns_forwarded x.noticesFirst x.readBack (runFramer s.line.framer x.bytes).2 (s := s.begin) hf).2 done
  · cases he.symm.trans he'
    exact absurd before no
  · cases he.symm.trans he'
    obtain ⟨hd, a, command⟩ := frameCommand_ack ack
    exact Or.inr ⟨p, Or.inr ⟨x.bytes, x.noticesFirst, x.readBack, m, hd, a, rfl, hm, command⟩⟩

/-- Every command keeps the law: power by what it leaves of the memory, inbound bytes message by message, the others by the
writes they may make. -/
theorem exec_keepsForwardLaw (c : Instr) {s t : State} (law : ForwardLaw s) (run : exec c s = .next t) : KeepsForwardLaw c s t := by
  by_cases on : c = .powerOn
  · subst on
    cases run
    exact .of_entries (powerOn_law law) (by rw [(readControl_powerUp_nv s).1])
  cases powered : s.powered with
  | false =>
    cases run.symm.trans (exec_unpowered powered on)
    exact .of_entries law rfl
  | true =>
    by_cases off : ∃ n torn, c = .powerFailure n torn
    · obtain ⟨n, torn, rfl⟩ := off
      cases run.symm.trans (exec_powerFailure powered n torn)
      exact ⟨powerDown_law law n torn, fun _ _ _ _ _ _ _ => Or.inl ⟨n, torn, rfl⟩⟩
    by_cases bytes : ∃ x, c = .frameDiscard x
    · obtain ⟨x, rfl⟩ := bytes
      cases run.symm.trans (event_eq (takeBytes x) powered)
      exact frameDiscard_keeps x law
    obtain ⟨u, run', writes⟩ := (exec_makes c on (fun n torn e => off ⟨n, torn, e⟩) fun x e => bytes ⟨x, e⟩).1 s powered
    cases run.symm.trans run'
    have one : isTransmit c = false ∨ isAck c = false := by cases c <;> simp [isTransmit, isAck]
    refine ⟨writes.forwardLaw law.1, fun i e f he hf no done => ?_⟩
    obtain ⟨e', he', before | ⟨ack, p⟩⟩ := (writes.arises one i f hf).2 done
    · cases he.symm.trans he'
      exact absurd before no
    · cases he.symm.trans he'
      refine Or.inr ⟨p, Or.inl ?_⟩
      cases c <;> cases ack
      rename_i hd a
      obtain ⟨hd, nf⟩ := hd
      refine ⟨hd, a, nf, rfl, fun plain => ?_⟩
      subst plain
      exact execTransferAck_justified hd a powered run he hf no done

/-- Settles O60: an event's writes keep the law at every cut, and one that makes an entry FORWARDED acknowledges its block. -/
theorem stepKeepsForwardLaw : Obligations.StepKeepsForwardLaw := by
  intro s t law run
  unfold step at run
  split at run
  next =>
    cases run
    exact ⟨law, fun i e f he hf no done => absurd (Option.some.inj (he.symm.trans hf) ▸ done) no⟩
  next c rest pending =>
    obtain ⟨kept, justified⟩ := exec_keepsForwardLaw (s := { s with pending := rest }) c law run
    exact ⟨kept, fun i e f he hf no done => ⟨c, rest, pending, justified i e f he hf no done⟩⟩

end Sys2Proof.Machine

namespace Sys2Proof.Machine

/-! ## A TRANSFER ACK over entries that share a sequence number -/

/-- A stand-in posting that waits to be forwarded. -/
def waitingPosting (seq : Nat) : Entry :=
  ⟨seq, 2, 2, 0, false, .none, .pending,
    .posting ⟨.standIn, false, 0, 0, 0, .cashOut, none, 0, 0, 0, none, none, none, none, none, []⟩⟩

/-- A paused FORWARD batch with two blocks out, over a journal whose second and third entry both carry sequence number 3, the
first of them named by the first entry. -/
def twiceNumbered : State :=
  { State.reset with
    powered := true
    day := { State.reset.day with state := .opened }
    jc := ⟨false, false, 3, none⟩
    nv := { State.reset.nv with
      entries := [waitingPosting 2, waitingPosting 3, waitingPosting 3]
      control := ⟨⟨0, some .opened, 6, 3, 0, true⟩, 0⟩ }
    engine := { State.reset.engine with
      state := .paused, batch := some ⟨.forward, 9, 6, 6, 2, 0, 3, none, 0, 2⟩, lastBatch := 9
      flights := [⟨1, 0, 1, 2, 1, 2, false⟩, ⟨2, 2, 3, 3, 1, 2, false⟩] } }

theorem twiceNumbered_takes : Takes twiceNumbered := ⟨rfl, fun h => nomatch h⟩

theorem twiceNumbered_windowHeld : WindowHeld twiceNumbered := by
  refine ⟨⟨fun h => (nomatch h), fun h => (nomatch h)⟩, fun h => (nomatch h), fun b h => ?_⟩
  cases h
  exact ⟨by decide, by decide, by decide, by decide, rfl⟩

/-- Block 2 carries an entry with sequence number 3, the one that stands third. -/
theorem twiceNumbered_carried : (2, waitingPosting 3) ∈ flightEntries .forward ⟨2, 2, 3, 3, 1, 2, false⟩ (arrived twiceNumbered) ∧
    entryAt 3 (arrived twiceNumbered) = some (waitingPosting 3) := by decide +kernel

/-- The ACCEPT of both blocks leaves the third entry PENDING: block 1 made the second FORWARDED, which block 2 then carries no
more. -/
theorem twiceNumbered_left :
    entryAt 3 (takeAck ⟨9, 2, .accept⟩ (arrived twiceNumbered)) = some (waitingPosting 3) := by decide +kernel

/-- Refutes O54: of two entries with one sequence number the statement asks the one it names to be FORWARDED, and block 1
changes the other in its place. -/
theorem not_ackAcknowledgesOrFails : ¬ Obligations.AckAcknowledgesOrFails := by
  intro claim
  obtain ⟨-, -, taken⟩ := claim ⟨0, 0⟩ ⟨9, 2, .accept⟩ twiceNumbered twiceNumbered_takes
  obtain ⟨t, run, -, -, accept, -⟩ := taken _ twiceNumbered_windowHeld rfl (Or.inr rfl) rfl (by decide) (by decide)
  obtain ⟨⟨forward, -⟩, -⟩ := accept rfl
  obtain ⟨control, changed, -⟩ := forward rfl
  obtain ⟨carried, named⟩ := twiceNumbered_carried
  have there := changed ⟨2, 2, 3, 3, 1, 2, false⟩ (by decide +kernel) _ carried named
  have ran : exec (.transferAck ⟨⟨0, 0⟩, false⟩ ⟨9, 2, .accept⟩) twiceNumbered =
      .next (takeAck ⟨9, 2, .accept⟩ (arrived twiceNumbered)) := silentMessage_eq _ twiceNumbered_takes
  cases run.symm.trans ran
  cases twiceNumbered_left.symm.trans there

end Sys2Proof.Machine

namespace Sys2Proof.Machine

/-! ## The entry to CUTOFF -/

/-- The day of the control record set, its other fields as they are. -/
def State.recordDay (d : RecDay) (s : State) : State :=
  { s with nv := { s.nv with control := { s.nv.control with fields := { s.nv.control.fields with day := some d } } } }

/-- The day written into the control record after the entries of its change (R65, R67). -/
theorem Appended.recordDay {bs : List EntryBody} {s t : State} (h : Appended bs s t) (d : RecDay) :
    Appended bs (s.recordDay d) (writeControl (fun c => { c with day := some d }) t) := by
  obtain ⟨kept, bodies, fields, retained, jc, low⟩ := h
  refine ⟨kept, bodies, ?_, retained, jc, low⟩
  show { t.nv.control.fields with day := some d } = _
  rw [fields]
  rfl

/-- The entry to CUTOFF up to its step 3, where the journal has room (R65). -/
def cutoffEntered (c : CutoffCause) (s : State) : State :=
  setDay .cutoff ((writeControl (fun f => { f with day := some .cutoff })
    (append (.cutoff c) (placeMidnight .control s))).updDay fun d => { d with alarm := none })

section
variable {s : State} (c : CutoffCause)

theorem enterCutoff_room (opened : s.day.state = .opened) (room : slotsUsed s + (midnightBodies s).length + 1 ≤ 16256) :
    enterCutoff c s = .ok (cutoffEntered c s) := by
  unfold enterCutoff
  rw [refusal_control_room (Or.inl opened) room]
  rfl

theorem enterCutoff_full (opened : s.day.state = .opened) (full : ¬slotsUsed s + (midnightBodies s).length + 1 ≤ 16256) :
    enterCutoff c s = .error .journalFull := by
  unfold enterCutoff
  rw [refusal_control_full (Or.inl opened) (by omega)]

theorem cutoffEntered_told (s : State) : Told 0 s (cutoffEntered c s) :=
  ((placeMidnight_told .control s).trans (append_told (.cutoff c) _)).goesOn (by simp [cutoffEntered]) (by simp [cutoffEntered])

theorem cutoffEntered_appended (s : State) :
    Appended (midnightBodies s ++ [.cutoff c]) (s.recordDay .cutoff) (cutoffEntered c s) :=
  ((placeMidnight_append (c := .control) (by simp) (by simp [firstForward]) s).recordDay .cutoff).of_nv_jc rfl rfl rfl

/-- What the entry to CUTOFF leaves beside the journal, the line and the dirty rows (R65). -/
@[simp] theorem cutoffEntered_frame (s : State) : let t := cutoffEntered c s
    t.tables = s.tables ∧ t.posns = s.posns ∧ t.keys = s.keys ∧ t.drawers = s.drawers ∧ t.groups = s.groups ∧
    t.day = { s.day with state := .cutoff, alarm := none } ∧ t.clock = { s.clock with midnights := 0 } ∧ t.store = s.store ∧
    t.queues = s.queues ∧ t.printers = s.printers ∧ t.engine = s.engine ∧ t.powered = s.powered ∧ t.freeUsed = s.freeUsed ∧
    t.pending = s.pending ∧ businessDate t = businessDate s ∧ ∀ p, rd t.screens p = (rd s.screens p).mark 0 := by
  have clock := placeMidnight_midnights (c := .control) (by simp) s
  have date : businessDate (cutoffEntered c s) = businessDate s := by
    unfold businessDate
    rw [(cutoffEntered_appended c s).2.2.1]
    rfl
  have day : (cutoffEntered c s).day = { s.day with state := .cutoff, alarm := none } := by
    simp [cutoffEntered, setDay_state]
  have screens (p : Pos) : rd (cutoffEntered c s).screens p = (rd s.screens p).mark 0 := by
    unfold cutoffEntered
    rw [setDay_screens]
    simp
  refine ⟨?_, ?_, ?_, ?_, ?_, day, ?_, ?_, ?_, ?_, ?_, ?_, ?_, ?_, date, screens⟩ <;> simp [cutoffEntered, clock]

/-- CUTOFF_REACHED carries the date and the time of the event (R65). -/
theorem reportCutoff_eq {u v : State} (date : businessDate v = businessDate u) (clock : v.clock.time = u.clock.time) :
    reportCutoff c v = report 255 (.cutoffReached (businessDate u) c u.clock.time) v := by
  unfold reportCutoff
  rw [date, clock]
  rfl

/-- Entries appended to a state whose recorded day is another, told of a state with the same journal (R45). -/
theorem Appended.recordDay_congr {bs : List EntryBody} {u t : State} {d : RecDay} (h : Appended bs (u.recordDay d) t)
    (nv : s.nv = u.nv) (jc : s.jc = u.jc) (ho : s.line.outbound = u.line.outbound) : Appended bs (s.recordDay d) t :=
  h.congr (by unfold State.recordDay; rw [nv]) jc ho

end

/-- An event that leaves the positions, printers and the store as they are: what `since` leaves open, the clock, the screens and
the day aside, t is s. -/
theorem eq_since_day {s t : State} {k : Nat} {c : Clock} {d : DayCtl} (told : Told k s t) (htables : t.tables = s.tables)
    (hposns : t.posns = s.posns) (hkeys : t.keys = s.keys) (hdrawers : t.drawers = s.drawers) (hgroups : t.groups = s.groups)
    (hday : t.day = d) (hclock : t.clock = c) (hstore : t.store = s.store) (hqueues : t.queues = s.queues)
    (hprinters : t.printers = s.printers) (hengine : t.engine = s.engine) (hpowered : t.powered = s.powered)
    (hfree : t.freeUsed = s.freeUsed) (hpending : t.pending = s.pending) :
    t = { since s t with clock := c, screens := t.screens, day := d } := by
  unfold since
  rw [← told.line, ← htables, ← hposns, ← hkeys, ← hdrawers, ← hgroups, ← hday, ← hclock, ← hstore, ← hqueues, ← hprinters,
    ← hengine, ← hpowered, ← hfree, ← hpending]

/-- The entry to CUTOFF with what the event then queues (R65). -/
theorem cutoffEntered_event (c : CutoffCause) {u w : State} {k : Nat} (after : Says k (cutoffEntered c u) w)
    (same : w = { cutoffEntered c u with line := w.line }) :
    Appended (midnightBodies u ++ [.cutoff c]) (u.recordDay .cutoff) w ∧ StatusRowsMarked u w ∧
      w = { since u w with clock := { u.clock with midnights := 0 }, screens := w.screens,
                           day := { u.day with state := .cutoff, alarm := none } } := by
  obtain ⟨tables, posns, keys, drawers, groups, day, clock, store, queues, printers, engine, powered, free, pending, -, rows⟩ :=
    cutoffEntered_frame c u
  have told := (cutoffEntered_told c u).trans after.told
  have appended := cutoffEntered_appended c u
  generalize cutoffEntered c u = v at *
  have screens : w.screens = v.screens := by rw [same]
  refine ⟨after.appended (by rw [same]) (by rw [same]) appended, fun p => ?_, ?_⟩
  · rw [screens, rows p, mark_dirty]
    exact ⟨.inl rfl, .mark 0 _⟩
  · refine eq_since_day told ?_ ?_ ?_ ?_ ?_ ?_ ?_ ?_ ?_ ?_ ?_ ?_ ?_ ?_ <;> rw [same] <;> assumption

section
variable {s : State}

/-- A CLOSE of an OPEN day with room (R65). -/
theorem exec_closeDay_entered (h : Hdr) (ht : Takes s) (opened : s.day.state = .opened)
    (room : slotsUsed s + (midnightBodies s).length + 1 ≤ 16256) :
    exec (.closeDay h) s = .next (reportCutoff .request (answered h .accepted .none (cutoffEntered .request (arrived s)))) := by
  have opened' : (arrived s).day.state = .opened := by simpa using opened
  show execClose h s = _
  unfold execClose
  rw [message_eq h _ ht]
  rw [if_neg (not_not.2 opened'), enterCutoff_room .request opened' (by rwa [slotsUsed_arrived, midnightBodies_arrived])]
  dsimp only
  rw [reply_eq]

theorem exec_closeDay_full (h : Hdr) (ht : Takes s) (opened : s.day.state = .opened)
    (full : ¬slotsUsed s + (midnightBodies s).length + 1 ≤ 16256) :
    exec (.closeDay h) s = .next (answered h .journalFull .none (arrived s)) := by
  have opened' : (arrived s).day.state = .opened := by simpa using opened
  show execClose h s = _
  unfold execClose
  rw [message_eq h _ ht]
  rw [if_neg (not_not.2 opened'), enterCutoff_full .request opened' (by rwa [slotsUsed_arrived, midnightBodies_arrived])]
  dsimp only
  rw [reply_eq]

theorem exec_closeDay_notOpen (h : Hdr) (ht : Takes s) (notOpen : s.day.state ≠ .opened) :
    exec (.closeDay h) s = .next (answered h .dayState .none (arrived s)) := by
  show execClose h s = _
  unfold execClose
  rw [message_eq h _ ht]
  rw [if_pos (by simpa using notOpen), reply_eq]

/-- The firing of the armed alarm in an OPEN day (R62). -/
theorem exec_cutoffAlarmFire (powered : s.powered = true) (opened : s.day.state = .opened) {sec : Nat}
    (armed : s.day.alarm = some ⟨sec, true⟩) : exec .cutoffAlarmFire s = .next (fireAlarm sec s.begin) := by
  show execCutoffAlarmFire s = _
  unfold execCutoffAlarmFire
  rw [event_eq _ powered]
  rw [show s.begin.day.alarm = some ⟨sec, true⟩ from armed]
  exact congrArg _ (if_pos ⟨rfl, opened⟩)

theorem exec_cutoffAlarmFire_entered (powered : s.powered = true) (opened : s.day.state = .opened) {sec : Nat}
    (armed : s.day.alarm = some ⟨sec, true⟩) (room : slotsUsed s + (midnightBodies s).length + 1 ≤ 16256) :
    exec .cutoffAlarmFire s = .next (reportCutoff (.alarm sec) (cutoffEntered (.alarm sec) s.begin)) := by
  rw [exec_cutoffAlarmFire powered opened armed, fireAlarm, enterCutoff_room (s := s.begin) _ opened room]

theorem exec_cutoffAlarmFire_full (powered : s.powered = true) (opened : s.day.state = .opened) {sec : Nat}
    (armed : s.day.alarm = some ⟨sec, true⟩) (full : ¬slotsUsed s + (midnightBodies s).length + 1 ≤ 16256) :
    exec .cutoffAlarmFire s = .next { s.begin with day := { s.day with alarm := none } } := by
  rw [exec_cutoffAlarmFire powered opened armed, fireAlarm, enterCutoff_full (s := s.begin) _ opened full]
  rfl

end

/-- Settles O37: the CUTOFF entry behind a pending midnight, the day written after it, the reply before the report. -/
theorem cutoffIsEntered : Obligations.CutoffIsEntered := by
  refine ⟨fun h s ht notOpen => exec_closeDay_notOpen h ht notOpen, fun s powered opened => ?_⟩
  intro fit entered
  have ht : Takes s := ⟨powered, by rw [opened]; exact fun h => nomatch h⟩
  refine ⟨fun h => ⟨fun room => ⟨_, exec_closeDay_entered h ht opened room, ?_⟩, fun full => exec_closeDay_full h ht opened full⟩,
    fun sec armed => ⟨fun room => ⟨_, exec_cutoffAlarmFire_entered powered opened armed room, ?_⟩,
      fun full => exec_cutoffAlarmFire_full powered opened armed full⟩⟩
  · obtain ⟨u, hu⟩ : ∃ u, u = arrived s := ⟨_, rfl⟩
    obtain ⟨nv, jc, queued, clock, day⟩ : s.nv = u.nv ∧ s.jc = u.jc ∧ s.line.outbound = u.line.outbound ∧
        u.clock = s.clock ∧ u.day = s.day := by simp [hu]
    obtain ⟨-, -, -, -, -, -, clockV, -, -, -, -, -, -, -, date, -⟩ := cutoffEntered_frame .request u
    have reply := answered_says h .accepted .none (cutoffEntered .request u)
    have replied := (cutoffEntered_told .request u).replied (hdr := h) (st := .accepted) (x := .none)
    have told := (cutoffEntered_told .request u).trans reply.told
    have time : (answered h .accepted .none (cutoffEntered .request u)).clock.time = u.clock.time := by
      show (cutoffEntered .request u).clock.time = _
      rw [clockV]
    rw [← hu, reportCutoff_eq .request (v := answered h .accepted .none (cutoffEntered .request u)) date time]
    have report := report_says (p := 255) (x := .cutoffReached (businessDate u) .request u.clock.time) (by simp)
      (answered h .accepted .none (cutoffEntered .request u))
    have reported := told.reported (p := 255) (x := .cutoffReached (businessDate u) .request u.clock.time)
      (hu ▸ arrived_online s)
    obtain ⟨appended, rows, frame⟩ := cutoffEntered_event .request (reply.trans report) (by rw [report_eq]; rfl)
    have date' : businessDate u = businessDate s := by unfold businessDate; rw [nv]
    rw [hu, midnightBodies_arrived, ← hu] at appended
    rw [← date', ← clock, ← day]
    rw [queued]
    refine ⟨⟨appended.recordDay_congr nv jc queued, ?_⟩, fun few => ⟨?_, ?_⟩, frame⟩
    · rw [if_pos rfl, ← hu]
      exact rows
    · exact Queued.stays (Replied.arrived (hu ▸ replied (by omega))) report.told
    · exact Reported.arrived (hu ▸ reported (by omega))
  · have report := report_says (p := 255) (x := .cutoffReached (businessDate s) (.alarm sec) s.clock.time) (by simp)
      (cutoffEntered (.alarm sec) s.begin)
    obtain ⟨-, -, -, -, -, -, clock, -, -, -, -, -, -, -, date, -⟩ := cutoffEntered_frame (.alarm sec) s.begin
    rw [reportCutoff_eq (u := s) (.alarm sec) date (by rw [clock]; rfl)]
    obtain ⟨appended, rows, frame⟩ := cutoffEntered_event (.alarm sec) report (by rw [report_eq])
    refine ⟨⟨appended.recordDay_congr rfl rfl rfl, ?_⟩, fun on few => ?_, frame⟩
    · rw [if_neg (by simp)]
      exact rows
    · exact (cutoffEntered_told (.alarm sec) s.begin).reported on (by show s.line.outbound.length + 0 + 1 < 28; omega)

end Sys2Proof.Machine

namespace Sys2Proof.Machine

/-! ## The lines of a BOOK LINES message in the store -/

section
variable {a : Account} {s t : State}

/-- How many of a number of lines offered one after the other the store keeps for an account (R125, R126). -/
def linesKept (a : Account) (n : Nat) (s : State) : Nat :=
  if findAccount a s = none ∧ 64 ≤ s.store.length then 0
  else min n (min (32 - (accountLines a s).length) (512 - storedLines s))

theorem accountLines_of_none (h : findAccount a s = none) : accountLines a s = [] := by
  unfold accountLines
  rw [h]
  rfl

theorem accountLines_of_some {r : AccountRec} (h : findAccount a s = some r) : accountLines a s = r.lines := by
  unfold accountLines
  rw [h]
  rfl

theorem storeHasRoom_iff : StoreHasRoom a s ↔
    storedLines s < 512 ∧ (findAccount a s = none → s.store.length < 64) ∧ (accountLines a s).length < 32 := by
  unfold StoreHasRoom
  cases h : findAccount a s with
  | none => simp [accountLines_of_none h]
  | some r => simp [accountLines_of_some h]

theorem linesKept_congr (h : t.store = s.store) (n : Nat) : linesKept a n t = linesKept a n s := by
  unfold linesKept storedLines
  rw [findAccount_congr a h, accountLines_congr a h, h]

/-- Without room not one line is kept. -/
theorem linesKept_full (full : ¬StoreHasRoom a s) (n : Nat) : linesKept a n s = 0 := by
  unfold linesKept
  split
  · rfl
  · next room =>
    rw [storeHasRoom_iff] at full
    by_cases new : findAccount a s = none
    · have : s.store.length < 64 := by
        by_contra many
        exact room ⟨new, by omega⟩
      have : (accountLines a s).length = 0 := by rw [accountLines_of_none new]; rfl
      have : 512 ≤ storedLines s := by
        by_contra few
        exact full ⟨by omega, fun _ => by assumption, by omega⟩
      omega
    · have : ¬(storedLines s < 512 ∧ (accountLines a s).length < 32) := fun h => full ⟨h.1, fun k => absurd k new, h.2⟩
      omega

/-- With room the first line is kept, and of the rest as many as the store then keeps. -/
theorem linesKept_succ (room : StoreHasRoom a s) (found : findAccount a t ≠ none)
    (lines : (accountLines a t).length = (accountLines a s).length + 1) (stored : storedLines t = storedLines s + 1) (n : Nat) :
    linesKept a (n + 1) s = linesKept a n t + 1 := by
  obtain ⟨few, new, short⟩ := storeHasRoom_iff.1 room
  unfold linesKept
  rw [if_neg (fun h => absurd (new h.1) (by omega)), if_neg (fun h => found h.1), lines, stored]
  omega

/-! ### One line added -/

/-- One line more in the one record of an account, in the count of all lines (R125). -/
theorem sum_lines_updated {f : AccountRec → AccountRec} (hf : ∀ r, (f r).lines.length = r.lines.length + 1)
    {xs : List AccountRec} (nodup : (xs.map (·.account)).Nodup) (mem : a ∈ xs.map (·.account)) :
    ((xs.map fun r => if r.account == a then f r else r).map fun r => r.lines.length).sum =
      (xs.map fun r => r.lines.length).sum + 1 := by
  induction xs with
  | nil => cases mem
  | cons x xs ih =>
    obtain ⟨fresh, nodup⟩ := List.nodup_cons.1 nodup
    simp only [List.map_cons, List.sum_cons]
    by_cases here : x.account = a
    · have rest : (xs.map fun r => if r.account == a then f r else r) = xs := by
        refine (List.map_congr_left fun r hr => ?_).trans (List.map_id xs)
        have : r.account ≠ a := fun e => fresh (List.mem_map.2 ⟨r, hr, e.trans here.symm⟩)
        simp [this]
      have first : (if (x.account == a) = true then f x else x) = f x := by simp [here]
      rw [rest, first, hf]
      omega
    · have first : (if (x.account == a) = true then f x else x) = x := by simp [here]
      rw [first, ih nodup ((List.mem_cons.1 mem).resolve_left fun e => here e.symm)]
      omega

theorem mem_accounts {r : AccountRec} (h : findAccount a s = some r) : a ∈ s.store.map (·.account) :=
  List.mem_map.2 ⟨r, List.mem_of_find?_eq_some h, findAccount_account a s h⟩

theorem not_mem_accounts (h : findAccount a s = none) : a ∉ s.store.map (·.account) := fun mem => by
  obtain ⟨r, hr, e⟩ := List.mem_map.1 mem
  exact absurd (List.find?_eq_none.1 h r hr) (by simp [e])

theorem storedLines_addLine (nodup : (s.store.map (·.account)).Nodup) (b : Option Nat) (l : PLine) :
    storedLines (addLine a b l s) = storedLines s + 1 := by
  unfold addLine
  cases h : findAccount a s with
  | none => simp [storedLines]
  | some r =>
    refine sum_lines_updated (fun r => ?_) nodup (mem_accounts h)
    simp

/-- The accounts of the store after a line is added: no account twice (R125). -/
theorem nodup_addLine (nodup : (s.store.map (·.account)).Nodup) (b : Option Nat) (l : PLine) :
    ((addLine a b l s).store.map (·.account)).Nodup := by
  unfold addLine
  cases h : findAccount a s with
  | none =>
    rw [List.map_append]
    refine List.Nodup.append nodup (List.nodup_singleton _) ?_
    simpa [List.disjoint_singleton] using not_mem_accounts h
  | some r =>
    have same : ((updAccount a (fun r => { r with lines := r.lines ++ [l], bookType := b.orElse fun _ => r.bookType }) s).store.map
        (·.account)) = s.store.map (·.account) := by
      simp only [updAccount, List.map_map]
      refine List.map_congr_left fun r _ => ?_
      simp only [Function.comp_apply]
      split <;> rfl
    rw [same]
    exact nodup

end

/-! ### The lines of a message -/

/-- A line of a message as the store keeps it (R126). -/
def keptLine (seq : Nat) (l : BookLineItem) : PLine :=
  ⟨l.date, l.name, l.amount, l.exponent, l.balance, false, none, seq⟩

/-- What offering the lines of a message leaves of the store, with how many were kept (R125, R126). -/
structure LinesOffered (a : Account) (t seq : Nat) (ls : List BookLineItem) (s : State) (r : State × Nat) : Prop where
  kept : r.2 = linesKept a ls.length s
  stored : storedLines r.1 = storedLines s + r.2
  lines : accountLines a r.1 = accountLines a s ++ (ls.take r.2).zipIdx.map fun l => keptLine (seq + l.2) l.1
  others : ∀ y, y ≠ a → accountLines y r.1 = accountLines y s
  none : r.2 = 0 → r.1.store = s.store
  some : 0 < r.2 → ∃ x, findAccount a r.1 = some x ∧ x.bookType = some t
  marked : jobMarked a r.1 = jobMarked a s
  frame : r.1 = { s with nv := r.1.nv, nvLog := r.1.nvLog, store := r.1.store }

theorem offerLines_cons (a : Account) (t seq : Nat) (l : BookLineItem) (ls : List BookLineItem) (s : State) :
    offerLines a t seq (l :: ls) s =
      (let r := offerLines a t (seq + 1) ls (offerLine a (some t) (keptLine seq l) s)
       (r.1, r.2 + if storeKeeps a s then 1 else 0)) := rfl

theorem changePrint_frame_eq (q : Nat) (x : PrintState) (s : State) :
    changePrint q x s = { s with nv := (changePrint q x s).nv, nvLog := (changePrint q x s).nvLog } := by
  unfold changePrint
  (repeat' split) <;> rfl

section
variable {a : Account} {t seq : Nat} {ls : List BookLineItem} {s : State}

/-- A line the store has no room for (R125). -/
theorem offerLine_lost (full : ¬StoreHasRoom a s) (b : Option Nat) (l : PLine) :
    offerLine a b l s = changePrint l.source .overflow s := by
  unfold offerLine
  rw [if_neg (mt (storeKeeps_iff a s).1 full)]

theorem offerLine_room (room : StoreHasRoom a s) (b : Option Nat) (l : PLine) :
    offerLine a b l s = changePrint l.source .stored (addLine a b l s) := by
  unfold offerLine
  rw [if_pos ((storeKeeps_iff a s).2 room)]

theorem addLine_frame_eq (b : Option Nat) (l : PLine) (s : State) :
    addLine a b l s = { s with store := (addLine a b l s).store } := by
  unfold addLine
  split <;> rfl

theorem offerLines_offered (nodup : (s.store.map (·.account)).Nodup) :
    LinesOffered a t seq ls s (offerLines a t seq ls s) := by
  induction ls generalizing s seq with
  | nil =>
    have nothing : linesKept a 0 s = 0 := by unfold linesKept; split <;> simp
    exact ⟨nothing.symm, rfl, (List.append_nil _).symm, fun _ _ => rfl, fun _ => rfl, fun h => absurd h (by simp [offerLines]), rfl, rfl⟩
  | cons l ls ih =>
    rw [offerLines_cons]
    by_cases room : StoreHasRoom a s
    · obtain ⟨u, hu⟩ : ∃ u, u = offerLine a (some t) (keptLine seq l) s := ⟨_, rfl⟩
      have store : u.store = (addLine a (some t) (keptLine seq l) s).store := by rw [hu, offerLine_room room]; simp
      have found := (findAccount_congr a store).trans (findAccount_addLine_self a s (some t) (keptLine seq l))
      have added : storedLines u = storedLines s + 1 := by
        unfold storedLines
        rw [store]
        exact storedLines_addLine nodup _ _
      have lines : accountLines a u = accountLines a s ++ [keptLine seq l] := by
        unfold accountLines
        rw [found]
        cases findAccount a s <;> rfl
      have mark : jobMarked a u = jobMarked a s := by
        unfold jobMarked
        rw [found]
        cases findAccount a s <;> rfl
      have rest := ih (s := u) (seq := seq + 1) (by rw [store]; exact nodup_addLine nodup _ _)
      rw [← hu, if_pos ((storeKeeps_iff a s).2 room)]
      generalize offerLines a t (seq + 1) ls u = r at rest
      refine ⟨?_, ?_, ?_, fun y hy => ?_, fun h => absurd h (Nat.succ_ne_zero _), fun _ => ?_, rest.marked.trans mark, ?_⟩
      · show r.2 + 1 = _
        rw [List.length_cons, linesKept_succ room (by simp [found]) (by rw [lines]; simp) added, ← rest.kept]
      · show storedLines r.1 = _ + (r.2 + 1)
        rw [rest.stored, added]
        omega
      · show accountLines a r.1 = _ ++ ((l :: ls).take (r.2 + 1)).zipIdx.map _
        rw [rest.lines, lines, List.take_succ_cons, List.zipIdx_cons, List.zipIdx_succ]
        simp [Nat.add_assoc, Nat.add_comm 1, Function.comp_def]
      · exact (rest.others y hy).trans ((accountLines_congr y store).trans
          (by unfold accountLines; rw [findAccount_addLine_other a y s _ _ hy]))
      · by_cases more : 0 < r.2
        · exact rest.some more
        · have same := rest.none (by omega)
          refine ⟨_, (findAccount_congr a same).trans found, ?_⟩
          cases findAccount a s <;> rfl
      · have one : u = { s with nv := u.nv, nvLog := u.nvLog, store := u.store } := by
          rw [hu, offerLine_room room, changePrint_frame_eq, addLine_frame_eq]
        exact rest.frame.trans (by conv_lhs => rw [one])
    · obtain ⟨u, hu⟩ : ∃ u, u = offerLine a (some t) (keptLine seq l) s := ⟨_, rfl⟩
      have one : u = { s with nv := u.nv, nvLog := u.nvLog } := by
        rw [hu, offerLine_lost room]
        exact changePrint_frame_eq ..
      have store : u.store = s.store := by rw [one]
      have rest := ih (s := u) (seq := seq + 1) (by rw [store]; exact nodup)
      rw [← hu, if_neg (mt (storeKeeps_iff a s).1 room)]
      generalize offerLines a t (seq + 1) ls u = r at rest
      have nothing : r.2 = 0 := by rw [rest.kept, linesKept_congr store, linesKept_full room]
      have same := (rest.none nothing).trans store
      refine ⟨?_, ?_, ?_, fun y hy => accountLines_congr y same, fun _ => same, fun h => ?_, jobMarked_congr a same, ?_⟩
      · show r.2 + 0 = _
        rw [nothing, linesKept_full room]
      · show storedLines r.1 = _ + (r.2 + 0)
        rw [nothing]
        unfold storedLines
        rw [same]
        rfl
      · show accountLines a r.1 = _ ++ ((l :: ls).take (r.2 + 0)).zipIdx.map _
        rw [nothing, accountLines_congr a same]
        simp
      · rw [show (r.1, r.2 + 0).2 = 0 from nothing] at h
        cases h
      · exact rest.frame.trans (by conv_lhs => rw [one])

end

end Sys2Proof.Machine

namespace Sys2Proof.Machine

/-! ## The print states of the lines of a message -/

section
variable {s t : State}

/-- An entry with a print state it may change to (R49). -/
def Entry.printed (x : PrintState) (e : Entry) : Entry := if printChangeOk e.print x then { e with print := x } else e

theorem Entry.printed_body (x : PrintState) (e : Entry) : (e.printed x).body = e.body := by
  unfold Entry.printed
  split <;> rfl

/-- A change of print state changes the one entry it names, where R49 allows it. -/
theorem changePrint_entries (q : Nat) (x : PrintState) (s : State) (i : Nat) :
    (changePrint q x s).nv.entries[i]? =
      if q ≠ 0 ∧ q - 1 = i ∧ q ≤ s.nv.control.fields.entryCount then (s.nv.entries[i]?).map (Entry.printed x)
      else s.nv.entries[i]? := by
  unfold changePrint entryAt journal
  by_cases zero : q = 0
  · simp [zero]
  by_cases counted : q ≤ s.nv.control.fields.entryCount
  · rw [if_neg zero, List.getElem?_take, if_pos (by omega)]
    cases found : s.nv.entries[q - 1]? with
    | none =>
      dsimp only
      by_cases here : q - 1 = i
      · rw [if_pos ⟨zero, here, counted⟩, ← here, found]
        rfl
      · rw [if_neg fun h => here h.2.1]
    | some e =>
      dsimp only
      by_cases allowed : printChangeOk e.print x
      · rw [if_pos allowed]
        show (s.nv.entries.modify (q - 1) fun e' => { e' with print := x, fwd := e.fwd })[i]? = _
        rw [List.getElem?_modify]
        by_cases here : q - 1 = i
        · rw [if_pos ⟨zero, here, counted⟩, ← here, found]
          simp [Entry.printed, allowed]
        · rw [if_neg fun h => here h.2.1]
          simp [here]
      · rw [if_neg allowed]
        by_cases here : q - 1 = i
        · rw [if_pos ⟨zero, here, counted⟩, ← here, found]
          simp [Entry.printed, allowed]
        · rw [if_neg fun h => here h.2.1]
  · rw [if_neg zero, List.getElem?_take, if_neg (by omega), if_neg fun h => counted h.2.2]

theorem changePrint_control (q : Nat) (x : PrintState) (s : State) :
    (changePrint q x s).nv.control = s.nv.control ∧ (changePrint q x s).nv.retained = s.nv.retained := by
  unfold changePrint
  (repeat' split) <;> exact ⟨rfl, rfl⟩

theorem changePrint_bodies (q : Nat) (x : PrintState) (s : State) :
    (changePrint q x s).nv.entries.map (·.body) = s.nv.entries.map (·.body) := by
  refine List.ext_getElem? fun i => ?_
  rw [List.getElem?_map, List.getElem?_map, changePrint_entries]
  split
  · rw [Option.map_map]
    exact congrArg (Option.map · _) (funext fun e => e.printed_body x)
  · rfl

theorem changePrint_entryAt (q : Nat) (x : PrintState) (s : State) (p : Nat) :
    entryAt p (changePrint q x s) = if p = q then (entryAt p s).map (Entry.printed x) else entryAt p s := by
  unfold entryAt journal
  rw [(changePrint_control q x s).1, List.getElem?_take, List.getElem?_take, changePrint_entries]
  by_cases zero : p = 0
  · simp [zero]
  · rw [if_neg zero, if_neg zero]
    by_cases same : p = q
    · subst same
      rw [if_pos rfl]
      by_cases counted : p ≤ s.nv.control.fields.entryCount
      · rw [if_pos (by omega), if_pos ⟨zero, rfl, counted⟩, if_pos (by omega)]
      · have out : ¬p - 1 < s.nv.control.fields.entryCount := by omega
        rw [if_neg out, if_neg out]
        rfl
    · have other : ¬(q ≠ 0 ∧ q - 1 = p - 1 ∧ q ≤ s.nv.control.fields.entryCount) := fun h => same (by omega)
      rw [if_neg same, if_neg other]

/-- A change of the print state of an entry that an event appended (R125). -/
theorem Appended.changePrint {bs : List EntryBody} (h : Appended bs s t) {q : Nat} (later : (journal s).length < q)
    (x : PrintState) : Appended bs s (changePrint q x t) := by
  obtain ⟨control, retained⟩ := changePrint_control q x t
  obtain ⟨kept, bodies, fields, ret, jc, low⟩ := h
  refine ⟨?_, ?_, control ▸ fields, retained.trans ret, ?_, ?_⟩
  · refine Eq.trans (List.ext_getElem? fun i => ?_) kept
    rw [List.getElem?_take, List.getElem?_take, changePrint_entries]
    by_cases inside : i < (journal s).length
    · rw [if_pos inside, if_pos inside, if_neg (by omega)]
    · rw [if_neg inside, if_neg inside]
  · rw [List.map_drop, changePrint_bodies, ← List.map_drop, bodies]
  · simpa using jc
  · exact low.goesOn (by simp) (by simp) [] (by simp) fun _ _ _ => List.not_mem_nil

/-- The print state a line gets by its place among the lines of its message (R125). -/
def offeredPrint (kept k : Nat) : PrintState := if k < kept then .stored else .overflow

theorem entryAt_congr {u : State} (h : u.nv = s.nv) (p : Nat) : entryAt p u = entryAt p s := by
  unfold entryAt journal
  rw [h]

/-- What offering lines leaves of the journal: the entry of each line shows by its place whether the line was kept. -/
theorem offerLines_prints {a : Account} {ty seq : Nat} {ls : List BookLineItem} (nodup : (s.store.map (·.account)).Nodup) :
    let r := offerLines a ty seq ls s
    (∀ p, p < seq → entryAt p r.1 = entryAt p s) ∧
    ∀ k, k < ls.length → entryAt (seq + k) r.1 = (entryAt (seq + k) s).map (Entry.printed (offeredPrint r.2 k)) := by
  induction ls generalizing s seq with
  | nil => exact ⟨fun _ _ => rfl, fun k hk => absurd hk (Nat.not_lt_zero k)⟩
  | cons l ls ih =>
    obtain ⟨u, hu⟩ : ∃ u, u = offerLine a (some ty) (keptLine seq l) s := ⟨_, rfl⟩
    rw [offerLines_cons, ← hu]
    obtain ⟨nodupU, x, first, now, later⟩ : (u.store.map (·.account)).Nodup ∧ ∃ x, u.nv = (changePrint seq x s).nv ∧
        let n := (offerLines a ty (seq + 1) ls u).2
        offeredPrint (n + if storeKeeps a s then 1 else 0) 0 = x ∧
        ∀ k, offeredPrint (n + if storeKeeps a s then 1 else 0) (k + 1) = offeredPrint n k := by
      by_cases room : StoreHasRoom a s
      · rw [if_pos ((storeKeeps_iff a s).2 room), hu, offerLine_room room, (changePrint_store ..).1]
        refine ⟨nodup_addLine nodup _ _, .stored, changePrint_nv_congr _ _ (by simp), by simp [offeredPrint], fun k => ?_⟩
        simp [offeredPrint]
      · have store : u.store = s.store := by rw [hu, offerLine_lost room, (changePrint_store ..).1]
        have rest := offerLines_offered (a := a) (t := ty) (seq := seq + 1) (ls := ls) (s := u) (by rwa [store])
        have nothing := rest.kept.trans ((linesKept_congr store _).trans (linesKept_full room _))
        rw [if_neg (mt (storeKeeps_iff a s).1 room), store, nothing]
        exact ⟨nodup, .overflow, by rw [hu, offerLine_lost room]; rfl, by simp [offeredPrint], fun k => by simp [offeredPrint]⟩
    have atU (p : Nat) := (entryAt_congr first p).trans (changePrint_entryAt seq x s p)
    obtain ⟨before, after⟩ := ih (s := u) (seq := seq + 1) nodupU
    refine ⟨fun p hp => ?_, fun k hk => ?_⟩
    · exact (before p (by omega)).trans ((atU p).trans (if_neg (by omega)))
    · cases k with
      | zero =>
        show entryAt seq _ = _
        rw [now]
        exact (before seq (by omega)).trans ((atU seq).trans (if_pos rfl))
      | succ k =>
        have place : seq + (k + 1) = seq + 1 + k := by omega
        rw [later, place]
        refine (after k (by simpa using hk)).trans (congrArg (Option.map _) ?_)
        exact (atU _).trans (if_neg (by omega))

/-- Offering lines whose entries an event has appended leaves what it appended. -/
theorem offerLines_appended {bs : List EntryBody} {a : Account} {ty seq : Nat} {ls : List BookLineItem} (h : Appended bs s t)
    (later : (journal s).length < seq) : Appended bs s (offerLines a ty seq ls t).1 := by
  induction ls generalizing t seq with
  | nil => exact h
  | cons l ls ih =>
    rw [offerLines_cons]
    refine ih ?_ (by omega)
    by_cases room : StoreHasRoom a t
    · rw [offerLine_room room]
      exact (h.of_nv_jc (by simp) (by simp) (by simp)).changePrint later _
    · rw [offerLine_lost room]
      exact h.changePrint later _

/-- The entries an event appends, beyond those of a journal, show no print state yet (R49). -/
theorem appendAll_fresh (bs : List EntryBody) {n : Nat} {u : State}
    (h : ∀ i e, n ≤ i → (journal u)[i]? = some e → e.print = .none) {i : Nat} {e : Entry} (hi : n ≤ i)
    (he : (journal (appendAll bs u))[i]? = some e) : e.print = .none := by
  induction bs generalizing u with
  | nil => exact h i e hi he
  | cons b bs ih =>
    refine ih (u := append b u) (fun i e hi he => ?_) he
    rw [journal_counted (append_entries b u) (by rw [append_fields])] at he
    rcases List.mem_append.1 (List.mem_of_getElem? he) with old | new
    · by_cases inside : i < (journal u).length
      · rw [List.getElem?_append_left inside] at he
        exact h i e hi he
      · rw [List.getElem?_append_right (by omega)] at he
        rw [List.mem_singleton.1 (List.mem_of_getElem? he)]
        rfl
    · rw [List.mem_singleton.1 new]
      rfl

end

end Sys2Proof.Machine

namespace Sys2Proof.Machine

/-! ## The checks of BOOK LINES -/

theorem bookLineBad_iff (l : BookLineItem) : bookLineBad l = true ↔ ¬LineSound l := by
  have name : l.name.all isPrintable = true ↔ PrintableText l.name := by
    simp [isPrintable, PrintableText]
  have amount : Config.maxAmount = 999999999999 := rfl
  have total : Config.maxTotal = 99999999999999 := rfl
  unfold bookLineBad LineSound
  rw [← name, amount, total]
  cases dateOk l.date <;> cases l.name.all isPrintable <;> cases l.balance <;> simp <;> omega

theorem bookLinesBad_iff (a : Account) (ty : Nat) (ls : List BookLineItem) : bookLinesBad a ty ls = true ↔
    (a = [] ∨ 19 < a.length ∨ 3 < ty ∨ ls = [] ∨ 16 < ls.length ∨ ∃ l ∈ ls, ¬LineSound l) := by
  have account : a.length = 0 ↔ a = [] := List.length_eq_zero_iff
  have lines : ls.any bookLineBad = true ↔ ∃ l ∈ ls, ¬LineSound l := by
    simp only [List.any_eq_true, bookLineBad_iff]
  unfold bookLinesBad accountOk
  simp only [Bool.or_eq_true, lines, List.isEmpty_iff, decide_eq_true_eq, Bool.not_eq_true', Bool.and_eq_false_iff,
    decide_eq_false_iff_not, ← account]
  have least : ¬1 ≤ a.length ↔ a.length = 0 := by omega
  have most : ¬a.length ≤ 19 ↔ 19 < a.length := by omega
  rw [least, most]
  simp only [or_assoc]

/-- The room of a business-class request, with its pending midnight (R42, R45, R47). -/
theorem fits_business_room (n : Nat) (s : State) :
    fits .business n s = true ↔ slotsUsed s + (midnightBodies s).length + n ≤ 16128 := by
  have m : (midnightBodies s).length = if midnightAhead .business s then 1 else 0 := by
    unfold midnightBodies
    by_cases h : 0 < s.clock.midnights <;> simp [midnightAhead, h]
  have limit : CapClass.limit .business = 16128 := rfl
  rw [m]
  unfold fits
  rw [decide_eq_true_eq, limit]
  omega

section
variable {h : Hdr} {p : Pos} {a : Account} {ty : Nat} {ls : List BookLineItem} {s : State}

/-- The checks of a well-formed BOOK LINES message, in order (R126). -/
theorem bookLinesRefusal_follows (h : Hdr) (n : Nat) (s : State) : Follows
    [ (s.day.state = .opened ∨ s.day.state = .cutoff, .dayState), (s.clock.isSet = true, .clockUnset),
      (h.pos < 16, .badPosition), (slotsUsed s + (midnightBodies s).length + n ≤ 16128, .journalFull) ]
    (fun p => h.pos = p.val) (bookLinesRefusal h n s) := by
  unfold bookLinesRefusal
  refine Follows.check Iff.rfl fun _ => Follows.check (by simp) fun _ => ?_
  by_cases inside : h.pos < 16
  · refine Follows.passes inside ?_
    have at_ : posOf h.pos = some ⟨h.pos, inside⟩ := by simp [posOf, inside]
    rw [at_]
    dsimp only
    split
    · next room => exact Follows.passes ((fits_business_room n s).1 room) ⟨fun _ f => f, rfl⟩
    · next full => exact Follows.fails (mt (fits_business_room n s).2 full)
  · have at_ : posOf h.pos = none := by simp [posOf, inside]
    rw [at_]
    exact Follows.fails inside

theorem bookLinesRefusal_arrived (h : Hdr) (n : Nat) (s : State) : bookLinesRefusal h n (arrived s) = bookLinesRefusal h n s := by
  have room : fits .business n (arrived s) = fits .business n s := by simp [fits, slotsUsed, midnightAhead]
  unfold bookLinesRefusal
  rw [room]
  simp

theorem exec_bookLines_incomplete (ht : Takes s) :
    exec (.bookLines h .incomplete) s = .next (answered h .malformed .none (arrived s)) := by
  show execBookLines h .incomplete s = _
  unfold execBookLines
  rw [message_eq h _ ht]
  simp only [reply_eq]

theorem exec_bookLines_bad (ht : Takes s) (bad : bookLinesBad a ty ls = true) :
    exec (.bookLines h (.full a ty ls)) s = .next (answered h .malformed .none (arrived s)) := by
  show execBookLines h (.full a ty ls) s = _
  unfold execBookLines
  rw [message_eq h _ ht]
  simp only [bad, if_true, reply_eq]

theorem exec_bookLines_refused (ht : Takes s) (good : bookLinesBad a ty ls = false) {st : Status}
    (refused : bookLinesRefusal h ls.length s = .error st) :
    exec (.bookLines h (.full a ty ls)) s = .next (answered h st .none (arrived s)) := by
  rw [← bookLinesRefusal_arrived] at refused
  show execBookLines h (.full a ty ls) s = _
  unfold execBookLines
  rw [message_eq h _ ht]
  simp only [good, refused, reply_eq, Bool.false_eq_true, if_false]

theorem exec_bookLines_taken (ht : Takes s) (good : bookLinesBad a ty ls = false) {p : Pos}
    (ok : bookLinesRefusal h ls.length s = .ok p) :
    exec (.bookLines h (.full a ty ls)) s = .next (takeBookLines h p a ty ls (arrived s)) := by
  rw [← bookLinesRefusal_arrived] at ok
  show execBookLines h (.full a ty ls) s = _
  unfold execBookLines
  rw [message_eq h _ ht]
  simp only [good, ok, Bool.false_eq_true, if_false]

/-! ## A message that is taken -/

theorem bookLinesRefusal_ok (hp : h.pos = p.val) (day : s.day.state = .opened ∨ s.day.state = .cutoff)
    (clock : s.clock.isSet = true) {n : Nat} (room : slotsUsed s + (midnightBodies s).length + n ≤ 16128) :
    bookLinesRefusal h n s = .ok p := by
  unfold bookLinesRefusal
  rw [if_neg (not_not.2 day), if_neg (by simp [clock]), hp, posOf_val]
  exact if_pos ((fits_business_room n s).2 room)

/-- The lines of a job mark set are those it had (R128). -/
theorem storedLines_attemptJob (hd : s.day.state = .opened ∨ s.day.state = .cutoff) :
    storedLines (attemptJob p a s) = storedLines s := by
  have marks (n : Prn) : (placeJob n ⟨a, p⟩ s).store = (updAccount a (fun r => { r with jobMark := true }) s).store := by
    rw [placeJob_eq]
    dsimp only
    (repeat' split) <;> simp [queued]
  rw [attemptJob_eq hd]
  split
  · unfold storedLines
    rw [marks]
    simp only [updAccount, List.map_map]
    refine congrArg List.sum (List.map_congr_left fun r _ => ?_)
    simp only [Function.comp_apply]
    split <;> rfl
  · rfl

/-- What the attempt to create a job after lines were kept leaves (R125, R129). -/
structure JobFollows (p : Pos) (a : Account) (s t : State) : Prop where
  stored : storedLines t = storedLines s
  lines : ∀ y, accountLines y t = accountLines y s
  book : (findAccount a t).bind (·.bookType) = (findAccount a s).bind (·.bookType)
  marked : jobMarked a s = true → t.queues = s.queues ∧ t.printers = s.printers
  attempted : jobMarked a s = false → JobAttempted p a s t
  others : ∀ q, q ≠ p → rd t.screens q = rd s.screens q

theorem jobForKept_follows (hd : s.day.state = .opened ∨ s.day.state = .cutoff) (found : findAccount a s ≠ none) :
    JobFollows p a s (jobForKept p a s) := by
  unfold jobForKept
  split
  · next m => exact ⟨rfl, fun _ => rfl, rfl, fun _ => ⟨rfl, rfl⟩, fun k => absurd (m.symm.trans k) (by decide), fun _ _ => rfl⟩
  · next m =>
    have record {β : Type} (f : AccountRec → β) (hf : ∀ r, f { r with jobMark := true } = f r) (y : Account) :=
      attemptJob_record (p := p) (a := a) hd f hf y
    refine ⟨storedLines_attemptJob hd, fun y => ?_, ?_, fun k => absurd k m, fun _ => attemptJob_attempted hd found,
      fun q hq => attemptJob_screen_other hd hq⟩
    · rw [accountLines_eq, accountLines_eq, record (·.lines) (fun _ => rfl) y]
    · simpa only [Option.bind_map, Function.id_comp] using congrArg (·.bind id) (record (·.bookType) (fun _ => rfl) a)

theorem placeMidnight_entryCount {c : CapClass} (hc : c ≠ .closing) (s : State) :
    (placeMidnight c s).nv.control.fields.entryCount = s.nv.control.fields.entryCount + (midnightBodies s).length := by
  rw [placeMidnight_eq]
  unfold midnightBodies
  by_cases m : 0 < s.clock.midnights
  · rw [if_pos ((midnightAhead_open hc s).2 m), if_pos m]
    show (append _ s).nv.control.fields.entryCount = _
    rw [append_fields]
    rfl
  · rw [if_neg (mt (midnightAhead_open hc s).1 m), if_neg m]
    rfl

/-- The state in which the lines of a message are offered: its entries appended behind a pending midnight (R126). -/
def bookLinesEntered (a : Account) (ty : Nat) (ls : List BookLineItem) (s : State) : State :=
  appendAll (bookLineEntries a ty ls) (placeMidnight .business s)

theorem bookLinesEntered_told (a : Account) (ty : Nat) (ls : List BookLineItem) (s : State) :
    Told 0 s (bookLinesEntered a ty ls s) :=
  (placeMidnight_told _ s).trans (appendAll_told _ _)

theorem bookLinesEntered_appended (a : Account) (ty : Nat) (some_ : ls ≠ []) (s : State) :
    Appended (midnightBodies s ++ bookLineEntries a ty ls) s (bookLinesEntered a ty ls s) := by
  refine Appended.afterMidnight (c := .business) (by simp) (appendAll_appended (fun b hb => ?_) ?_ _) (appendAll_told _ _)
  · obtain ⟨l, -, rfl⟩ := List.mem_map.1 hb
    simp [firstForward]
  · simpa [bookLineEntries] using some_

@[simp] theorem bookLinesEntered_frame (a : Account) (ty : Nat) (ls : List BookLineItem) (s : State) :
    let t := bookLinesEntered a ty ls s
    t.tables = s.tables ∧ t.posns = s.posns ∧ t.screens = s.screens ∧ t.keys = s.keys ∧ t.drawers = s.drawers ∧
    t.groups = s.groups ∧ t.day = s.day ∧ t.clock = { s.clock with midnights := 0 } ∧ t.store = s.store ∧
    t.queues = s.queues ∧ t.printers = s.printers ∧ t.engine = s.engine ∧ t.powered = s.powered ∧ t.out = s.out ∧
    t.freeUsed = s.freeUsed ∧ t.pending = s.pending := by
  have clock := placeMidnight_midnights (c := .business) (by simp) s
  simp [bookLinesEntered, clock]

/-- The entries of a message show no print state before its lines are offered (R49). -/
theorem bookLinesEntered_fresh {k : Nat} {e : Entry}
    (he : entryAt (s.nv.control.fields.entryCount + (midnightBodies s).length + 1 + k) (bookLinesEntered a ty ls s) = some e) :
    e.print = .none := by
  have count := placeMidnight_entryCount (c := .business) (by simp) s
  have none (i : Nat) (e : Entry) (hi : (placeMidnight .business s).nv.control.fields.entryCount ≤ i)
      (he : (journal (placeMidnight .business s))[i]? = some e) : e.print = .none := by
    unfold journal at he
    rw [List.getElem?_take, if_neg (by omega)] at he
    cases he
  exact appendAll_fresh _ none (by omega) (entryAt_some he).2

theorem Entry.printed_offered {e : Entry} (fresh : e.print = .none) (n k : Nat) :
    (e.printed (offeredPrint n k)).print = if k < n then .stored else .overflow := by
  unfold Entry.printed offeredPrint
  rw [fresh]
  split <;> rfl

/-- The lines of a message that is taken offered, and a job attempted when one is kept (R126). -/
def bookLinesTaken (p : Pos) (a : Account) (ty : Nat) (ls : List BookLineItem) (s : State) : State × Nat :=
  let r := offerLines a ty (s.nv.control.fields.entryCount + (midnightBodies s).length + 1) ls (bookLinesEntered a ty ls s)
  (if r.2 = 0 then r.1 else jobForKept p a r.1, r.2)

theorem takeBookLines_eq (h : Hdr) (p : Pos) (a : Account) (ty : Nat) (ls : List BookLineItem) (s : State) :
    takeBookLines h p a ty ls s =
      answered h .accepted (.kept (bookLinesTaken p a ty ls s).2) (bookLinesTaken p a ty ls s).1 := by
  unfold takeBookLines bookLinesTaken bookLinesEntered
  dsimp only
  rw [replyWith_eq, nextSeq, placeMidnight_entryCount (by simp)]

/-- What a BOOK LINES message that is taken leaves of the store, the jobs, the journal and the rest, before its reply. -/
structure BookLinesTaken (p : Pos) (a : Account) (ty : Nat) (ls : List BookLineItem) (s t : State) (n : Nat) : Prop where
  kept : n = linesKept a ls.length s
  appended : Appended (midnightBodies s ++ bookLineEntries a ty ls) s t
  told : Told 0 s t
  stored : storedLines t = storedLines s + n
  lines : accountLines a t = accountLines a s ++ (ls.take n).zipIdx.map fun l =>
    keptLine (s.nv.control.fields.entryCount + (midnightBodies s).length + 1 + l.2) l.1
  others : ∀ y, y ≠ a → accountLines y t = accountLines y s
  print : ∀ k e, k < ls.length → entryAt (s.nv.control.fields.entryCount + (midnightBodies s).length + 1 + k) t = some e →
    e.print = if k < n then .stored else .overflow
  book : 0 < n → (findAccount a t).bind (·.bookType) = some ty
  none : n = 0 → t.store = s.store
  marked : n = 0 ∨ jobMarked a s = true → t.queues = s.queues ∧ t.printers = s.printers
  attempted : 0 < n → jobMarked a s = false → JobAttempted p a s t
  screens : ∀ q, q ≠ p → rd t.screens q = rd s.screens q
  frame : t.tables = s.tables ∧ t.groups = s.groups ∧ t.day = s.day ∧ t.clock = { s.clock with midnights := 0 } ∧
    t.engine = s.engine ∧ t.powered = s.powered ∧ t.out = s.out ∧ t.freeUsed = s.freeUsed ∧ t.pending = s.pending ∧
    t.posns = s.posns ∧ t.keys = s.keys ∧ t.drawers = s.drawers

theorem bookLinesTaken_spec (day : s.day.state = .opened ∨ s.day.state = .cutoff) (nodup : (s.store.map (·.account)).Nodup)
    (ne : ls ≠ []) (p : Pos) : let x := bookLinesTaken p a ty ls s; BookLinesTaken p a ty ls s x.1 x.2 := by
  obtain ⟨w, hw⟩ : ∃ w, w = bookLinesEntered a ty ls s := ⟨_, rfl⟩
  obtain ⟨seq, hseq⟩ : ∃ seq, seq = s.nv.control.fields.entryCount + (midnightBodies s).length + 1 := ⟨_, rfl⟩
  have toldW : Told 0 s w := hw ▸ bookLinesEntered_told ..
  obtain ⟨tables, posns, screens, keys, drawers, groups, dayW, clock, store, queues, printers, engine, powered, out, free,
    pending⟩ := hw ▸ bookLinesEntered_frame a ty ls s
  have nodupW : (w.store.map (·.account)).Nodup := by rwa [store]
  have offered := offerLines_offered (a := a) (t := ty) (seq := seq) (ls := ls) nodupW
  obtain ⟨-, prints⟩ := offerLines_prints (a := a) (ty := ty) (seq := seq) (ls := ls) nodupW
  have later : (journal s).length < seq := by
    have : (journal s).length ≤ s.nv.control.fields.entryCount := by simp [journal]
    omega
  have appended := offerLines_appended (a := a) (ty := ty) (ls := ls) (hw ▸ bookLinesEntered_appended a ty ne s) later
  have fresh (k : Nat) (e : Entry) (he : entryAt (seq + k) w = some e) : e.print = .none :=
    bookLinesEntered_fresh (by rw [← hseq, ← hw]; exact he)
  show BookLinesTaken p a ty ls s (bookLinesTaken p a ty ls s).1 (bookLinesTaken p a ty ls s).2
  unfold bookLinesTaken
  rw [← hw, ← hseq]
  dsimp only
  generalize offerLines a ty seq ls w = r at *
  have print (k : Nat) (e : Entry) (hk : k < ls.length) (he : entryAt (seq + k) r.1 = some e) :
      e.print = if k < r.2 then .stored else .overflow := by
    obtain ⟨e', there, rfl⟩ := Option.map_eq_some_iff.1 ((prints k hk).symm.trans he)
    exact Entry.printed_offered (fresh k e' there) ..
  have kept : r.2 = linesKept a ls.length s := offered.kept.trans (linesKept_congr store _)
  have stored : storedLines r.1 = storedLines s + r.2 := by rw [offered.stored]; unfold storedLines; rw [store]
  have lines := offered.lines
  rw [accountLines_congr a store] at lines
  have others (y : Account) (hy : y ≠ a) := (offered.others y hy).trans (accountLines_congr y store)
  have mark : jobMarked a r.1 = jobMarked a s := offered.marked.trans (jobMarked_congr a store)
  have same := offered.frame
  have line : r.1.line = w.line := by rw [same]
  have jc : r.1.jc = w.jc := by rw [same]
  have toldR : Told 0 s r.1 := toldW.goesOn line (by rw [jc])
  obtain ⟨tablesR, groupsR, dayR, clockR, engineR, poweredR, outR, freeR, pendingR, posnsR, keysR, drawersR, queuesR,
      printersR, screensR⟩ : r.1.tables = s.tables ∧ r.1.groups = s.groups ∧ r.1.day = s.day ∧
      r.1.clock = { s.clock with midnights := 0 } ∧ r.1.engine = s.engine ∧ r.1.powered = s.powered ∧ r.1.out = s.out ∧
      r.1.freeUsed = s.freeUsed ∧ r.1.pending = s.pending ∧ r.1.posns = s.posns ∧ r.1.keys = s.keys ∧
      r.1.drawers = s.drawers ∧ r.1.queues = s.queues ∧ r.1.printers = s.printers ∧ r.1.screens = s.screens := by
    rw [same]
    exact ⟨tables, groups, dayW, clock, engine, powered, out, free, pending, posns, keys, drawers, queues, printers, screens⟩
  by_cases zero : r.2 = 0
  · rw [if_pos zero]
    exact ⟨kept, appended, toldR, stored, hseq ▸ lines, others, hseq ▸ print, fun k => absurd zero (by omega),
      fun _ => (offered.none zero).trans store, fun _ => ⟨queuesR, printersR⟩, fun k => absurd zero (by omega),
      fun q _ => by rw [screensR],
      tablesR, groupsR, dayR, clockR, engineR, poweredR, outR, freeR, pendingR, posnsR, keysR, drawersR⟩
  · rw [if_neg zero]
    obtain ⟨rec, found, book⟩ := offered.some (by omega)
    have follows := jobForKept_follows (p := p) (a := a) (s := r.1) (by rwa [dayR]) (by rw [found]; simp)
    have nv : (jobForKept p a r.1).nv = r.1.nv := by simp
    refine ⟨kept, appended.of_nv_jc nv (by simp) (by simp), toldR.goesOn (by simp) (by simp), follows.stored.trans stored,
      (follows.lines a).trans (hseq ▸ lines), fun y hy => (follows.lines y).trans (others y hy),
      fun k e hk he => print k e hk ?_, fun _ => ?_, fun k => absurd k zero, fun k => ?_, fun _ m => ?_, fun q hq => ?_, ?_⟩
    · rw [← hseq, entryAt_congr nv] at he
      exact he
    · rw [follows.book, found]
      exact book
    · obtain ⟨q, pr⟩ := follows.marked (mark.trans (k.resolve_left zero))
      exact ⟨q.trans queuesR, pr.trans printersR⟩
    · exact (follows.attempted (mark.trans m)).congr tablesR.symm queuesR.symm printersR.symm mark.symm rfl rfl rfl rfl rfl
        fun _ h => h
    · rw [follows.others q hq, screensR]
    · simp [tablesR, groupsR, dayR, clockR, engineR, poweredR, outR, freeR, pendingR, posnsR, keysR, drawersR]

end

/-- Settles O32: the checks in order; then the lines that fit join the store one by one, and one job is attempted for them. -/
theorem bookLinesAreJournaledAndKept : Obligations.BookLinesAreJournaledAndKept := by
  refine ⟨fun h s ht => ⟨exec_bookLines_incomplete ht, fun a ty ls => ⟨fun bad => ?_, fun good st fails => ?_⟩⟩, ?_⟩
  · exact exec_bookLines_bad ht ((bookLinesBad_iff a ty ls).2 bad)
  · exact exec_bookLines_refused ht (Bool.eq_false_iff.2 (mt (bookLinesBad_iff a ty ls).1 good))
      ((bookLinesRefusal_follows h _ s).error fails)
  intro h p a ty ls s ht hp good day clock room nodup seq kept
  have ne : ls ≠ [] := fun e => by
    rw [(bookLinesBad_iff a ty ls).2 (Or.inr (Or.inr (Or.inr (Or.inl e))))] at good
    cases good
  obtain ⟨u, hu⟩ : ∃ u, u = arrived s := ⟨_, rfl⟩
  have spec := bookLinesTaken_spec (a := a) (ty := ty) (ls := ls) (s := u) (by simpa [hu] using day) (by simpa [hu] using nodup) ne p
  have run : exec (.bookLines h (.full a ty ls)) s = .next (answered h .accepted (.kept (bookLinesTaken p a ty ls u).2)
      (bookLinesTaken p a ty ls u).1) := by
    rw [exec_bookLines_taken ht good (bookLinesRefusal_ok hp day clock room), ← hu]
    exact congrArg _ (takeBookLines_eq ..)
  dsimp only at spec
  generalize bookLinesTaken p a ty ls u = x at *
  have store : u.store = s.store := by simp [hu]
  have count : u.nv.control.fields.entryCount + (midnightBodies u).length + 1 = seq := by
    rw [hu, midnightBodies_arrived]
    simp [seq]
  have number : x.2 = kept := spec.kept.trans (linesKept_congr store _)
  have replied := answered_says h .accepted (.kept x.2) x.1
  obtain ⟨print, lines⟩ := And.intro spec.print spec.lines
  rw [count] at print lines
  rw [accountLines_congr a store] at lines
  have appended := spec.appended
  rw [hu, midnightBodies_arrived] at appended
  obtain ⟨tables, groups, dayX, clockX, engine, powered, out, free, pending, posns, keys, drawers⟩ := spec.frame
  clear_value kept
  subst number
  refine ⟨_, run, replied.appended rfl rfl appended.arrived, ?_, lines, fun y hy => ?_, print, spec.book, fun k => ?_, fun k => ?_,
    fun k m => ?_, fun few => ?_, fun q hq => ?_, ?_, ?_⟩
  · show storedLines x.1 = _
    rw [spec.stored]
    unfold storedLines
    rw [store]
  · exact (spec.others y hy).trans (accountLines_congr y store)
  · exact (spec.none k).trans store
  · obtain ⟨queues, printers⟩ := spec.marked (k.imp id fun m => (jobMarked_congr a store).trans m)
    exact ⟨queues.trans (by simp [hu]), printers.trans (by simp [hu])⟩
  · exact hu ▸ spec.attempted k ((jobMarked_congr a store).trans m)
  · exact Replied.arrived (hu ▸ spec.told.replied (by simp only [hu, arrived_outbound]; omega))
  · exact (spec.screens q hq).trans (by rw [hu])
  · exact out.trans (by simp [hu])
  · have told := spec.told.trans replied.told
    rw [hu] at told tables groups dayX clockX engine powered free pending posns keys drawers
    have clock' : x.1.clock = { s.clock with midnights := 0 } := clockX.trans (by simp)
    have frame := eq_since (s := arrived s) (t := answered h .accepted (.kept x.2) x.1) told.line tables groups dayX
      clock' engine powered free pending
    refine frame.trans ?_
    show { since (arrived s) (answered h .accepted (.kept x.2) x.1) with
      drawers := x.1.drawers, posns := x.1.posns, keys := x.1.keys, screens := x.1.screens, store := x.1.store,
      queues := x.1.queues, printers := x.1.printers, clock := { s.clock with midnights := 0 } } = _
    rw [drawers, posns, keys]
    rfl

end Sys2Proof.Machine

namespace Sys2Proof.Machine

/-! ## The packing of a block -/

theorem slotsOf_cons (x : Nat × Entry) (xs : List (Nat × Entry)) : slotsOf (x :: xs) = x.2.size + slotsOf xs := by
  simp [slotsOf]

/-- The entries taken for a block are the longest run from the first that keeps within its room (R162). -/
theorem takeSlots_eq_iff {room : Nat} {xs ys : List (Nat × Entry)} : takeSlots room xs = ys ↔
    ∃ zs, xs = ys ++ zs ∧ slotsOf ys ≤ room ∧ ∀ z, zs.head? = some z → room < slotsOf ys + z.2.size := by
  induction xs generalizing room ys with
  | nil =>
    constructor
    · rintro rfl
      exact ⟨[], rfl, Nat.zero_le _, fun z h => nomatch h⟩
    · rintro ⟨zs, whole, -, -⟩
      exact (List.append_eq_nil_iff.1 whole.symm).1.symm
  | cons x xs ih =>
    unfold takeSlots
    by_cases few : x.2.size ≤ room
    · rw [if_pos few]
      constructor
      · rintro rfl
        obtain ⟨zs, whole, within, next⟩ := ih.1 (rfl : takeSlots (room - x.2.size) xs = _)
        rw [slotsOf_cons]
        refine ⟨zs, congrArg _ whole, by omega, fun z hz => ?_⟩
        have := next z hz
        omega
      · rintro ⟨zs, whole, within, next⟩
        cases ys with
        | nil =>
          obtain rfl : zs = x :: xs := whole.symm
          have : room < 0 + x.2.size := next x rfl
          omega
        | cons y ys =>
          obtain ⟨rfl, rest⟩ := List.cons_eq_cons.1 whole
          rw [slotsOf_cons] at within next
          refine congrArg _ (ih.2 ⟨zs, rest, by omega, fun z hz => ?_⟩)
          have := next z hz
          omega
    · rw [if_neg few]
      constructor
      · rintro rfl
        exact ⟨x :: xs, rfl, Nat.zero_le _, fun z hz => by cases hz; show room < 0 + _; omega⟩
      · rintro ⟨zs, whole, within, -⟩
        cases ys with
        | nil => rfl
        | cons y ys =>
          obtain ⟨rfl, -⟩ := List.cons_eq_cons.1 whole
          rw [slotsOf_cons] at within
          omega

/-- The block the engine packs is the one R162 gives. -/
theorem packBlock_eq_some {b : Batch} {s : State} {f : Flight} :
    packBlock b s = some f ↔ PackedBlock b.kind b.nextSlot b.extentEnd (b.highest + 1) f s := by
  have slots : Config.blockSlots = 16 := rfl
  unfold packBlock PackedBlock
  dsimp only
  rw [slots]
  generalize carriedFrom b.kind b.nextSlot b.extentEnd s = xs
  have final {ys zs : List (Nat × Entry)} (whole : xs = ys ++ zs) : (ys.length == xs.length) = zs.isEmpty := by
    rw [whole]
    cases zs <;> simp
  constructor
  · intro packed
    obtain ⟨ys, taken⟩ : ∃ ys, takeSlots 16 xs = ys := ⟨_, rfl⟩
    obtain ⟨zs, whole, within, next⟩ := takeSlots_eq_iff.1 taken
    rw [taken, final whole] at packed
    split at packed
    · next x y first last =>
      cases packed
      exact ⟨ys, zs, whole, within, next, x, y, first, last, rfl⟩
    · cases packed
  · rintro ⟨ys, zs, whole, within, next, x, y, first, last, rfl⟩
    rw [takeSlots_eq_iff.2 ⟨zs, whole, within, next⟩, first, last, final whole]

/-! ## Blocks offered from the start of a batch -/

/-- A batch record after new blocks were packed (R162). -/
def Batch.grown (b : Batch) (new : List Flight) : Batch :=
  { b with nextSlot := (new.getLast?.map fun f => f.last + 1).getD b.nextSlot, highest := b.highest + new.length,
           nextQueue := b.highest + new.length + 1, carried := b.carried + (new.map (·.entries)).sum,
           final := new.getLast?.elim b.final fun f => if f.final then some f.number else none }

/-- A state whose batch b has packed and offered these blocks, the first of them starting the ack timer (R163, R165). -/
def blocksPacked (b : Batch) (new : List Flight) (s : State) : State :=
  { s with engine := { s.engine with batch := some (b.grown new), flights := new,
                                     timer := if new = [] then none else Timer.start s.tables.params.ackTimer }
           line := { s.line with outbound := s.line.outbound ++ new.map fun f => blockMessage b f s } }

/-- Blocks packed one after the other, each where the one before it ended (R162). -/
def PackedInOrder (b : Batch) (new : List Flight) (s : State) : Prop :=
  ∀ i f, new[i]? = some f →
    PackedBlock b.kind (((new.take i).getLast?.map fun g => g.last + 1).getD b.nextSlot) b.extentEnd (b.highest + i + 1) f s

section
variable {b : Batch} {new : List Flight} {s : State}

theorem PackedInOrder.append (h : PackedInOrder b new s) {f : Flight} (next : packBlock (b.grown new) s = some f) :
    PackedInOrder b (new ++ [f]) s := by
  intro i g hg
  by_cases old : i < new.length
  · rw [List.getElem?_append_left old] at hg
    rw [List.take_append_of_le_length old.le]
    exact h i g hg
  · have last : i = new.length := by
      have := (List.getElem?_eq_some_iff.1 hg).1
      simp at this
      omega
    subst last
    simp only [List.getElem?_concat_length, Option.some.injEq] at hg
    subst hg
    rw [List.take_left]
    exact packBlock_eq_some.1 next

theorem PackedInOrder.number (h : PackedInOrder b new s) {i : Nat} {f : Flight} (hf : new[i]? = some f) :
    f.number = b.highest + i + 1 := by
  obtain ⟨ys, zs, -, -, -, x, y, -, -, rfl⟩ := h i f hf
  rfl

/-- The record and the lists one more packed block leaves (R162). -/
theorem blocksPacked_append {f : Flight} (none_out : b.acked = b.highest) (number : f.number = b.highest + new.length + 1) :
    let t := blocksPacked b new s
    let t := (enqueue (blockMessage (b.grown new) f t) t).updEngine fun e => { e with flights := e.flights ++ [f] }
    updBatch (fun c => { c with nextSlot := f.last + 1, highest := f.number, nextQueue := c.nextQueue + 1,
                                final := if f.final then some f.number else none, carried := c.carried + f.entries })
      (if (b.grown new).outstanding = 0 then startAckTimer t else t) = blocksPacked b (new ++ [f]) s := by
  have out : (b.grown new).outstanding = 0 ↔ new = [] := by
    rw [← List.length_eq_zero_iff]
    show b.highest + new.length - b.acked = 0 ↔ _
    omega
  have grown : b.grown (new ++ [f]) = { b.grown new with
      nextSlot := f.last + 1, highest := f.number, nextQueue := (b.grown new).nextQueue + 1,
      final := if f.final then some f.number else none, carried := (b.grown new).carried + f.entries } := by
    simp [Batch.grown, number, Nat.add_assoc]
  have message (t : State) (nv : t.nv = s.nv) (jc : t.jc = s.jc) : blockMessage (b.grown new) f t = blockMessage b f s := by
    unfold blockMessage businessDate
    rw [flightEntries_congr nv jc, nv]
    rfl
  dsimp only
  rw [message (blocksPacked b new s) rfl rfl]
  unfold blocksPacked
  rw [grown, List.map_append, ← List.append_assoc, if_neg (c := new ++ [f] = []) (by simp)]
  by_cases first : new = []
  · rw [if_pos (out.2 first)]
    rfl
  · rw [if_neg (mt out.1 first), if_neg first]
    rfl

/-- One more block packed and offered, when the window and the queue allow one (R163). -/
theorem offerBlock_packed (active : s.engine.state = .active) (none_out : b.acked = b.highest) :
    offerBlock (blocksPacked b new s) =
      if s.line.outbound.length + new.length < 28 ∧ new.length < 4 ∧ (b.grown new).final = none then
        (packBlock (b.grown new) s).map fun f => blocksPacked b (new ++ [f]) s
      else none := by
  have room : outboundRoom (blocksPacked b new s) = true ↔ s.line.outbound.length + new.length < 28 := by
    simp [outboundRoom, blocksPacked, Config.outboundFull]
  have window : (b.grown new).outstanding < Config.window ↔ new.length < 4 := by
    show b.highest + new.length - b.acked < 4 ↔ _
    omega
  have pack : packBlock (b.grown new) (blocksPacked b new s) = packBlock (b.grown new) s := rfl
  unfold offerBlock
  rw [show (blocksPacked b new s).engine.batch = some (b.grown new) from rfl]
  dsimp only
  rw [pack]
  by_cases space : s.line.outbound.length + new.length < 28
  · rw [if_neg (by rw [room.2 space]; simpa [blocksPacked] using active), if_neg (by show ¬b.highest + new.length + 1 ≤ b.highest + new.length; omega)]
    by_cases more : new.length < 4 ∧ (b.grown new).final = none
    · rw [if_pos ⟨rfl, window.2 more.1, more.2⟩, if_pos ⟨space, more⟩]
      cases packed : packBlock (b.grown new) s with
      | none => rfl
      | some f => exact congrArg some (blocksPacked_append none_out (packBlock_number packed))
    · rw [if_neg fun h => more ⟨window.1 h.2.1, h.2.2⟩, if_neg fun h => more h.2]
  · rw [if_pos (Or.inr (by simpa using mt room.1 space)), if_neg fun h => space h.1]

/-- Offering from the start of a batch ends with blocks packed in order, and none that may follow them (R163). -/
theorem offerBlocks_packed (active : s.engine.state = .active) (none_out : b.acked = b.highest) {n : Nat}
    (fuel : 28 ≤ s.line.outbound.length + new.length + n) (few : new.length ≤ 4) (inOrder : PackedInOrder b new s) :
    ∃ all, offerBlocks n (blocksPacked b new s) = blocksPacked b all s ∧ PackedInOrder b all s ∧ all.length ≤ 4 ∧
      (28 ≤ s.line.outbound.length + all.length ∨ 4 ≤ all.length ∨ (b.grown all).final ≠ none ∨ packBlock (b.grown all) s = none) := by
  induction n generalizing new with
  | zero => exact ⟨new, rfl, inOrder, few, Or.inl (by omega)⟩
  | succ n ih =>
    unfold offerBlocks
    rw [offerBlock_packed active none_out]
    by_cases more : s.line.outbound.length + new.length < 28 ∧ new.length < 4 ∧ (b.grown new).final = none
    · rw [if_pos more]
      cases packed : packBlock (b.grown new) s with
      | none => exact ⟨new, rfl, inOrder, few, Or.inr (Or.inr (Or.inr packed))⟩
      | some f => exact ih (by simp; omega) (by simp; omega) (inOrder.append packed)
    · rw [if_neg more]
      refine ⟨new, rfl, inOrder, few, ?_⟩
      by_cases space : s.line.outbound.length + new.length < 28
      · by_cases window : new.length < 4
        · exact Or.inr (Or.inr (Or.inl fun h => more ⟨space, window, h⟩))
        · exact Or.inr (Or.inl (by omega))
      · exact Or.inl (by omega)

end

/-- A new batch that is offered: what R163 says of its blocks, and the ack timer started by the first of them (R165). -/
theorem offer_fresh {b : Batch} {s : State} (active : s.engine.state = .active) (batch : s.engine.batch = some b)
    (flights : s.engine.flights = []) (timer : s.engine.timer = none) (none_out : b.acked = b.highest)
    (next : b.nextQueue = b.highest + 1) :
    BlocksOffered b [] s.line.outbound (offer s) ∧
    (offer s).engine.timer = (if (offer s).engine.flights = [] then none else some ⟨s.tables.params.ackTimer, s.tables.params.ackTimer⟩) ∧
    (offer s).engine = { s.engine with batch := (offer s).engine.batch, flights := (offer s).engine.flights,
                                       timer := (offer s).engine.timer } := by
  have start : s = blocksPacked b [] s := by
    have grown : b.grown [] = b := by
      simp [Batch.grown, ← next]
    obtain ⟨line, tables, posns, screens, keys, drawers, groups, nv, jc, day, clock, store, queues, printers, engine⟩ := s
    obtain ⟨state, batch', last, awaited, flights', timer'⟩ := engine
    cases batch
    cases flights
    cases timer
    simp [blocksPacked, grown]
  obtain ⟨new, all, inOrder, few, stop⟩ := offerBlocks_packed (b := b) (new := []) (n := 28) (s := s) active none_out (by omega) (by simp)
    (fun i f hf => by simp at hf)
  have offered : offer s = blocksPacked b new s := by
    conv_lhs => rw [start]
    exact all
  rw [offered]
  have numbers {i : Nat} {f : Flight} (hf : new[i]? = some f) := inOrder.number hf
  refine ⟨⟨b.grown new, new, rfl, rfl, rfl, ?_, le_rfl, fun _ => ⟨rfl, ?_⟩, inOrder, ?_, ?_⟩, rfl, rfl⟩
  · show b.nextQueue ≤ b.highest + new.length + 1
    omega
  · show b.highest + new.length - b.acked ≤ 4
    omega
  · have all : ([] ++ new).filter (fun f => b.nextQueue ≤ f.number && f.number < (b.grown new).nextQueue) = new := by
      rw [List.nil_append]
      refine List.filter_eq_self.2 fun f hf => ?_
      obtain ⟨i, hi⟩ := List.getElem?_of_mem hf
      have := numbers hi
      have := (List.getElem?_eq_some_iff.1 hi).1
      have last : (b.grown new).nextQueue = b.highest + new.length + 1 := rfl
      rw [last, Bool.and_eq_true, decide_eq_true_eq, decide_eq_true_eq]
      omega
    rw [all]
    rfl
  · rcases stop with full | window | final | none
    · exact Or.inl (by simpa [blocksPacked] using full)
    · exact Or.inr ⟨rfl, Or.inl (by show 4 ≤ b.highest + new.length - b.acked; omega)⟩
    · exact Or.inr ⟨rfl, Or.inr (Or.inl final)⟩
    · refine Or.inr ⟨rfl, Or.inr (Or.inr fun f packed => ?_)⟩
      have found : packBlock (b.grown new) s = some f := packBlock_eq_some.2 packed
      rw [none] at found
      cases found

end Sys2Proof.Machine

namespace Sys2Proof.Machine

/-! ## A batch started -/

/-- The engine with a new batch record (R161). -/
def batchBegun (k : BatchKind) (s : State) : State :=
  s.updEngine fun e =>
    { e with state := if s.line.state = .online then .active else .paused, batch := some (newBatch k s),
             lastBatch := (newBatch k s).number, flights := [], timer := none,
             dayAwaited := match k with
               | .day => false
               | .forward => e.dayAwaited }

/-- The batch completed at once, for want of an entry to carry (R168). -/
def emptyBatch (k : BatchKind) (s : State) : State :=
  match k with
  | .day => completeDay (newBatch k s) (batchBegun k s)
  | .forward => engineIdle (reportComplete (newBatch k s) (batchBegun k s))

section
variable (k : BatchKind) (s : State)

theorem startBatch_eq : startBatch k s =
    if carriedFrom k (newBatch k s).nextSlot (newBatch k s).extentEnd s = [] then emptyBatch k s else offer (batchBegun k s) := by
  have carried : carriedFrom k (newBatch k s).nextSlot (newBatch k s).extentEnd (batchBegun k s) =
      carriedFrom k (newBatch k s).nextSlot (newBatch k s).extentEnd s := rfl
  rw [← carried]
  unfold startBatch
  by_cases none : carriedFrom k (newBatch k s).nextSlot (newBatch k s).extentEnd (batchBegun k s) = []
  · rw [if_pos none]
    exact if_pos (List.isEmpty_iff.2 none)
  · rw [if_neg none]
    exact if_neg (mt List.isEmpty_iff.1 none)

theorem firstBatch_newBatch {t : State} (nv : t.nv = s.nv) : firstBatch k s.engine.lastBatch t = newBatch k s := by
  unfold firstBatch newBatch slotsUsed
  rw [nv]
  cases k <;> rfl

theorem carriedFrom_congr {s t : State} (nv : t.nv = s.nv) (jc : t.jc = s.jc) (k : BatchKind) (a b : Nat) :
    carriedFrom k a b t = carriedFrom k a b s := by
  unfold carriedFrom readable journal slotsUsed
  rw [nv, jc]

/-- What a batch with nothing to carry leaves (R168). -/
theorem emptyBatch_left : let t := emptyBatch k s
    t.engine.state = .idle ∧ t.engine.batch = none ∧ t.engine.flights = [] ∧ t.engine.timer = none ∧
    t.engine.lastBatch = (newBatch k s).number ∧ t.engine.dayAwaited = (if k = .day then false else s.engine.dayAwaited) ∧
    t.line.outbound = s.line.outbound ++ (if s.line.state = .online ∧ s.line.outbound.length < 28 then
      [⟨255, 0, .report (.transferComplete k (newBatch k s).number 0 0
        (if k = .day then some s.nv.control.fields.delivered else none))⟩] else []) ∧
    t.day.completions = s.day.completions ++ (if k = .day then [businessDate s] else []) := by
  have line : (batchBegun k s).line = s.line := rfl
  have nv : (batchBegun k s).nv = s.nv := rfl
  have day : (batchBegun k s).day = s.day := rfl
  cases k <;>
    simp only [emptyBatch, completeDay, engineIdle, reportComplete, report_eq, line, nv, day, State.updEngine, State.updDay,
      businessDate, reportedOf, Config.wholePart] <;>
    simp [batchBegun, newBatch]

/-- An engine that is not ACTIVE offers nothing (R163). -/
theorem offer_notActive {s : State} (h : s.engine.state ≠ .active) : offer s = s := by
  have nothing : offerBlock s = none := by
    unfold offerBlock
    split
    · rfl
    · rw [if_pos (Or.inl h)]
  show offerBlocks (27 + 1) s = s
  unfold offerBlocks
  rw [nothing]

/-- A batch of either kind started (R161). -/
theorem startBatch_started : Started k s.line.outbound s (startBatch k s) := by
  obtain ⟨lineState, -, -, -, tables, -, -, -, -, -, nv, jc, -⟩ := startBatch_frame k s
  have notices : (startBatch k s).engine.notices = s.engine.notices ∧
    (startBatch k s).engine.recoveryDone = s.engine.recoveryDone := by simp
  have date : businessDate (startBatch k s) = businessDate s := by unfold businessDate; rw [nv]
  unfold Started
  dsimp only
  rw [firstBatch_newBatch k s nv, carriedFrom_congr nv jc, lineState, nv, date, tables]
  rw [startBatch_eq]
  by_cases none : carriedFrom k (newBatch k s).nextSlot (newBatch k s).extentEnd s = []
  · obtain ⟨idle, batch, flights, timer, last, awaited, outbound, completions⟩ := emptyBatch_left k s
    rw [startBatch_eq, if_pos none] at notices
    rw [if_pos none]
    exact ⟨last, awaited, notices.1, notices.2, by rw [if_pos none]; exact ⟨idle, batch, flights, timer, outbound, completions⟩⟩
  · rw [startBatch_eq, if_neg none] at notices
    rw [if_neg none, if_neg none]
    have days : (offer (batchBegun k s)).day = (batchBegun k s).day := by simp
    have awaited : (batchBegun k s).engine.dayAwaited = if k = .day then false else s.engine.dayAwaited := by
      cases k <;> rfl
    cases online : s.line.state with
    | standIn =>
      have paused : (batchBegun k s).engine.state = .paused := by simp [batchBegun, online]
      rw [offer_notActive (by rw [paused]; decide)]
      exact ⟨rfl, awaited, rfl, rfl, rfl, fun _ => ⟨paused, rfl, rfl, rfl, rfl⟩, fun h => nomatch h⟩
    | online =>
      have active : (batchBegun k s).engine.state = .active := by simp [batchBegun, online]
      obtain ⟨offered, timer, engine⟩ := offer_fresh (b := newBatch k s) active rfl rfl rfl rfl rfl
      refine ⟨?_, ?_, notices.1, notices.2, by rw [days]; rfl, fun h => (nomatch h), fun _ => ⟨?_, offered, timer⟩⟩
      · rw [engine]; rfl
      · rw [engine]; exact awaited
      · rw [engine]; exact active

end

/-! ## The Day Controller's start of the day batch -/

/-- At entry to CLOSING a batch of the engine goes on: a DAY batch, or a FORWARD batch that has not FAILED (R169). -/
def BatchGoesOn (s : State) : Prop := ∃ b, s.engine.batch = some b ∧ (b.kind = .day ∨ s.engine.state ≠ .failed)

section
variable {s : State}

/-- With no batch to wait for the day batch starts (R169). -/
theorem dayBatchAtClosing_started (h : ¬BatchGoesOn s) : Started .day s.line.outbound s (dayBatchAtClosing s) := by
  unfold dayBatchAtClosing
  split
  · exact startBatch_started .day s
  · next b batch =>
    have forward : b.kind = .forward := by
      cases kind : b.kind with
      | forward => rfl
      | day => exact absurd ⟨b, batch, Or.inl kind⟩ h
    have failed : s.engine.state = .failed := by
      by_contra other
      exact h ⟨b, batch, Or.inr other⟩
    rw [if_pos forward, if_pos failed]
    exact startBatch_started .day (engineIdle s)

theorem dayBatchAtClosing_forward {b : Batch} (batch : s.engine.batch = some b) (kind : b.kind = .forward)
    (state : s.engine.state ≠ .failed) : dayBatchAtClosing s = s.updEngine fun e => { e with dayAwaited := true } := by
  unfold dayBatchAtClosing
  rw [batch]
  dsimp only
  rw [if_pos kind, if_neg state]

theorem dayBatchAtClosing_day {b : Batch} (batch : s.engine.batch = some b) (kind : b.kind = .day) :
    dayBatchAtClosing s = s := by
  unfold dayBatchAtClosing
  rw [batch]
  dsimp only
  rw [if_neg (by rw [kind]; decide)]

/-- A FORWARD batch that goes on gives way later, and a DAY batch goes on; the Day Controller is told nothing (R169). -/
theorem dayBatchAtClosing_goesOn (h : BatchGoesOn s) : (dayBatchAtClosing s).day = s.day := by
  obtain ⟨b, batch, on⟩ := h
  cases kind : b.kind with
  | day => rw [dayBatchAtClosing_day batch kind]
  | forward => rw [dayBatchAtClosing_forward batch kind (on.resolve_left (by rw [kind]; decide))]; rfl

end

end Sys2Proof.Machine

namespace Sys2Proof.Machine

/-! ## The journal at the entry to CLOSING -/

section
variable {s t u : State}

/-- The control record's fields with the CLOSE entry of an entry to CLOSING counted (R67). -/
def closingFields (s : State) : ControlFields :=
  { s.nv.control.fields with
    day := some .closing, slotsUsed := slotsUsed s + 1, entryCount := s.nv.control.fields.entryCount + 1 }

/-- The CLOSE entry of an entry to CLOSING, the counts with it and the day recorded CLOSING (R43, R67). -/
theorem appendClose_closing (s : State) : let t := appendClose false .closing s
    let b := EntryBody.close false (slotsUsed s + 1) (s.nv.control.fields.entryCount + 1)
    t.nv.entries.map (·.body) = (journal s).map (·.body) ++ [b] ∧ Backlogged [] s t ∧ LowSpaceTold [b] s t ∧
    t.nv.control.fields = closingFields s ∧ t.jc = { s.jc with lowSpace := t.jc.lowSpace } ∧ Told 0 s t := by
  obtain ⟨b, hb⟩ : ∃ b, b = EntryBody.close false (slotsUsed s + 1) (s.nv.control.fields.entryCount + 1) := ⟨_, rfl⟩
  obtain ⟨u, hu, entries, fields, line, jc⟩ : ∃ u, appendClose false .closing s = lowSpaceCheck u ∧
      u.nv.entries = journal s ++ [makeEntry b s] ∧ u.nv.control.fields = closingFields s ∧ u.line = s.line ∧
      u.jc = s.jc := by
    refine ⟨_, rfl, by rw [hb]; rfl, ?_, rfl, rfl⟩
    simp [closingFields, nvWrite, writeControl, JournalMem.write, makeEntry, kindSlots, firstForward, slotsUsed]
  have nv : (lowSpaceCheck u).nv = u.nv := by simp
  have slots : kindSlots b = 1 := by rw [hb]; rfl
  have told : Told 0 s u := .of_eq line (by rw [jc])
  have used : slotsUsed u = slotsUsed s + kindSlots b := by unfold slotsUsed; rw [fields, slots]; rfl
  have count : u.nv.control.fields.entryCount = s.nv.control.fields.entryCount + 1 := by rw [fields]; rfl
  have date : businessDate u = businessDate s := by unfold businessDate; rw [fields]; rfl
  dsimp only
  rw [hu, ← hb]
  refine ⟨?_, .of_entries (entryAt_journal (journal_counted (e := makeEntry b s) (by rw [nv, entries]) (by rw [nv, count]))),
    lowSpaceCheck_lowSpace line (by rw [jc]) used count date, by rw [nv, fields], by rw [lowSpaceCheck_jc, jc],
    told.trans (lowSpaceCheck_told u)⟩
  rw [nv, entries]
  simp [makeEntry]

/-- The entries of an entry to CLOSING before its CLOSE (R67). -/
def closingBodies (s : State) : List EntryBody := closingMidnight s ++ (backlogs s).map fun b => .backlog b.1 b.2

/-- What an entry to CLOSING journals (R67). -/
theorem closingJournaled_spec (s : State) : let t := closingJournaled s
    let close := slotsUsed s + (closingBodies s).length + 1
    let count := s.nv.control.fields.entryCount + (closingBodies s).length + 1
    t.nv.entries.map (·.body) = (journal s).map (·.body) ++ closingBodies s ++ [.close false close count] ∧
    Backlogged ((backlogs s).flatMap (·.2)) s t ∧ LowSpaceTold (closingBodies s ++ [.close false close count]) s t ∧
    t.nv.control.fields = { s.nv.control.fields with day := some .closing, slotsUsed := close, entryCount := count } ∧
    t.jc = { s.jc with lowSpace := t.jc.lowSpace } ∧ Told 0 s t ∧
    t.clock = { s.clock with midnights := if closingMidnight s = [] then s.clock.midnights else 0 } := by
  obtain ⟨r, hr⟩ : ∃ r, r = removeAllJobs s := ⟨_, rfl⟩
  obtain ⟨nv, jc, line, clockR⟩ : r.nv = s.nv ∧ r.jc = s.jc ∧ r.line = s.line ∧ r.clock = s.clock := by simp [hr]
  have lists : backlogs r = backlogs s := hr ▸ backlogs_removeAllJobs s
  have mid : closingMidnight r = closingMidnight s := by
    unfold closingMidnight midnightBodies slotsUsed
    rw [nv, clockR]
  obtain ⟨midnight, clock⟩ := placeMidnight_closing r
  obtain ⟨u, hu⟩ : ∃ u, u = (backlogs s).foldl appendBacklog (placeMidnight .closing r) := ⟨_, rfl⟩
  have journaled : Journaled (closingBodies s) ((backlogs s).flatMap (·.2)) s u := by
    have removed : Journaled [] [] s r := .of_eq nv jc line
    rw [mid] at midnight
    have := removed.trans (midnight.trans (appendBacklogs_journaled (backlogs s) _))
    rw [← hu] at this
    simpa [closingBodies] using this
  have slots : ((closingBodies s).map kindSlots).sum = (closingBodies s).length := sum_kindSlots fun b hb => by
    rcases List.mem_append.1 hb with hb | hb
    · rw [closingMidnight_eq] at hb
      split at hb
      · rw [List.mem_singleton.1 hb]; rfl
      · cases hb
    · obtain ⟨x, -, rfl⟩ := List.mem_map.1 hb
      rfl
  have fields := journaled.fields
  rw [slots] at fields
  obtain ⟨entries, marks, low, closed, jcU, told⟩ := appendClose_closing u
  have used : slotsUsed u = slotsUsed s + (closingBodies s).length := by unfold slotsUsed; rw [fields]
  have counted : u.nv.control.fields.entryCount = s.nv.control.fields.entryCount + (closingBodies s).length := by rw [fields]
  rw [used, counted] at entries low
  have whole : closingJournaled s = appendClose false .closing u := by
    unfold closingJournaled
    rw [← hr, lists, ← hu]
  dsimp only
  rw [whole]
  refine ⟨?_, ?_, journaled.low.trans low journaled.fields told.state journaled.told.grows told.grows, ?_, ?_,
    journaled.told.trans told, ?_⟩
  · rw [entries, journaled.bodies]
  · simpa using journaled.marks.trans marks
  · rw [closed]
    unfold closingFields
    rw [used, counted, fields]
  · rw [jcU, journaled.jc]
  · have backlog : u.clock = (placeMidnight .closing r).clock :=
      hu ▸ foldl_keeps State.clock appendBacklog (by intros; simp) _ _
    simp only [appendClose_frame]
    rw [backlog, clock, mid, clockR]

/-! ## The reports of the whole part -/

/-- The outbound queue gains reports of the whole part alone (R44, R154). -/
def TellsReports (s t : State) : Prop :=
  ∃ rs, t.line.outbound = s.line.outbound ++ rs ∧ ∀ m ∈ rs, ∃ r, m = (⟨255, 0, .report r⟩ : OutMsg)

theorem TellsReports.of_eq (h : t.line.outbound = s.line.outbound) : TellsReports s t :=
  ⟨[], by rw [h, List.append_nil], fun _ hm => nomatch hm⟩

theorem TellsReports.trans (h : TellsReports s t) (k : TellsReports t u) : TellsReports s u := by
  obtain ⟨rs, outbound, reports⟩ := h
  obtain ⟨rs', outbound', reports'⟩ := k
  refine ⟨rs ++ rs', by rw [outbound', outbound, List.append_assoc], fun m hm => ?_⟩
  rcases List.mem_append.1 hm with hm | hm
  · exact reports m hm
  · exact reports' m hm

theorem report_tells (r : Report) (s : State) : TellsReports s (report 255 r s) := by
  refine ⟨reportedOf 255 r s, report_outbound .., fun m hm => ⟨r, ?_⟩⟩
  unfold reportedOf at hm
  split at hm
  · exact List.mem_singleton.1 hm
  · cases hm

theorem lowSpaceCheck_tells (s : State) : TellsReports s (lowSpaceCheck s) := by
  rw [lowSpaceCheck_eq]
  split
  · exact report_tells _ { s with jc := { s.jc with lowSpace := true } }
  · exact .of_eq rfl

theorem appendWith_tells (f : ControlFields → ControlFields) (b : EntryBody) (s : State) :
    TellsReports s (appendWith f b s) := by
  obtain ⟨u, hu, line⟩ : ∃ u, appendWith f b s = lowSpaceCheck u ∧ u.line = s.line := by
    refine ⟨_, rfl, ?_⟩
    dsimp only
    split <;> rfl
  rw [hu]
  exact (TellsReports.of_eq (by rw [line])).trans (lowSpaceCheck_tells u)

theorem appendBacklog_tells (s : State) (b : Account × List Nat) : TellsReports s (appendBacklog s b) := by
  obtain ⟨u, hu, line⟩ : ∃ u, appendBacklog s b = lowSpaceCheck u ∧ u.line = s.line := ⟨_, rfl, rfl⟩
  rw [hu]
  exact (TellsReports.of_eq (by rw [line])).trans (lowSpaceCheck_tells u)

theorem appendBacklogs_tells (bs : List (Account × List Nat)) (s : State) : TellsReports s (bs.foldl appendBacklog s) := by
  induction bs generalizing s with
  | nil => exact .of_eq rfl
  | cons b bs ih => exact (appendBacklog_tells s b).trans (ih _)

theorem placeMidnight_tells (c : CapClass) (s : State) : TellsReports s (placeMidnight c s) := by
  rw [placeMidnight_eq]
  split
  · exact appendWith_tells id _ s
  · exact .of_eq rfl

theorem appendClose_tells (f : Bool) (d : RecDay) (s : State) : TellsReports s (appendClose f d s) := by
  unfold appendClose
  exact appendWith_tells ..

theorem closingJournaled_tells (s : State) : TellsReports s (closingJournaled s) := by
  have removed : TellsReports s (removeAllJobs s) := .of_eq (by simp)
  unfold closingJournaled
  exact removed.trans ((placeMidnight_tells .closing _).trans ((appendBacklogs_tells _ _).trans (appendClose_tells false .closing _)))

theorem writeRetained_tells (cause : RetainedCause) (rb : Option RetainedRec) (s : State) :
    TellsReports s (writeRetained cause rb s) := by
  rcases writeRetained_cases cause rb s with ⟨-, h⟩ | ⟨x, -, -, h⟩ <;> rw [h]
  · exact .of_eq rfl
  · exact (TellsReports.of_eq (t := nvWrite (.retainedCrc (~~~(closingRecord s).crc))
      ((nvWrite (.retained x) s).updDay fun d => { d with retainedBad := true })) rfl).trans (report_tells ..)

/-! ## What the start of a batch tells -/

/-- A batch started queues its blocks, or its TRANSFER_COMPLETE, and no JOURNAL_LOW (R163, R168). -/
theorem startBatch_says (k : BatchKind) (s : State) : ∃ n, Says n s (startBatch k s) := by
  have line : (startBatch k s).line = { s.line with outbound := (startBatch k s).line.outbound } :=
    lineIf_eq (by simp) (by simp) (by simp) (by simp)
  have flag : (startBatch k s).jc.lowSpace = s.jc.lowSpace := by simp
  obtain ⟨ms, outbound, plain⟩ : ∃ ms, (startBatch k s).line.outbound = s.line.outbound ++ ms ∧
      ∀ n c d, (⟨255, 0, .report (.journalLow n c d)⟩ : OutMsg) ∉ ms := by
    have started := startBatch_started k s
    unfold Started at started
    obtain ⟨-, -, -, -, rest⟩ := started
    split at rest
    · obtain ⟨-, -, -, -, outbound, -⟩ := rest
      refine ⟨_, outbound, fun n c d => ?_⟩
      split <;> simp
    · obtain ⟨-, standIn, online⟩ := rest
      cases on : (startBatch k s).line.state with
      | standIn =>
        obtain ⟨-, -, -, -, outbound⟩ := standIn on
        exact ⟨[], by rw [outbound, List.append_nil], fun _ _ _ => List.not_mem_nil⟩
      | online =>
        obtain ⟨-, ⟨_, _, -, -, -, -, -, -, -, outbound, -⟩, -⟩ := online on
        refine ⟨_, outbound, fun n c d hm => ?_⟩
        obtain ⟨f, -, e⟩ := List.mem_map.1 hm
        cases e
  exact ⟨ms.length, flag, line, ms, outbound, le_rfl, plain⟩

theorem dayBatchAtClosing_says (s : State) : ∃ n, Says n s (dayBatchAtClosing s) := by
  unfold dayBatchAtClosing
  split
  · exact startBatch_says .day s
  · split
    · split
      · obtain ⟨n, says_⟩ := startBatch_says .day (engineIdle s)
        exact ⟨_, (Says.of_eq (by simp) (by simp)).trans says_⟩
      · exact ⟨0, .of_eq rfl rfl⟩
    · exact ⟨0, .of_eq rfl rfl⟩

/-! ## The removal of every job -/

/-- A printer that waits for a book is EMPTY when its head job is removed (R148). -/
theorem headTaken_waits {n : Prn} (h : (rd s.printers n).state = .waitBook) :
    (rd (headTaken n s).printers n).state = .empty ∧ (rd (headTaken n s).printers n).timer = none := by
  unfold headTaken
  rw [h]
  simp [Printer.toEmpty]

theorem clearPrinters_waits {l : List Prn} {m : Prn} (hn : l.Nodup) (hm : m ∈ l) (hq : rd s.queues m ≠ [])
    (hh : (rd s.printers m).state = .waitBook) :
    (rd (clearPrinters l s).printers m).state = .empty ∧ (rd (clearPrinters l s).printers m).timer = none := by
  induction l generalizing s with
  | nil => cases hm
  | cons n l ih =>
    rw [List.nodup_cons] at hn
    rw [clearPrinters_cons]
    by_cases e : m = n
    · subst e
      rw [clearPrinters_others hn.1]
      unfold clearPrinter
      rw [if_neg (by simpa using hq)]
      simpa using headTaken_waits hh
    · exact ih hn.2 ((List.mem_cons.1 hm).resolve_left e) (by simpa using hq) (by rwa [clearPrinter_others e])

theorem removeAllJobs_waits {n : Prn} (hq : rd s.queues n ≠ []) (hh : (rd s.printers n).state = .waitBook) :
    (rd (removeAllJobs s).printers n).state = .empty ∧ (rd (removeAllJobs s).printers n).timer = none := by
  have waits := clearPrinters_waits (s := s) (l := allPrn) (List.nodup_finRange 4) (List.mem_finRange n) hq hh
  rw [removeAllJobs_eq]
  exact waits

end

end Sys2Proof.Machine

namespace Sys2Proof.Machine

/-! ## The entry to CLOSING -/

section
variable {s t u : State}

theorem closingCondition_iff (s : State) : closingCondition s = true ↔
    (∀ p, (rd s.posns p).state = .signedOff) ∧ ∀ n, (rd s.printers n).holds = false := by
  simp [closingCondition, allPos, allPrn, List.all_eq_true]

/-- A batch started, told of a state with the same engine and completions (R161). -/
theorem Started.congr {k : BatchKind} {base : List OutMsg} (h : Started k base u t) (engine : s.engine = u.engine)
    (completions : s.day.completions = u.day.completions) : Started k base s t := by
  unfold Started at h ⊢
  rwa [engine, completions]

/-- The test of the closing condition out of CUTOFF, or while it does not hold (R66). -/
theorem exec_closingConditionTest_fails (powered : s.powered = true) (rb : Option RetainedRec)
    (h : s.day.state ≠ .cutoff ∨ (∃ p, (rd s.posns p).state ≠ .signedOff) ∨ ∃ n, (rd s.printers n).holds = true) :
    exec (.closingConditionTest rb) s = .next s.begin := by
  show execClosingConditionTest rb s = _
  unfold execClosingConditionTest
  rw [event_eq _ powered]
  refine congrArg _ (if_neg fun both => ?_)
  obtain ⟨cutoff, condition⟩ := both
  obtain ⟨positions, printers⟩ := (closingCondition_iff _).1 condition
  rcases h with out | ⟨p, on⟩ | ⟨n, holds⟩
  · exact out cutoff
  · exact on (positions p)
  · exact absurd (holds.symm.trans (printers n)) (by decide)

theorem exec_closingConditionTest_holds (powered : s.powered = true) (rb : Option RetainedRec) (cutoff : s.day.state = .cutoff)
    (positions : ∀ p, (rd s.posns p).state = .signedOff) (printers : ∀ n, (rd s.printers n).holds = false) :
    exec (.closingConditionTest rb) s = .next (enterClosing rb s.begin) := by
  show execClosingConditionTest rb s = _
  unfold execClosingConditionTest
  rw [event_eq _ powered]
  exact congrArg _ (if_pos ⟨cutoff, (closingCondition_iff _).2 ⟨positions, printers⟩⟩)

theorem fits_closing_room (room : slotsUsed s + (backlogs s).length + 2 ≤ 16384) :
    fits .closing ((backlogs (removeAllJobs s)).length + 1) (removeAllJobs s) = true := by
  have mid : (closingMidnight (removeAllJobs s)).length ≤ 1 := by
    rw [closingMidnight_eq]
    split <;> simp
  have used : slotsUsed (removeAllJobs s) = slotsUsed s := by unfold slotsUsed; simp
  have fit : ForcedFits [] (removeAllJobs s) := by
    unfold ForcedFits
    rw [backlogs_removeAllJobs, used, List.length_nil]
    omega
  simpa using (fits_closing_iff [] (removeAllJobs s)).2 fit

/-- What was told of a write of the retained store is told of a state the event goes on to (R73). -/
theorem RetainedWritten.goesOn {cause : RetainedCause} {rb : Option RetainedRec} {n : Nat} (h : RetainedWritten cause rb s t)
    (retained : u.nv.retained = t.nv.retained) (bad : u.day.retainedBad = t.day.retainedBad) (told : Told n t u) :
    RetainedWritten cause rb s u := by
  unfold RetainedWritten at h ⊢
  rw [retained, bad]
  obtain ⟨w, date, amounts, crc, good, other⟩ := h
  refine ⟨w, date, amounts, crc, good, fun x hx ne => ?_⟩
  obtain ⟨stored, mark, reported⟩ := other x hx ne
  exact ⟨stored, mark, fun on few => Queued.stays (reported on few) told⟩

/-- A day that has entered CLOSING, up to the report of it (R67). -/
def closingReported (rb : Option RetainedRec) (s : State) : State :=
  reportClosing (backlogs (removeAllJobs s)).length (setDay .closing (closingRetained rb s))

/-- What an entry to CLOSING leaves before the Transfer Engine is told (R67, R73). -/
structure ClosingReported (rb : Option RetainedRec) (s t : State) : Prop where
  entries : t.nv.entries.map (·.body) = (journal s).map (·.body) ++ closingBodies s ++
    [.close false (slotsUsed s + (closingBodies s).length + 1)
      (s.nv.control.fields.entryCount + (closingBodies s).length + 1)]
  marks : Backlogged ((backlogs s).flatMap (·.2)) s t
  fields : t.nv.control.fields = { s.nv.control.fields with
    day := some .closing, slotsUsed := slotsUsed s + (closingBodies s).length + 1,
    entryCount := s.nv.control.fields.entryCount + (closingBodies s).length + 1 }
  low : LowSpaceTold (closingBodies s ++ [.close false (slotsUsed s + (closingBodies s).length + 1)
    (s.nv.control.fields.entryCount + (closingBodies s).length + 1)]) s t
  jc : t.jc = { s.jc with lowSpace := t.jc.lowSpace }
  retained : RetainedWritten .closing rb s t
  reported : s.line.state = .online → s.line.outbound.length ≤ 24 → Reported 255 (.dayClosing (businessDate s)
    (slotsUsed s + (closingBodies s).length + 1) (s.nv.control.fields.entryCount + (closingBodies s).length + 1)
    (backlogs s).length (!t.day.retainedBad)) s t
  told : Told 2 s t
  tells : TellsReports s t
  clock : t.clock = { s.clock with midnights := if closingMidnight s = [] then s.clock.midnights else 0 }
  queues : ∀ n, rd t.queues n = []
  dirty : ∀ p, 0 ∈ (rd t.screens p).dirty
  waits : ∀ n, (rd s.printers n).state = .waitBook → rd s.queues n ≠ [] →
    (rd t.printers n).state = .empty ∧ (rd t.printers n).timer = none
  day : t.day = { s.day with state := .closing, retainedBad := t.day.retainedBad }
  frame : t.tables = s.tables ∧ t.posns = s.posns ∧ t.keys = s.keys ∧ t.drawers = s.drawers ∧ t.groups = s.groups ∧
    t.store = [] ∧ t.engine = s.engine ∧ t.powered = s.powered ∧ t.freeUsed = s.freeUsed ∧ t.pending = s.pending

/-- The journaling of an entry to CLOSING leaves all but the journal, the line, the jobs and the midnight count (R67). -/
theorem closingJournaled_frame (s : State) : let t := closingJournaled s
    t.tables = s.tables ∧ t.posns = s.posns ∧ t.keys = s.keys ∧ t.drawers = s.drawers ∧ t.groups = s.groups ∧
    t.day = s.day ∧ t.engine = s.engine ∧ t.powered = s.powered ∧ t.freeUsed = s.freeUsed ∧ t.pending = s.pending ∧
    t.queues = (removeAllJobs s).queues ∧ t.printers = (removeAllJobs s).printers := by
  have backlog (bs : List (Account × List Nat)) (x : State) : let y := bs.foldl appendBacklog x
      y.tables = x.tables ∧ y.posns = x.posns ∧ y.keys = x.keys ∧ y.drawers = x.drawers ∧ y.groups = x.groups ∧
      y.day = x.day ∧ y.engine = x.engine ∧ y.powered = x.powered ∧ y.freeUsed = x.freeUsed ∧ y.pending = x.pending ∧
      y.queues = x.queues ∧ y.printers = x.printers := by
    have := foldl_keeps (fun x : State => (x.tables, x.posns, x.keys, x.drawers, x.groups, x.day, x.engine, x.powered,
      x.freeUsed, x.pending, x.queues, x.printers)) appendBacklog (by intros; simp) bs x
    simpa using this
  unfold closingJournaled
  simp [backlog]

theorem closingReported_spec (rb : Option RetainedRec) (s : State) : ClosingReported rb s (closingReported rb s) := by
  obtain ⟨j, hj⟩ : ∃ j, j = closingJournaled s := ⟨_, rfl⟩
  obtain ⟨w, hw⟩ : ∃ w : State, w = { j with store := [] } := ⟨_, rfl⟩
  obtain ⟨y, hy⟩ : ∃ y, y = writeRetained .closing rb w := ⟨_, rfl⟩
  obtain ⟨z, hz⟩ : ∃ z, z = setDay .closing y := ⟨_, rfl⟩
  obtain ⟨t, ht⟩ : ∃ t, t = reportClosing (backlogs s).length z := ⟨_, rfl⟩
  have whole : closingReported rb s = t := by
    unfold closingReported closingRetained
    rw [← hj, ← hw, ← hy, ← hz, backlogs_removeAllJobs, ← ht]
  obtain ⟨entries, marks, low, fields, jc, toldJ, clock⟩ := closingJournaled_spec s
  have tellsJ := closingJournaled_tells s
  obtain ⟨tables, posns, keys, drawers, groups, day, engine, powered, free, pending, queues, printers⟩ := closingJournaled_frame s
  obtain ⟨empty, -⟩ := removeAllJobs_spec s
  have waits (n : Prn) := removeAllJobs_waits (s := s) (n := n)
  rw [← hj] at *
  rw [← queues] at empty
  rw [← printers] at waits
  obtain ⟨wrote, entriesY, controlY, dayY⟩ := writeRetained_spec .closing rb w
  have tellsY := writeRetained_tells .closing rb w
  rw [← hy] at wrote entriesY controlY dayY tellsY
  have said : Says 1 z t := ht ▸ report_says (by simp) z
  have toldW : Told 0 s w := hw ▸ toldJ.goesOn rfl rfl
  have toldZ : Told 1 s z := hz ▸ (toldW.trans wrote.told).goesOn rfl rfl
  have silent : Says 0 j w := hw ▸ .of_eq rfl rfl
  have passed : Says 0 y z := hz ▸ .of_eq rfl rfl
  have after : Says (1 + (0 + 1)) w t := wrote.trans (passed.trans said)
  have nvW : w.nv = j.nv := by rw [hw]
  have nvT : t.nv = y.nv := by simp [ht, reportClosing, hz]
  have entriesT : t.nv.entries = j.nv.entries := by rw [nvT, entriesY, nvW]
  have controlT : t.nv.control = j.nv.control := by rw [nvT, controlY, nvW]
  have jcT : t.jc = j.jc := by simp [ht, reportClosing, hz, hy, hw]
  have dayT : t.day = { s.day with state := .closing, retainedBad := t.day.retainedBad } := by
    have : t.day = { y.day with state := .closing } := by simp [ht, reportClosing, hz, setDay_state]
    rw [this, dayY, hw]
    show { j.day with state := .closing, retainedBad := y.day.retainedBad } = _
    rw [day]
  have date : businessDate z = businessDate s := by
    have nvZ : z.nv = y.nv := by rw [hz]; rfl
    unfold businessDate
    rw [nvZ, controlY, nvW, fields]
  rw [whole]
  refine ⟨entriesT ▸ entries, marks.congr rfl entriesT controlT, controlT ▸ fields,
    after.lowSpace (silent.lowSpace low), by rw [jcT]; exact jc, ?_, ?_,
    toldZ.trans said.told, ?_, ?_, fun n => ?_, fun p => ?_, fun n hh hq => ?_, dayT, ?_⟩
  · have dateW : businessDate w = businessDate s := by unfold businessDate; rw [nvW, fields]
    have drawersW : w.drawers = s.drawers := by rw [hw]; exact drawers
    refine writeRetained_written (u := w) dateW (fun p => by rw [drawersW]) toldW (Nat.zero_le 2)
      (hy ▸ passed.told.trans said.told) (by rw [nvT, hy]) ?_
    rw [ht, hz, hy]
    simp [reportClosing]
  · intro on few
    have used : slotsUsed z = slotsUsed s + (closingBodies s).length + 1 := by
      have : z.nv = y.nv := by rw [hz]; rfl
      unfold slotsUsed
      rw [this, controlY, nvW, fields]
      rfl
    have count : z.nv.control.fields.entryCount = s.nv.control.fields.entryCount + (closingBodies s).length + 1 := by
      have : z.nv = y.nv := by rw [hz]; rfl
      rw [this, controlY, nvW, fields]
    have bad : t.day.retainedBad = z.day.retainedBad := by simp [ht, reportClosing]
    rw [bad, ← date, ← used, ← count, ht]
    exact toldZ.reported on (by omega)
  · have settled : TellsReports j w := .of_eq (by rw [hw])
    have tellsZ : TellsReports y z := .of_eq (by rw [hz]; rfl)
    exact tellsJ.trans (settled.trans (tellsY.trans (tellsZ.trans (ht ▸ report_tells _ z))))
  · have : t.clock = j.clock := by simp [ht, reportClosing, hz, hy, hw]
    rw [this]
    exact clock
  · have : t.queues = j.queues := by simp [ht, reportClosing, hz, hy, hw]
    rw [this]
    exact empty n
  · have : rd t.screens p = (rd y.screens p).mark 0 := by
      rw [← setDay_screens .closing, ← hz, ht]
      simp [reportClosing]
    rw [this, mark_dirty]
    exact .inl rfl
  · have : t.printers = j.printers := by simp [ht, reportClosing, hz, hy, hw]
    rw [this]
    exact waits n hq hh
  · simp [ht, reportClosing, hz, hy, hw, tables, posns, keys, drawers, groups, engine, powered, free, pending]

end

theorem dayCtl_eq {c d : DayCtl} {x : DayState} (state : c.state = x) (date : c.date = d.date) (alarm : c.alarm = d.alarm) :
    c = { d with state := x, retainedBad := c.retainedBad, completions := c.completions } := by
  cases c
  cases d
  simp_all

/-- An event that leaves the positions as they are and empties the store: what `since` leaves open, the jobs and printers, the
screens, the engine, the clock and the day aside, t is s. -/
theorem eq_since_jobs {s t : State} {c : Clock} {d : DayCtl} (hline : t.line = { s.line with outbound := t.line.outbound })
    (htables : t.tables = s.tables) (hposns : t.posns = s.posns) (hkeys : t.keys = s.keys) (hdrawers : t.drawers = s.drawers)
    (hgroups : t.groups = s.groups) (hstore : t.store = []) (hclock : t.clock = c) (hday : t.day = d)
    (hpowered : t.powered = s.powered) (hfree : t.freeUsed = s.freeUsed) (hpending : t.pending = s.pending) :
    t = { since s t with queues := t.queues, printers := t.printers, screens := t.screens, store := [], engine := t.engine,
                         clock := c, day := d } := by
  unfold since
  rw [← hline, ← htables, ← hposns, ← hkeys, ← hdrawers, ← hgroups, ← hstore, ← hclock, ← hday, ← hpowered, ← hfree, ← hpending]

/-- Settles O40: the request of the entry, then the retained store, the day passed on, and what the engine makes of it. -/
theorem closingIsEntered : Obligations.ClosingIsEntered := by
  intro rb s powered
  refine ⟨fun h => exec_closingConditionTest_fails powered rb h, fun cutoff positions printers room => ?_⟩
  obtain ⟨v, hv⟩ : ∃ v, v = closingReported rb s.begin := ⟨_, rfl⟩
  have run : exec (.closingConditionTest rb) s = .next (dayBatchAtClosing v) := by
    rw [exec_closingConditionTest_holds powered rb cutoff positions printers, enterClosing_eq,
      if_neg (by rw [fits_closing_room (s := s.begin) room]; decide), hv]
    rfl
  obtain ⟨entries, marks, fields, low, jc, retained, reported, told, ⟨rs, outbound, reports⟩, clock, queues, dirty, waits, day,
    tables, posns, keys, drawers, groups, store, engine, powered', free, pending⟩ := hv ▸ closingReported_spec rb s.begin
  have same := dayBatchAtClosing_frame v
  obtain ⟨n, said⟩ := dayBatchAtClosing_says v
  have started := fun h => dayBatchAtClosing_started (s := v) h
  have forward := fun b => dayBatchAtClosing_forward (s := v) (b := b)
  have daily := fun b => dayBatchAtClosing_day (s := v) (b := b)
  have goes := fun h => dayBatchAtClosing_goesOn (s := v) h
  intro mid close goesOn
  have bodies : closingBodies s.begin = mid ++ (backlogs s).map fun b => .backlog b.1 b.2 := rfl
  have total : (mid ++ (backlogs s).map fun b => EntryBody.backlog b.1 b.2).length = mid.length + (backlogs s).length := by simp
  have used : slotsUsed s.begin + (mid.length + (backlogs s).length) + 1 = close := by
    show slotsUsed s + _ + 1 = slotsUsed s + _ + _ + 1
    omega
  have count : s.begin.nv.control.fields.entryCount + (mid.length + (backlogs s).length) + 1 =
      s.nv.control.fields.entryCount + mid.length + (backlogs s).length + 1 := by
    show s.nv.control.fields.entryCount + _ + 1 = _
    omega
  rw [bodies, total, used, count] at entries fields low
  rw [bodies, total, used, count] at reported
  have on : BatchGoesOn v ↔ goesOn := by
    unfold BatchGoesOn
    rw [engine]
    rfl
  have completions : v.day.completions = s.day.completions := by rw [day]; rfl
  obtain ⟨lineT, -, -, -, tablesT, posnsT, screensT, keysT, drawersT, groupsT, nvT, jcT, dayState, dayDate, dayAlarm, dayBad,
    clockT, storeT, queuesT, printersT, -, -, poweredT, outT, -, -, freeT, pendingT⟩ := same
  refine ⟨dayBatchAtClosing v, run, ?_, ?_, ?_, ?_, ?_, ?_, ?_, ?_, ?_, ?_, ?_, ?_, ?_, ?_, ?_⟩
  · rw [nvT, entries, ← List.append_assoc]
    rfl
  · exact marks.congr rfl (by rw [nvT]) (by rw [nvT])
  · rw [nvT]
    exact fields
  · exact said.lowSpace low
  · rw [jcT]
    exact jc
  · exact retained.goesOn (by rw [nvT]) dayBad said.told
  · intro online few
    rw [dayBad]
    exact Queued.stays (reported online few) said.told
  · exact fun m => by rw [queuesT]; exact queues m
  · exact fun p => by rw [screensT]; exact dirty p
  · exact fun m hh hq => by rw [printersT]; exact waits m hh hq
  · intro b batch kind state
    rw [forward b (by rw [engine]; exact batch) kind (by rw [engine]; exact state)]
    show { v.engine with dayAwaited := true } = _
    rw [engine]
    rfl
  · intro b batch kind
    rw [daily b (by rw [engine]; exact batch) kind, engine]
    rfl
  · exact fun h => by rw [goes (on.2 h), completions]
  · refine fun h => ⟨rs, reports, ?_⟩
    have := started (mt on.1 h)
    rw [outbound] at this
    exact this.congr (by rw [engine]; rfl) completions.symm
  · have clock' : (dayBatchAtClosing v).clock = { s.clock with midnights := if mid = [] then s.clock.midnights else 0 } :=
      clockT.trans clock
    refine eq_since_jobs (told.trans said.told).line (tablesT.trans tables) (posnsT.trans posns) (keysT.trans keys)
      (drawersT.trans drawers) (groupsT.trans groups) (storeT.trans store) clock' (dayCtl_eq ?_ ?_ ?_) (poweredT.trans powered')
      (freeT.trans free) (pendingT.trans pending)
    · rw [dayState, day]
    · rw [dayDate, day]; rfl
    · rw [dayAlarm, day]; rfl

end Sys2Proof.Machine

namespace Sys2Proof.Machine

/-! ## One screen within its bounds -/

/-- A row of a screen that may be dirty, kept ascending (R105). -/
def RowsTidy (rows : List Nat) : Prop := rows.Pairwise (· < ·) ∧ ∀ r ∈ rows, r ≤ 19

/-- A screen's dirty rows, notice column and review offset within their ranges (R101, R105). -/
structure Screen.Tidy (sc : Screen) : Prop where
  rows : RowsTidy sc.dirty
  column : sc.column ≤ 80
  review : sc.review ≤ 12

theorem RowsTidy.insertRow {rows : List Nat} (h : RowsTidy rows) {r : Nat} (hr : r ≤ 19) : RowsTidy (insertRow r rows) := by
  refine ⟨?_, fun x hx => ?_⟩
  · obtain ⟨sorted, -⟩ := h
    induction rows with
    | nil => exact List.pairwise_singleton ..
    | cons x xs ih =>
      obtain ⟨low, sorted⟩ := List.pairwise_cons.1 sorted
      unfold Machine.insertRow
      split
      · next before =>
        refine List.pairwise_cons.2 ⟨fun y hy => ?_, List.pairwise_cons.2 ⟨low, sorted⟩⟩
        rcases List.mem_cons.1 hy with rfl | hy
        · exact before
        · exact before.trans (low y hy)
      · next notBefore =>
        split
        · exact List.pairwise_cons.2 ⟨low, sorted⟩
        · next other =>
          refine List.pairwise_cons.2 ⟨fun y hy => ?_, ih sorted⟩
          rcases (mem_insertRow r y xs).1 hy with rfl | hy
          · omega
          · exact low y hy
  · rcases (mem_insertRow r x rows).1 hx with rfl | hx
    · exact hr
    · exact h.2 x hx

theorem RowsTidy.insertRows {rows : List Nat} (h : RowsTidy rows) (rs : List Nat) (hrs : ∀ r ∈ rs, r ≤ 19) :
    RowsTidy (rs.foldl (fun d r => Machine.insertRow r d) rows) := by
  induction rs generalizing rows with
  | nil => exact h
  | cons r rs ih =>
    exact ih (h.insertRow (hrs r List.mem_cons_self)) fun x hx => hrs x (List.mem_cons_of_mem _ hx)

section
variable {sc : Screen}

theorem Screen.Tidy.mark (h : sc.Tidy) {r : Nat} (hr : r ≤ 19) : (sc.mark r).Tidy :=
  ⟨h.rows.insertRow hr, h.column, h.review⟩

theorem Screen.Tidy.markArea (h : sc.Tidy) : sc.markArea.Tidy := by
  obtain ⟨rs, hrs⟩ : ∃ rs, rs = List.range' 1 15 := ⟨_, rfl⟩
  have low : ∀ r ∈ rs, r ≤ 19 := fun r hr => by
    rw [hrs, List.mem_range'_1] at hr
    omega
  unfold Screen.markArea
  rw [← hrs]
  exact ⟨h.rows.insertRows rs low, h.column, h.review⟩

/-- A change of the ring, its newest line, the notice column or the offset within range, with the window's marks (R101). -/
theorem Screen.Tidy.withWindow {f : Screen → Screen} (h : (f sc).Tidy) : (sc.withWindow f).Tidy := by
  have marks (ks : List Nat) (hks : ∀ k ∈ ks, k ≤ 3) (u t : Screen) (hu : u.Tidy) :
      (ks.foldl (fun u k => if sc.windowLine k = t.windowLine k then u else u.mark (16 + k)) u).Tidy := by
    induction ks generalizing u with
    | nil => exact hu
    | cons k ks ih =>
      refine ih (fun x hx => hks x (List.mem_cons_of_mem _ hx)) _ ?_
      dsimp only
      split
      · exact hu
      · exact hu.mark (by have := hks k List.mem_cons_self; omega)
  exact marks [0, 1, 2, 3] (by decide) (f sc) (f sc) h

theorem Screen.Tidy.setReview (h : sc.Tidy) {o : Nat} (ho : o ≤ 12) : (sc.setReview o).Tidy := by
  unfold Screen.setReview
  split
  · exact h
  · exact (Screen.Tidy.withWindow (f := fun sc => { sc with review := o }) ⟨h.rows, h.column, ho⟩).mark (by decide)

theorem Screen.Tidy.advanceLine (h : sc.Tidy) : sc.advanceLine.Tidy := by
  unfold Screen.advanceLine
  exact Screen.Tidy.withWindow (f := fun t => { t with
      newest := sc.newest + 1, ring := wr t.ring (sc.newest + 1) (Vector.replicate 80 ⟨0x20, (rd (rd sc.ring sc.newest) 0).attr⟩) })
    ⟨h.rows, h.column, h.review⟩

theorem Screen.Tidy.column_zero (h : sc.Tidy) : ({ sc with column := 0 } : Screen).Tidy := ⟨h.rows, Nat.zero_le _, h.review⟩

theorem Screen.Tidy.putNotice (h : sc.Tidy) (a : Attr) (b : Byte) : (sc.putNotice a b).Tidy := by
  have room : ∃ t : Screen, t = (if sc.column = 80 then { sc.advanceLine with column := 0 } else sc) ∧ t.Tidy ∧ t.column ≤ 79 := by
    refine ⟨_, rfl, ?_⟩
    split
    · exact ⟨h.advanceLine.column_zero, Nat.zero_le _⟩
    · exact ⟨h, by have := h.column; omega⟩
  obtain ⟨t, ht, tidy, low⟩ := room
  unfold Screen.putNotice
  rw [← ht]
  obtain ⟨rows, -, review⟩ := Screen.Tidy.withWindow (sc := t)
    (f := fun sc => { sc with ring := upd sc.ring sc.newest fun (l : Vector RingCell 80) => updN l sc.column fun _ => ⟨printable b, a⟩ })
    ⟨tidy.rows, tidy.column, tidy.review⟩
  refine ⟨rows, ?_, review⟩
  show (t.withWindow _).column + 1 ≤ 80
  rw [(withWindow_frame _ t).2.2.2.2.2.1]
  show t.column + 1 ≤ 80
  omega

/-- A part notice whose text fits a line (R103). -/
theorem Screen.Tidy.partNotice (h : sc.Tidy) {text : List Byte} (fits : text.length ≤ 80) : (sc.partNotice text).Tidy := by
  obtain ⟨t, ht, lined⟩ : ∃ t, t = (if (sc.setReview 0).column = 0 then sc.setReview 0 else (sc.setReview 0).advanceLine) ∧
      t.Tidy := by
    refine ⟨_, rfl, ?_⟩
    split
    · exact h.setReview (Nat.zero_le _)
    · exact (h.setReview (Nat.zero_le _)).advanceLine
  unfold Screen.partNotice
  dsimp only
  rw [← ht]
  obtain ⟨rows, -, review⟩ := Screen.Tidy.withWindow (sc := t) (f := fun sc => { sc with
    ring := upd sc.ring sc.newest (text.zipIdx.foldl fun l ci => updN l ci.2 fun _ => ⟨printable ci.1, .bright⟩) })
    ⟨lined.rows, lined.column, lined.review⟩
  exact ⟨rows, fits, review⟩

theorem Screen.Tidy.setPrompt (h : sc.Tidy) (n : Prn) (pr : Prompt) : (sc.setPrompt n pr).Tidy :=
  Screen.Tidy.mark (sc := { sc with prompts := wr sc.prompts n (some pr) }) ⟨h.rows, h.column, h.review⟩ (by decide)

theorem Screen.Tidy.dropPrompt (h : sc.Tidy) (n : Prn) : (sc.dropPrompt n).Tidy := by
  unfold Screen.dropPrompt
  split
  · exact Screen.Tidy.mark (sc := { sc with prompts := wr sc.prompts n none }) ⟨h.rows, h.column, h.review⟩ (by decide)
  · exact h

theorem Screen.Tidy.markNoPrinter (h : sc.Tidy) (b : Bool) : (sc.markNoPrinter b).Tidy :=
  Screen.Tidy.mark (sc := { sc with noPrinter := b }) ⟨h.rows, h.column, h.review⟩ (by decide)

theorem Screen.Tidy.updCell (h : sc.Tidy) (row col : Nat) (f : Cell → Cell) : (sc.updCell row col f).Tidy := by
  unfold Screen.updCell
  split
  · exact h
  · exact ⟨h.rows, h.column, h.review⟩

/-- A change made cell by cell, or field by field (R96, R100). -/
theorem Screen.Tidy.foldl {α : Type} {f : Screen → α → Screen} {xs : List α} (hf : ∀ sc, ∀ x ∈ xs, sc.Tidy → (f sc x).Tidy)
    (h : sc.Tidy) : (xs.foldl f sc).Tidy := by
  induction xs generalizing sc with
  | nil => exact h
  | cons x xs ih =>
    exact ih (fun sc y hy => hf sc y (List.mem_cons_of_mem _ hy)) (hf sc x List.mem_cons_self h)

theorem Screen.Tidy.writeField (h : sc.Tidy) {f : FieldDesc} (row : f.row ≤ 19) (v : List Byte) : (sc.writeField f v).Tidy :=
  (Screen.Tidy.foldl (fun _ _ _ h => h.updCell ..) h).mark row

theorem Screen.Tidy.dressField (h : sc.Tidy) (f : FieldDesc) : (sc.dressField f).Tidy :=
  Screen.Tidy.foldl (fun _ _ _ h => h.updCell ..) h

/-- A run of characters from a row of the form area on (R100). -/
theorem Screen.Tidy.paintRun (h : sc.Tidy) (dir : PaintDir) (a : Attr) (bs : List Byte) {at_ : Nat × Nat} (row : at_.1 ≤ 15) :
    (Screen.paintRun dir a bs at_ sc).Tidy := by
  induction bs generalizing at_ sc with
  | nil => exact h
  | cons b bs ih =>
    refine ih ((h.updCell ..).mark (by omega)) ?_
    unfold paintNext
    cases dir <;> dsimp only <;> (repeat' split) <;> omega

end

end Sys2Proof.Machine

namespace Sys2Proof.Machine

/-! ## Queues, clock, screens and forms within their bounds -/

/-- The outbound queue, key queues, clock, screens and forms within their ranges (R58, R94, R95, R101, R105, R109, R174). -/
structure FrontTidy (line : LineIf) (keys : Vector KeyUnit 16) (clock : Clock) (screens : Vector Screen 16)
    (forms : Vector (Option FormDesc) 32) : Prop where
  outbound : line.outbound.length ≤ 32
  keys : ∀ p, (rd keys p).queue.length ≤ 16
  time : clock.time ≤ 86399
  midnights : clock.midnights ≤ 255
  unset : clock.isSet = false → clock.time = 0
  screens : ∀ p, (rd screens p).Tidy
  forms : ∀ n d, rd forms n = some d → formOk n.val d = true

/-- The blocks of a state that are not the journal's, the store's or the engine's, within their ranges. -/
def Tidy (s : State) : Prop := FrontTidy s.line s.keys s.clock s.screens s.tables.forms

section
variable {s : State}

theorem Tidy.withScreens (h : Tidy s) {v : Vector Screen 16} (hv : ∀ p, (rd v p).Tidy) : Tidy { s with screens := v } :=
  ⟨h.outbound, h.keys, h.time, h.midnights, h.unset, hv, h.forms⟩

theorem Tidy.updScreen (h : Tidy s) (p : Pos) {f : Screen → Screen} (hf : (f (rd s.screens p)).Tidy) : Tidy (s.updScreen p f) :=
  h.withScreens fun q => by
    rw [rd_upd]
    split
    · exact hf
    · exact h.screens q

theorem Tidy.mapScreens (h : Tidy s) {f : Screen → Screen} (hf : ∀ sc, sc.Tidy → (f sc).Tidy) :
    Tidy { s with screens := mapV s.screens f } :=
  h.withScreens fun q => by
    rw [rd_mapV]
    exact hf _ (h.screens q)

theorem Tidy.withKeys (h : Tidy s) {v : Vector KeyUnit 16} (hv : ∀ p, (rd v p).queue.length ≤ 16) : Tidy { s with keys := v } :=
  ⟨h.outbound, hv, h.time, h.midnights, h.unset, h.screens, h.forms⟩

theorem Tidy.updKeys (h : Tidy s) (p : Pos) {f : KeyUnit → KeyUnit} (hf : (f (rd s.keys p)).queue.length ≤ 16) :
    Tidy (s.updKeys p f) :=
  h.withKeys fun q => by
    rw [rd_upd]
    split
    · exact hf
    · exact h.keys q

/-- A key unit changed beside its queue. -/
theorem Tidy.editKeys (h : Tidy s) (p : Pos) {f : KeyUnit → KeyUnit} (hf : ∀ k, (f k).queue = k.queue) : Tidy (s.updKeys p f) :=
  h.updKeys p (by rw [hf]; exact h.keys p)

theorem Tidy.updLine (h : Tidy s) {f : LineIf → LineIf} (hf : (f s.line).outbound.length ≤ 32) : Tidy (s.updLine f) :=
  ⟨hf, h.keys, h.time, h.midnights, h.unset, h.screens, h.forms⟩

theorem Tidy.withClock (h : Tidy s) {c : Clock} (time : c.time ≤ 86399) (midnights : c.midnights ≤ 255)
    (unset : c.isSet = false → c.time = 0) : Tidy { s with clock := c } :=
  ⟨h.outbound, h.keys, time, midnights, unset, h.screens, h.forms⟩

theorem Tidy.withForms (h : Tidy s) {f : Tables → Tables} (hf : ∀ n d, rd (f s.tables).forms n = some d → formOk n.val d = true) :
    Tidy (s.updTables f) :=
  ⟨h.outbound, h.keys, h.time, h.midnights, h.unset, h.screens, hf⟩

/-! ### The line -/

@[simp] theorem enqueue_tidy (m : OutMsg) (h : Tidy s) (room : s.line.outbound.length < 32) : Tidy (enqueue m s) :=
  h.updLine (by simpa using room)

@[simp] theorem replyWith_tidy (hd : Hdr) (st : Status) (x : Extra) (h : Tidy s) : Tidy (replyWith hd st x s) := by
  unfold replyWith
  split
  · next room => exact enqueue_tidy _ h room
  · exact h

@[simp] theorem reply_tidy (hd : Hdr) (st : Status) (h : Tidy s) : Tidy (reply hd st s) := replyWith_tidy hd st .none h

theorem outboundRoom_lt (room : outboundRoom s = true) : s.line.outbound.length < 28 := by
  exact of_decide_eq_true room

theorem enqueue_tidy_of_room (m : OutMsg) (h : Tidy s) (room : outboundRoom s = true) : Tidy (enqueue m s) :=
  enqueue_tidy m h ((outboundRoom_lt room).trans (by decide))

@[simp] theorem report_tidy (p : Nat) (r : Report) (h : Tidy s) : Tidy (report p r s) := by
  unfold report
  split
  · next room => exact enqueue_tidy_of_room _ h room.2
  · exact h

@[simp] theorem tone_tidy (p : Pos) (h : Tidy s) : Tidy (tone p s) := by simpa [Tidy] using h

@[simp] theorem emit_tidy (o : Output) (h : Tidy s) : Tidy (emit o s) := h

@[simp] theorem command_tidy (n : Prn) (c : PrnCmd) (h : Tidy s) : Tidy (command n c s) := h

/-! ### Journal memory -/

@[simp] theorem nvWrite_tidy (w : NvWrite) (h : Tidy s) : Tidy (nvWrite w s) := h

@[simp] theorem writeControl_tidy (f : ControlFields → ControlFields) (h : Tidy s) : Tidy (writeControl f s) := by
  simpa [Tidy] using h

@[simp] theorem lowSpaceCheck_tidy (h : Tidy s) : Tidy (lowSpaceCheck s) := by
  unfold lowSpaceCheck
  split
  · exact report_tidy _ _ h
  · exact h

@[simp] theorem appendWith_tidy (f : ControlFields → ControlFields) (b : EntryBody) (h : Tidy s) : Tidy (appendWith f b s) := by
  unfold appendWith
  refine lowSpaceCheck_tidy ?_
  split
  · exact h
  · exact h

@[simp] theorem append_tidy (b : EntryBody) (h : Tidy s) : Tidy (append b s) := appendWith_tidy id b h

@[simp] theorem appendAll_tidy (bs : List EntryBody) (h : Tidy s) : Tidy (appendAll bs s) := by
  unfold appendAll
  induction bs generalizing s with
  | nil => exact h
  | cons b bs ih => exact ih (append_tidy b h)

@[simp] theorem placeMidnight_tidy (c : CapClass) (h : Tidy s) : Tidy (placeMidnight c s) := by
  unfold placeMidnight
  split
  · have entered := append_tidy (.midnight s.clock.midnights) h
    exact entered.withClock entered.time (Nat.zero_le _) entered.unset
  · exact h

@[simp] theorem appendBacklog_tidy (b : Account × List Nat) (h : Tidy s) : Tidy (appendBacklog s b) :=
  lowSpaceCheck_tidy (nvWrite_tidy _ (nvWrite_tidy _ h))

@[simp] theorem appendBacklogs_tidy (bs : List (Account × List Nat)) (h : Tidy s) : Tidy (bs.foldl appendBacklog s) := by
  induction bs generalizing s with
  | nil => exact h
  | cons b bs ih => exact ih (appendBacklog_tidy b h)

@[simp] theorem appendClose_tidy (f : Bool) (d : RecDay) (h : Tidy s) : Tidy (appendClose f d s) := by
  unfold appendClose
  exact appendWith_tidy _ _ h

@[simp] theorem applyLegs_tidy (gs : List Leg) (h : Tidy s) : Tidy (applyLegs gs s) := by simpa [Tidy] using h

@[simp] theorem writeRetained_tidy (c : RetainedCause) (rb : Option RetainedRec) (h : Tidy s) : Tidy (writeRetained c rb s) := by
  cases rb with
  | none => exact h
  | some found =>
    unfold writeRetained
    dsimp only
    split
    · exact h
    · exact report_tidy _ _ h

/-! ### Screens -/

@[simp] theorem markRow0_tidy (p : Pos) (h : Tidy s) : Tidy (markRow0 p s) :=
  h.updScreen p ((h.screens p).mark (by decide))

@[simp] theorem markRow0All_tidy (h : Tidy s) : Tidy (markRow0All s) := h.mapScreens fun _ h => h.mark (by decide)

@[simp] theorem setDay_tidy (d : DayState) (h : Tidy s) : Tidy (setDay d s) := markRow0All_tidy h

theorem notice_tidy (p : Pos) {text : List Byte} (fits : text.length ≤ 80) (h : Tidy s) : Tidy (notice p text s) :=
  h.updScreen p ((h.screens p).partNotice fits)

theorem noticeAll_tidy {text : List Byte} (fits : text.length ≤ 80) (h : Tidy s) : Tidy (noticeAll text s) :=
  h.mapScreens fun _ h => h.partNotice fits

theorem statusName_length (st : Status) : st.name.length ≤ 80 := by cases st <;> decide

@[simp] theorem statusNotice_tidy (p : Pos) (st : Status) (h : Tidy s) : Tidy (notice p st.name s) :=
  notice_tidy p (statusName_length st) h

@[simp] theorem setPrompt_tidy (p : Pos) (n : Prn) (x : Prompt) (h : Tidy s) : Tidy (setPrompt p n x s) :=
  h.updScreen p ((h.screens p).setPrompt n x)

@[simp] theorem withdrawPrompt_tidy (n : Prn) (h : Tidy s) : Tidy (withdrawPrompt n s) := h.mapScreens fun _ h => h.dropPrompt n

@[simp] theorem setNoPrinter_tidy (p : Pos) (b : Bool) (h : Tidy s) : Tidy (setNoPrinter p b s) :=
  h.updScreen p ((h.screens p).markNoPrinter b)

@[simp] theorem noticeByte_tidy (p : Pos) (a : Attr) (b : Byte) (h : Tidy s) : Tidy (noticeByte p a s b) := by
  have screen := h.screens p
  unfold noticeByte
  split
  · exact h.updScreen p screen.column_zero
  split
  · refine h.updScreen p ?_
    have lined := screen.advanceLine
    refine ⟨lined.rows, ?_, lined.review⟩
    show (if _ then _ else _) ≤ 80
    split
    · exact Nat.zero_le _
    · exact lined.column
  split
  · exact h.updScreen p ⟨screen.rows, (Nat.sub_le _ _).trans screen.column, screen.review⟩
  split
  · exact tone_tidy p h
  · exact h.updScreen p (screen.putNotice a b)

@[simp] theorem noticeWrites_tidy (p : Pos) (a : Attr) (text : List Byte) (h : Tidy s) : Tidy (noticeWrites p a text s) := by
  have start : Tidy (s.updScreen p (Screen.setReview 0)) := h.updScreen p ((h.screens p).setReview (Nat.zero_le _))
  exact List.foldlRecOn text _ start fun _ h b _ => noticeByte_tidy p a b h

/-! ### Forms on a position -/

theorem field_row {n : Nat} {d : FormDesc} (ok : formOk n d = true) {f : FieldDesc} (hf : f ∈ d.fields) : f.row ≤ 15 := by
  simp only [formOk, Bool.and_eq_true, List.all_eq_true] at ok
  have field := ok.1.1.1.1.2 f hf
  simp only [fieldOk, Bool.and_eq_true, decide_eq_true_eq] at field
  omega

/-- A field of the form a position shows lies in the form area (R94). -/
theorem currentField_row (h : Tidy s) {p : Pos} {i : Nat} {f : FieldDesc} (hf : (currentFields s p)[i]? = some f) : f.row ≤ 15 := by
  obtain ⟨d, hd, mem⟩ : ∃ d, currentForm s p = some d ∧ f ∈ d.fields := by
    unfold currentFields at hf
    cases hd : currentForm s p with
    | none => simp [hd] at hf
    | some d => exact ⟨d, rfl, List.mem_of_getElem? (by simpa [hd] using hf)⟩
  unfold currentForm at hd
  obtain ⟨n, -, hn⟩ := Option.bind_eq_some_iff.1 hd
  exact field_row (h.forms n d hn) mem

theorem showForm_tidy (p : Pos) {n : Fin 32} {d : FormDesc} (hd : formDesc s n = some d) (h : Tidy s) : Tidy (showForm p n d s) := by
  have row : ∀ f ∈ d.fields, f.row ≤ 19 := fun f hf => (field_row (h.forms n d hd) hf).trans (by decide)
  have keyed := h.editKeys p (f := fun k => { k with
    values := d.fields.map presetValue, cursorField := firstUnprotected d.fields, textPos := 0 }) fun _ => rfl
  refine keyed.updScreen p ?_
  have screen := keyed.screens p
  refine Screen.Tidy.markArea ?_
  have written : (d.fields.foldl (fun (sc : Screen) f => sc.writeField f (presetValue f))
      (d.fields.foldl (fun (sc : Screen) f => sc.dressField f) { rd s.screens p with area := tabV fun r => textRow ((rdN s.tables.texts (n.val * 16 + r.val + 1)).join) })).Tidy :=
    Screen.Tidy.foldl (fun _ f hf k => Screen.Tidy.writeField k (row f hf) _)
      (Screen.Tidy.foldl (fun _ f _ k => Screen.Tidy.dressField k f) ⟨screen.rows, screen.column, screen.review⟩)
  exact ⟨written.rows, written.column, written.review⟩

@[simp] theorem clearArea_tidy (p : Pos) (h : Tidy s) : Tidy (clearArea p s) := by
  have keyed := h.editKeys p (f := fun k => { k with values := [], cursorField := none, textPos := 0 }) fun _ => rfl
  have screen := keyed.screens p
  refine keyed.updScreen p (Screen.Tidy.markArea ?_)
  exact ⟨screen.rows, screen.column, screen.review⟩

@[simp] theorem showByPart_tidy (p : Pos) (f : Option (Fin 32)) (h : Tidy s) : Tidy (showByPart p f s) := by
  unfold showByPart
  split
  · split
    · next hd => exact showForm_tidy p hd h
    · exact clearArea_tidy p h
  · exact clearArea_tidy p h

@[simp] theorem setCursor_tidy (p : Pos) (i x : Nat) (h : Tidy s) : Tidy (setCursor p i x s) := by
  unfold setCursor
  dsimp only
  split
  · exact h
  split
  · exact h
  · next f hf =>
    have keyed := h.editKeys p (f := fun k => { k with cursorField := some i, textPos := x }) fun _ => rfl
    have screen := keyed.screens p
    refine keyed.updScreen p (Screen.Tidy.mark ?_ ?_)
    · exact ⟨screen.rows, screen.column, screen.review⟩
    · rw [cursorCell_row]
      exact (currentField_row h hf).trans (by decide)

@[simp] theorem cursorToFirst_tidy (p : Pos) (h : Tidy s) : Tidy (cursorToFirst p s) := by
  unfold cursorToFirst
  split
  · exact setCursor_tidy p _ 0 h
  · exact h

@[simp] theorem setValue_tidy (p : Pos) (i : Nat) (v : List Byte) (h : Tidy s) : Tidy (setValue p i v s) := by
  unfold setValue
  split
  · exact h
  · next f hf =>
    have keyed := h.editKeys p (f := fun k => { k with values := k.values.set i v }) fun _ => rfl
    exact keyed.updScreen p ((keyed.screens p).writeField ((currentField_row h hf).trans (by decide)) v)

@[simp] theorem clearForm_tidy (p : Pos) (h : Tidy s) : Tidy (clearForm p s) := by
  unfold clearForm
  refine cursorToFirst_tidy p (List.foldlRecOn _ _ h fun t ht i _ => ?_)
  unfold resetField
  split
  · exact setValue_tidy p i _ ht
  · exact ht

/-! ### Positions -/

@[simp] theorem makeInDoubt_tidy (p : Pos) (x : PState) (h : Tidy s) : Tidy (makeInDoubt p x s) :=
  markRow0_tidy p (Tidy.editKeys (s := State.updPos p _ s) h p fun _ => rfl)

@[simp] theorem release_tidy (p : Pos) (h : Tidy s) : Tidy (release p s) := by
  unfold release
  split
  · exact makeInDoubt_tidy p _ h
  · exact h

@[simp] theorem signOffPos_tidy (p : Pos) (h : Tidy s) : Tidy (signOffPos p s) := by
  have left : Tidy (if (rd s.posns p).state = .awaiting then makeInDoubt p .signedOff s else s) := by
    split
    · exact makeInDoubt_tidy p _ h
    · exact h
  refine markRow0_tidy p (showByPart_tidy p _ ?_)
  exact Tidy.updKeys (s := State.updDrawer p _ (State.updPos p _ _)) left p (Nat.zero_le _)

theorem eachPos_tidy {f : Pos → State → State} (hf : ∀ p s, Tidy s → Tidy (f p s)) (h : Tidy s) : Tidy (eachPos f s) :=
  List.foldlRecOn allPos _ h fun t ht p _ => hf p t ht

@[simp] theorem withGroups_tidy (g : Vector (Option GroupRec) 16) (h : Tidy s) : Tidy { s with groups := g } := h

@[simp] theorem signOffAll_tidy (h : Tidy s) : Tidy (signOffAll s) := by
  refine withGroups_tidy _ (eachPos_tidy (fun p t ht => ?_) h)
  split
  · exact ht
  · exact signOffPos_tidy p ht

@[simp] theorem matchEntry_tidy (p : Pos) (ref : Option Nat) (h : Tidy s) : Tidy (matchEntry p ref s) := by
  unfold matchEntry
  split
  · exact h
  dsimp only
  split
  · exact markRow0_tidy p (Tidy.editKeys (s := State.updPos p _ s) h p fun _ => rfl)
  split
  · exact markRow0_tidy (s := State.updPos p _ s) p h
  · exact h

@[simp] theorem beginBalance_tidy (k : BalKind) (l : Option Pos) (p : Pos) (h : Tidy s) : Tidy (beginBalance k l p s) := by
  refine markRow0_tidy p (showByPart_tidy p _ ?_)
  split
  · exact makeInDoubt_tidy (s := State.updDrawer p _ s) p _ h
  · exact h

@[simp] theorem captureOne_tidy (k : BalKind) (l : Option Pos) (p : Pos) (h : Tidy s) : Tidy (captureOne k l p s) :=
  report_tidy (s := State.updDrawer p _ (append _ s)) _ _ (append_tidy _ h)

@[simp] theorem completeGroup_tidy (l : Pos) (g : GroupRec) (h : Tidy s) : Tidy (completeGroup l g s) :=
  report_tidy (s := { append _ s with groups := _ }) _ _ (append_tidy _ h)

@[simp] theorem leaveGroup_tidy (p : Pos) (l : Option Pos) (ab : Bool) (h : Tidy s) : Tidy (leaveGroup p l ab s) := by
  unfold leaveGroup
  split
  · exact h
  split
  · exact h
  dsimp only
  split
  · exact completeGroup_tidy _ _ h
  · exact h

@[simp] theorem groupBalanceEvent_tidy (k : BalKind) (l : Pos) (h : Tidy s) : Tidy (groupBalanceEvent k l s) := by
  unfold groupBalanceEvent
  dsimp only
  have begun := List.foldlRecOn (motive := Tidy) ((groupOf s.tables.positions l).filter fun q => (rd s.posns q).state != .signedOff) _
    (List.foldlRecOn (motive := Tidy) (groupOf s.tables.positions l) _
      (append_tidy (.groupBegin l k (groupOf s.tables.positions l)
        ((groupOf s.tables.positions l).filter fun q => (rd s.posns q).state == .signedOff)) (placeMidnight_tidy .control h))
      fun t ht q _ => captureOne_tidy k (some l) q ht)
    fun t ht q _ => beginBalance_tidy k (some l) q ht
  split
  · exact completeGroup_tidy _ _ begun
  · exact begun

@[simp] theorem takeDeclaration_tidy (p : Pos) (c : BalCtx) (r : DeclRec) (h : Tidy s) : Tidy (takeDeclaration p c r s) := by
  unfold takeDeclaration
  dsimp only
  refine report_tidy _ _ (leaveGroup_tidy p c.leader false ?_)
  have applied := applyLegs_tidy (declLegs r) (append_tidy (.declaration r) (placeMidnight_tidy .control h))
  split
  · exact markRow0_tidy p (showByPart_tidy (s := State.updPos p _ (State.updDrawer p _ _)) p _ applied)
  · exact signOffPos_tidy p applied

@[simp] theorem refuseDeclaration_tidy (p : Pos) (st : Status) (i : Option Nat) (h : Tidy s) :
    Tidy (refuseDeclaration p st i s) := by
  refine statusNotice_tidy p st (tone_tidy p ?_)
  split
  · exact setCursor_tidy p _ 0 h
  · exact h

end

end Sys2Proof.Machine

namespace Sys2Proof.Machine

section
variable {s : State}

/-! ## Front bounds kept by the store and the printers -/

@[simp] theorem withStore_tidy (l : List AccountRec) (h : Tidy s) : Tidy { s with store := l } := h

@[simp] theorem updPrinter_tidy (n : Prn) (f : Printer → Printer) (h : Tidy s) : Tidy (s.updPrinter n f) := h

@[simp] theorem updQueue_tidy (n : Prn) (f : List Job → List Job) (h : Tidy s) : Tidy (s.updQueue n f) := h

@[simp] theorem updPos_tidy (p : Pos) (f : PosRec → PosRec) (h : Tidy s) : Tidy (s.updPos p f) := h

@[simp] theorem updDay_tidy (f : DayCtl → DayCtl) (h : Tidy s) : Tidy (s.updDay f) := h

@[simp] theorem updEngine_tidy (f : Engine → Engine) (h : Tidy s) : Tidy (s.updEngine f) := h

@[simp] theorem offerLine_tidy (a : Account) (b : Option Nat) (l : PLine) (h : Tidy s) : Tidy (offerLine a b l s) := by
  simpa [Tidy] using h

@[simp] theorem clearJobMark_tidy (a : Account) (h : Tidy s) : Tidy (clearJobMark a s) := h

@[simp] theorem linePrinted_tidy (a : Account) (h : Tidy s) : Tidy (linePrinted a s) := by simpa [Tidy] using h

@[simp] theorem enterWait_tidy (n : Prn) (x : Prompt) (h : Tidy s) : Tidy (enterWait n x s) := by
  unfold enterWait
  split
  · exact h
  · exact setPrompt_tidy (s := State.updPrinter n _ s) _ n x h

@[simp] theorem startWaiting_tidy (n : Prn) (h : Tidy s) : Tidy (startWaiting n s) := by
  unfold startWaiting
  split
  · exact enterWait_tidy n _ h
  · exact h

@[simp] theorem becomeEmpty_tidy (n : Prn) (h : Tidy s) : Tidy (becomeEmpty n s) := startWaiting_tidy (s := State.updPrinter n _ s) n h

@[simp] theorem placeJob_tidy (n : Prn) (j : Job) (h : Tidy s) : Tidy (placeJob n j s) := by
  have placed : Tidy (setNoPrinter j.owner false (updAccount j.account (fun r => { r with jobMark := true })
      (s.updQueue n fun q => q ++ [j]))) := setNoPrinter_tidy _ _ h
  unfold placeJob
  dsimp only
  split
  · exact startWaiting_tidy (s := State.updPrinter n _ _) n placed
  · exact placed

@[simp] theorem attemptJob_tidy (p : Pos) (a : Account) (h : Tidy s) : Tidy (attemptJob p a s) := by
  unfold attemptJob
  split
  · dsimp only
    split
    · exact placeJob_tidy _ _ h
    · exact setNoPrinter_tidy p true h
  · exact h

@[simp] theorem jobForKept_tidy (p : Pos) (a : Account) (h : Tidy s) : Tidy (jobForKept p a s) := by
  unfold jobForKept
  split
  · exact h
  · exact attemptJob_tidy p a h

@[simp] theorem handOnLine_tidy (p : Pos) (line : Option (Account × Option Nat × PLine)) (h : Tidy s) :
    Tidy (handOnLine p line s) := by
  unfold handOnLine
  split
  · exact h
  split
  · exact jobForKept_tidy p _ (offerLine_tidy _ _ _ h)
  · exact offerLine_tidy _ _ _ h

@[simp] theorem applyPosting_tidy (late : Bool) (req : PostReq) (pl : Plan) (h : Tidy s) : Tidy (applyPosting late req pl s).1 :=
  handOnLine_tidy _ _ (applyLegs_tidy _ (append_tidy _ (placeMidnight_tidy .business h)))

@[simp] theorem offerLines_tidy (a : Account) (b seq : Nat) (ls : List BookLineItem) (h : Tidy s) :
    Tidy (offerLines a b seq ls s).1 := by
  induction ls generalizing s seq with
  | nil => exact h
  | cons l ls ih => exact ih _ (offerLine_tidy _ _ _ h)

@[simp] theorem removeHead_tidy (n : Prn) (h : Tidy s) : Tidy (removeHead n s) := by simpa [Tidy] using h

@[simp] theorem printResult_tidy (n : Prn) (w : PrintReason) (h : Tidy s) : Tidy (printResult n w s) := by
  unfold printResult
  split
  · exact h
  · exact report_tidy _ _ h

@[simp] theorem endJob_tidy (n : Prn) (w : PrintReason) (h : Tidy s) : Tidy (endJob n w s) := removeHead_tidy n (printResult_tidy n w h)

@[simp] theorem eject_tidy (n : Prn) (b : Bool) (w : Option Reason) (h : Tidy s) : Tidy (eject n b w s) := h

@[simp] theorem writeStripe_tidy (n : Prn) (w : Reason) (h : Tidy s) : Tidy (writeStripe n w s) := h

@[simp] theorem homePrinter_tidy (n : Prn) (h : Tidy s) : Tidy (homePrinter n s) := h

@[simp] theorem startLine_tidy (n : Prn) (l : PLine) (h : Tidy s) : Tidy (startLine n l s) := h

@[simp] theorem headTaken_tidy (n : Prn) (h : Tidy s) : Tidy (headTaken n s) := by
  unfold headTaken
  split
  case h_4 => exact withdrawPrompt_tidy n h
  all_goals exact h

@[simp] theorem removeAllJobs_tidy (h : Tidy s) : Tidy (removeAllJobs s) := by
  have told : Tidy (eachPrn (fun n s => if (rd s.queues n).isEmpty then s
      else (headTaken n s).updPrinter n fun r => { r with job := JobRec.initial }) s) :=
    List.foldlRecOn allPrn _ h fun t ht n _ => by
      dsimp only
      split
      · exact ht
      · exact headTaken_tidy n ht
  unfold removeAllJobs
  generalize eachPrn _ s = t at told
  exact told

@[simp] theorem moveQueue_tidy (n : Prn) (h : Tidy s) : Tidy (moveQueue n s) := by
  unfold moveQueue
  refine List.foldlRecOn (motive := Tidy) (rd s.queues n) _ (updQueue_tidy n (fun _ => []) h) fun t ht j _ => ?_
  unfold moveJob
  split
  · exact placeJob_tidy _ j ht
  · exact setNoPrinter_tidy _ true (clearJobMark_tidy _ ht)

@[simp] theorem faultPrinter_tidy (n : Prn) (c : OfflineCause) (h : Tidy s) : Tidy (faultPrinter n c s) := by
  have ended : Tidy (if (rd s.printers n).holds then endJob n .fault (if (rd s.printers n).state = .printing then
      (withdrawPrompt n s).updPrinter n fun r => { r with job := { r.job with faultDuringLine := true } } else withdrawPrompt n s)
      else withdrawPrompt n s) := by
    split
    · refine endJob_tidy n _ ?_
      split
      · exact withdrawPrompt_tidy n h
      · exact withdrawPrompt_tidy n h
    · exact withdrawPrompt_tidy n h
  exact report_tidy _ _ (moveQueue_tidy n (updPrinter_tidy n _ ended))

@[simp] theorem cancelHead_tidy (n : Prn) (h : Tidy s) : Tidy (cancelHead n s) := by
  unfold cancelHead
  split
  · exact becomeEmpty_tidy n (endJob_tidy n _ (withdrawPrompt_tidy n h))
  all_goals exact h

@[simp] theorem cancelQueued_tidy (n : Prn) (a : Account) (h : Tidy s) : Tidy (cancelQueued n a s) := by
  unfold cancelQueued
  dsimp only
  split
  · exact startWaiting_tidy (s := State.updPrinter n _ (clearJobMark a (State.updQueue n _ s))) n h
  · exact h

/-! ## Front bounds kept by the Transfer Engine -/

@[simp] theorem updBatch_tidy (f : Batch → Batch) (h : Tidy s) : Tidy (updBatch f s) := h

theorem offerBlock_tidy {t : State} (h : Tidy s) (ht : offerBlock s = some t) : Tidy t := by
  unfold offerBlock at ht
  split at ht
  · cases ht
  · next b _ =>
    split at ht
    · cases ht
    next room =>
    have queued (m : OutMsg) : Tidy (enqueue m s) :=
      enqueue_tidy_of_room m h (by simpa using fun c => room (Or.inr c))
    split at ht
    · split at ht
      · cases ht
      · cases ht
        exact queued _
    split at ht
    · split at ht
      · cases ht
      · cases ht
        refine updBatch_tidy _ ?_
        split
        · exact updEngine_tidy _ (updEngine_tidy _ (queued _))
        · exact updEngine_tidy _ (queued _)
    · cases ht

theorem offerBlocks_tidy (k : Nat) (h : Tidy s) : Tidy (offerBlocks k s) := by
  induction k generalizing s with
  | zero => exact h
  | succ k ih =>
    unfold offerBlocks
    split
    · next t ht => exact ih (offerBlock_tidy h ht)
    · exact h

@[simp] theorem offer_tidy (h : Tidy s) : Tidy (offer s) := offerBlocks_tidy _ h

@[simp] theorem reportComplete_tidy (b : Batch) (h : Tidy s) : Tidy (reportComplete b s) := report_tidy _ _ h

@[simp] theorem engineIdle_tidy (h : Tidy s) : Tidy (engineIdle s) := h

@[simp] theorem completeDay_tidy (b : Batch) (h : Tidy s) : Tidy (completeDay b s) :=
  updDay_tidy _ (engineIdle_tidy (reportComplete_tidy b h))

@[simp] theorem startBatch_tidy (k : BatchKind) (h : Tidy s) : Tidy (startBatch k s) := by
  rw [startBatch_eq]
  split
  · cases k with
    | day => exact completeDay_tidy (s := batchBegun .day s) _ h
    | forward => exact engineIdle_tidy (reportComplete_tidy (s := batchBegun .forward s) _ h)
  · exact offer_tidy (s := batchBegun k s) h

@[simp] theorem completeForward_tidy (b : Batch) (h : Tidy s) : Tidy (completeForward b s) := by
  have idle := engineIdle_tidy (reportComplete_tidy b h)
  unfold completeForward
  dsimp only
  split
  · exact startBatch_tidy .day idle
  split
  · exact startBatch_tidy .forward idle
  · exact idle

@[simp] theorem completeBatch_tidy (b : Batch) (h : Tidy s) : Tidy (completeBatch b s) := by
  unfold completeBatch
  split
  · exact completeDay_tidy b h
  · exact completeForward_tidy b h

@[simp] theorem startFromIdle_tidy (h : Tidy s) : Tidy (startFromIdle s) := by
  unfold startFromIdle
  split
  · split
    · exact startBatch_tidy .day h
    split
    · exact startBatch_tidy .forward h
    · exact h
  · exact h

@[simp] theorem resendAll_tidy (h : Tidy s) : Tidy (resendAll s) := by
  unfold resendAll
  split
  · exact h
  · refine offer_tidy ?_
    split
    · exact h
    · exact h

@[simp] theorem resumePaused_tidy (h : Tidy s) : Tidy (resumePaused s) := resendAll_tidy (s := updBatch _ (State.updEngine _ s)) h

@[simp] theorem ackThrough_tidy (b : Batch) (n : Nat) (h : Tidy s) : Tidy (ackThrough b n s) := by simpa [Tidy] using h

@[simp] theorem failBatch_tidy (c : FailCause) (h : Tidy s) : Tidy (failBatch c s) := by
  unfold failBatch
  split
  · exact h
  · next b _ =>
    have failed : Tidy (report Config.wholePart (.transferFailed b.kind b.number c b.acked)
      (s.updEngine fun e => { e with state := .failed, timer := none })) := report_tidy _ _ h
    dsimp only
    split
    · exact startBatch_tidy .day failed
    · exact failed

@[simp] theorem acceptAck_tidy (b : Batch) (n : Nat) (h : Tidy s) : Tidy (acceptAck b n s) := by
  have acked := ackThrough_tidy b n h
  unfold acceptAck
  dsimp only
  split
  · exact completeBatch_tidy _ acked
  split
  · refine offer_tidy ?_
    split
    · exact acked
    · exact acked
  · exact acked

@[simp] theorem refuseAck_tidy (b : Batch) (n : Nat) (h : Tidy s) : Tidy (refuseAck b n s) := by
  refine failBatch_tidy _ ?_
  split
  · exact ackThrough_tidy b _ h
  · exact h

@[simp] theorem takeAck_tidy (a : AckBody) (h : Tidy s) : Tidy (takeAck a s) := by
  unfold takeAck
  split
  · exact h
  split
  · split
    · exact acceptAck_tidy _ _ h
    · exact refuseAck_tidy _ _ h
  · exact h

@[simp] theorem engineLoss_tidy (h : Tidy s) : Tidy (engineLoss s) := by
  unfold engineLoss
  split
  · exact h
  · exact h

@[simp] theorem engineReturn_tidy (h : Tidy s) : Tidy (engineReturn s) := by
  unfold engineReturn
  split
  · exact resumePaused_tidy h
  · exact startFromIdle_tidy h
  · exact h
  · exact h

@[simp] theorem abandonBatch_tidy (h : Tidy s) : Tidy (abandonBatch s) := h

@[simp] theorem dayBatchAtClosing_tidy (h : Tidy s) : Tidy (dayBatchAtClosing s) := by
  unfold dayBatchAtClosing
  split
  · exact startBatch_tidy .day h
  split
  · split
    · exact startBatch_tidy .day (engineIdle_tidy h)
    · exact h
  · exact h

/-! ## Front bounds kept by the line and the day -/

@[simp] theorem startLineTimer_tidy (h : Tidy s) : Tidy (startLineTimer s) := h.updLine h.outbound

@[simp] theorem lineReturn_tidy (h : Tidy s) : Tidy (lineReturn s) :=
  markRow0All_tidy (noticeAll_tidy (by decide) (startLineTimer_tidy (h.updLine h.outbound)))

@[simp] theorem arrive_tidy (h : Tidy s) : Tidy (arrive s) := by
  have hunting := h.updLine (f := fun l => { l with framer := .hunting false }) h.outbound
  unfold arrive
  dsimp only
  split
  · exact startLineTimer_tidy hunting
  · exact lineReturn_tidy hunting

theorem enterCutoff_tidy {c : CutoffCause} {t : State} (h : Tidy s) (ht : enterCutoff c s = .ok t) : Tidy t := by
  unfold enterCutoff at ht
  split at ht
  · cases ht
  · cases ht
    exact setDay_tidy _ (updDay_tidy _ (writeControl_tidy _ (append_tidy _ (placeMidnight_tidy .control h))))

@[simp] theorem forceCloseEntries_tidy (bs : List EntryBody) (h : Tidy s) : Tidy (forceCloseEntries bs s).1 := by
  have entered := appendAll_tidy bs (placeMidnight_tidy .closing h)
  refine appendClose_tidy true .closed ?_
  split
  · exact appendBacklogs_tidy _ entered
  · exact entered

@[simp] theorem forceCloseEvent_tidy (rb : Option RetainedRec) (h : Tidy s) : Tidy (forceCloseEvent rb s).1 := by
  have cleared : Tidy (forceCleared s) :=
    removeAllJobs_tidy (signOffAll_tidy (updDay_tidy (fun d => { d with alarm := none }) h))
  have journaled : Tidy (forceJournaled s).1 := by
    unfold forceJournaled
    split
    · dsimp only
      exact writeControl_tidy _ cleared
    · exact forceCloseEntries_tidy _ cleared
  rw [forceCloseEvent_eq]
  exact setDay_tidy _ (writeRetained_tidy _ rb (abandonBatch_tidy (withStore_tidy [] journaled)))

theorem openStarted_tidy (b : OpenBody) (amounts : Vector (Vector Int 8) 16) (h : Tidy s) : Tidy (openStarted b amounts s) := by
  have shown : Tidy { s with screens := mapV s.screens openScreen } :=
    h.mapScreens fun _ k => ⟨k.rows, k.column, k.review⟩
  exact setDay_tidy .opened shown

@[simp] theorem openEvent_tidy (src : OpenSource) (b : OpenBody) (h : Tidy s) : Tidy (openEvent src b s) := by
  have cleared : Tidy (openCleared b s) := h.withClock h.time (Nat.zero_le _) h.unset
  rw [openEvent_eq]
  exact openStarted_tidy b _ (appendAll_tidy _ cleared)

@[simp] theorem deliverDay_tidy (f : Bool) (h : Tidy s) : Tidy (deliverDay f s) :=
  report_tidy _ _ (setDay_tidy _ (writeControl_tidy _ h))

end

end Sys2Proof.Machine

namespace Sys2Proof.Machine

/-! ## Lists of account records within the store's bounds -/

/-- Account records within the bounds of R125, no account twice. -/
structure RecordsFit (l : List AccountRec) : Prop where
  stored : (l.map fun r => r.lines.length).sum ≤ 512
  accounts : l.length ≤ 64
  nodup : (l.map (·.account)).Nodup
  lines : ∀ r ∈ l, r.lines.length ≤ 32

theorem storeBounded_iff (s : State) : StoreBounded s ↔ RecordsFit s.store :=
  ⟨fun ⟨stored, accounts, nodup, lines⟩ => ⟨stored, accounts, nodup, lines⟩, fun h => ⟨h.stored, h.accounts, h.nodup, h.lines⟩⟩

/-- An account has a record whose job mark is set (R124). -/
def Marked (l : List AccountRec) (a : Account) : Prop := ∃ r ∈ l, r.account = a ∧ r.jobMark = true

section
variable {l : List AccountRec} {a : Account}

theorem RecordsFit.nil : RecordsFit [] := ⟨Nat.zero_le _, Nat.zero_le _, List.nodup_nil, fun _ h => nomatch h⟩

theorem RecordsFit.map (h : RecordsFit l) {f : AccountRec → AccountRec} (account : ∀ r, (f r).account = r.account)
    (fewer : ∀ r, (f r).lines.length ≤ r.lines.length) : RecordsFit (l.map f) where
  stored := by
    rw [List.map_map]
    exact (List.sum_le_sum fun r _ => fewer r).trans h.stored
  accounts := by simpa using h.accounts
  nodup := by
    rw [List.map_map]
    exact (List.map_congr_left fun r _ => account r).symm ▸ h.nodup
  lines r hr := by
    obtain ⟨r, mem, rfl⟩ := List.mem_map.1 hr
    exact (fewer r).trans (h.lines r mem)

theorem RecordsFit.filter (h : RecordsFit l) (p : AccountRec → Bool) : RecordsFit (l.filter p) where
  stored := (List.Sublist.sum_le_sum (List.filter_sublist.map _) fun _ _ => Nat.zero_le _).trans h.stored
  accounts := (List.length_filter_le ..).trans h.accounts
  nodup := h.nodup.sublist (List.filter_sublist.map _)
  lines r hr := h.lines r (List.mem_of_mem_filter hr)

theorem marked_map {f : AccountRec → AccountRec} (account : ∀ r, (f r).account = r.account)
    (mark : ∀ r, (f r).jobMark = r.jobMark) : Marked (l.map f) a ↔ Marked l a := by
  simp [Marked, account, mark]

/-- The records that stay when empty unmarked ones go (R124). -/
theorem marked_dropped : Marked (l.filter fun r => r.jobMark || !r.lines.isEmpty) a ↔ Marked l a := by
  constructor
  · rintro ⟨r, mem, account, mark⟩
    exact ⟨r, List.mem_of_mem_filter mem, account, mark⟩
  · rintro ⟨r, mem, account, mark⟩
    exact ⟨r, List.mem_filter.2 ⟨mem, by simp [mark]⟩, account, mark⟩

theorem jobMarked_iff {s : State} (nodup : (s.store.map (·.account)).Nodup) : jobMarked a s = true ↔ Marked s.store a := by
  constructor
  · intro h
    unfold jobMarked at h
    cases found : findAccount a s with
    | none => simp [found] at h
    | some r => exact ⟨r, List.mem_of_find?_eq_some found, findAccount_account a s found, by simpa [found] using h⟩
  · rintro ⟨r, mem, account, mark⟩
    have found : findAccount a s = some r := by
      cases other : findAccount a s with
      | none => exact absurd (account ▸ List.mem_map_of_mem mem) (not_mem_accounts other)
      | some q =>
        have same := List.inj_on_of_nodup_map nodup (List.mem_of_find?_eq_some other) mem
          ((findAccount_account a s other).trans account.symm)
        rw [same]
    simp [jobMarked, found, mark]

end

/-! ## Jobs and their marks -/

/-- The jobs for an account in the four queues (R128). -/
def jobsFor (a : Account) (s : State) : Nat := (allPrn.flatMap fun n => rd s.queues n).countP fun j => j.account == a

/-- The store and the queues within their bounds, each marked account with one job among the queues and those on the way to one
(R125, R128, R131). -/
structure JobsHeld (onTheWay : List Job) (s : State) : Prop where
  fits : RecordsFit s.store
  queues : ∀ n, (rd s.queues n).length ≤ 8
  marked : ∀ a, jobsFor a s + onTheWay.countP (fun j => j.account == a) ≤ 1 ∧
    (0 < jobsFor a s + onTheWay.countP (fun j => j.account == a) ↔ Marked s.store a)

section
variable {s t : State} {js : List Job}

theorem jobsHeld_iff : JobsHeld [] s ↔ StoreBounded s ∧ OneJobEach s ∧ ∀ n, (rd s.queues n).length ≤ 8 := by
  have one (fits : RecordsFit s.store) (a : Account) : jobsFor a s = (if jobMarked a s then 1 else 0) ↔
      jobsFor a s ≤ 1 ∧ (0 < jobsFor a s ↔ Marked s.store a) := by
    rw [← jobMarked_iff fits.nodup]
    cases jobMarked a s <;> simp <;> omega
  constructor
  · intro h
    exact ⟨(storeBounded_iff s).2 h.fits, fun a => (one h.fits a).2 (h.marked a), h.queues⟩
  · rintro ⟨store, jobs, queues⟩
    have fits := (storeBounded_iff s).1 store
    exact ⟨fits, queues, fun a => (one fits a).1 (jobs a)⟩

theorem jobsFor_congr (h : t.queues = s.queues) (a : Account) : jobsFor a t = jobsFor a s := by
  unfold jobsFor
  rw [h]

theorem JobsHeld.of_eq (h : JobsHeld js s) (store : t.store = s.store) (queues : t.queues = s.queues) : JobsHeld js t := by
  refine ⟨store ▸ h.fits, queues ▸ h.queues, fun a => ?_⟩
  rw [jobsFor_congr queues, store]
  exact h.marked a

/-- The store changed without a change of what is marked (R124). -/
theorem JobsHeld.withStore (h : JobsHeld js s) (queues : t.queues = s.queues) (fits : RecordsFit t.store)
    (marks : ∀ a, Marked t.store a ↔ Marked s.store a) : JobsHeld js t := by
  refine ⟨fits, queues ▸ h.queues, fun a => ?_⟩
  rw [jobsFor_congr queues, marks]
  exact h.marked a

/-- How the jobs of an account change with one queue. -/
theorem jobsFor_updQueue (n : Prn) (f : List Job → List Job) (a : Account) (s : State) :
    jobsFor a (s.updQueue n f) + (rd s.queues n).countP (fun j => j.account == a) =
      jobsFor a s + (f (rd s.queues n)).countP (fun j => j.account == a) := by
  have sum (t : State) : jobsFor a t = (rd t.queues 0).countP (fun j => j.account == a) + ((rd t.queues 1).countP
      (fun j => j.account == a) + ((rd t.queues 2).countP (fun j => j.account == a) + (rd t.queues 3).countP
      (fun j => j.account == a))) := by
    have four : allPrn = [0, 1, 2, 3] := rfl
    simp [jobsFor, four]
  rw [sum, sum]
  simp only [State.updQueue_queues, rd_upd]
  fin_cases n <;> simp <;> omega

/-! ### Lines -/

theorem RecordsFit.addLine (h : RecordsFit s.store) {a : Account} (room : StoreHasRoom a s) (b : Option Nat) (l : PLine) :
    RecordsFit (Machine.addLine a b l s).store := by
  obtain ⟨stored, new, short⟩ := room
  refine ⟨(storedLines_addLine h.nodup b l).trans_le stored, ?_, nodup_addLine h.nodup b l, ?_⟩
  · unfold Machine.addLine
    cases found : findAccount a s with
    | none => simpa using new found
    | some r => simpa using h.accounts
  · unfold Machine.addLine
    cases found : findAccount a s with
    | none =>
      intro r hr
      rcases List.mem_append.1 hr with hr | hr
      · exact h.lines r hr
      · rw [List.mem_singleton.1 hr]
        exact (Nat.le_add_left 1 31 : [l].length ≤ 32)
    | some q =>
      intro r hr
      obtain ⟨r, mem, rfl⟩ := List.mem_map.1 hr
      dsimp only
      split
      · next same =>
        have one : r = q := List.inj_on_of_nodup_map h.nodup mem (List.mem_of_find?_eq_some found)
          ((by simpa using same : r.account = a).trans (findAccount_account a s found).symm)
        have := short q found
        simpa [one] using this
      · exact h.lines r mem

theorem marked_addLine (a : Account) (b : Option Nat) (l : PLine) (y : Account) :
    Marked (addLine a b l s).store y ↔ Marked s.store y := by
  unfold addLine
  cases findAccount a s with
  | none => simp [Marked, or_and_right, exists_or]
  | some r => exact marked_map (fun r => by split <;> rfl) (fun r => by split <;> rfl)

@[simp] theorem addLine_held (h : JobsHeld js s) {a : Account} (room : StoreHasRoom a s) (b : Option Nat) (l : PLine) :
    JobsHeld js (addLine a b l s) :=
  h.withStore (by simp) (h.fits.addLine room b l) fun y => marked_addLine a b l y

theorem updAccount_held (h : JobsHeld js s) (a : Account) {f : AccountRec → AccountRec} (account : ∀ r, (f r).account = r.account)
    (mark : ∀ r, (f r).jobMark = r.jobMark) (fewer : ∀ r, (f r).lines.length ≤ r.lines.length) :
    JobsHeld js (updAccount a f s) := by
  refine h.withStore rfl (h.fits.map (fun r => ?_) fun r => ?_) fun y => marked_map (fun r => ?_) fun r => ?_
  · split
    · exact account r
    · rfl
  · split
    · exact fewer r
    · exact le_rfl
  · split
    · exact account r
    · rfl
  · split
    · exact mark r
    · rfl

theorem dropEmpty_held (h : JobsHeld js s) : JobsHeld js (dropEmpty s) :=
  h.withStore rfl (h.fits.filter _) fun _ => marked_dropped

@[simp] theorem updPrinter_held (n : Prn) (f : Printer → Printer) (h : JobsHeld js s) : JobsHeld js (s.updPrinter n f) :=
  h.of_eq rfl rfl

@[simp] theorem withdrawPrompt_held (n : Prn) (h : JobsHeld js s) : JobsHeld js (withdrawPrompt n s) := h.of_eq rfl rfl

@[simp] theorem report_held (p : Nat) (r : Report) (h : JobsHeld js s) : JobsHeld js (report p r s) := h.of_eq (by simp) (by simp)

@[simp] theorem becomeEmpty_held (n : Prn) (h : JobsHeld js s) : JobsHeld js (becomeEmpty n s) := h.of_eq (by simp) (by simp)

@[simp] theorem changePrint_held (q : Nat) (x : PrintState) (h : JobsHeld js s) : JobsHeld js (changePrint q x s) :=
  h.of_eq (by simp) (by simp)

@[simp] theorem offerLine_held (a : Account) (b : Option Nat) (l : PLine) (h : JobsHeld js s) : JobsHeld js (offerLine a b l s) := by
  unfold offerLine
  split
  · next room => exact changePrint_held _ _ (addLine_held h ((storeKeeps_iff a s).1 room) b l)
  · exact changePrint_held _ _ h

@[simp] theorem linePrinted_held (a : Account) (h : JobsHeld js s) : JobsHeld js (linePrinted a s) := by
  unfold linePrinted
  split
  · exact h
  · exact dropEmpty_held (updAccount_held (changePrint_held _ _ h) a (fun _ => rfl) (fun _ => rfl) fun r => by simp)

/-! ### Jobs placed and removed -/

theorem marked_other {l : List AccountRec} {a y : Account} {f : AccountRec → AccountRec} (account : ∀ r, (f r).account = r.account)
    (other : y ≠ a) : Marked (l.map fun r => if r.account == a then f r else r) y ↔ Marked l y := by
  constructor
  · rintro ⟨_, mem, named, mark⟩
    obtain ⟨r, stays, rfl⟩ := List.mem_map.1 mem
    by_cases this : r.account = a
    · rw [if_pos (by simpa using this), account] at named
      exact absurd (named.symm.trans this) other
    · rw [if_neg (by simpa using this)] at named mark
      exact ⟨r, stays, named, mark⟩
  · rintro ⟨r, mem, named, mark⟩
    refine ⟨r, List.mem_map.2 ⟨r, mem, if_neg ?_⟩, named, mark⟩
    simpa [named] using other

/-- A change of the jobs and of the mark of one account alone. -/
theorem JobsHeld.changed {ks : List Job} (h : JobsHeld js s) (a : Account) (fits : RecordsFit t.store)
    (queues : ∀ n, (rd t.queues n).length ≤ 8)
    (others : ∀ y, y ≠ a → (Marked t.store y ↔ Marked s.store y) ∧
      jobsFor y t + ks.countP (fun j => j.account == y) = jobsFor y s + js.countP fun j => j.account == y)
    (this : jobsFor a t + ks.countP (fun j => j.account == a) ≤ 1 ∧
      (0 < jobsFor a t + ks.countP (fun j => j.account == a) ↔ Marked t.store a)) : JobsHeld ks t := by
  refine ⟨fits, queues, fun y => ?_⟩
  by_cases same : y = a
  · rw [same]
    exact this
  · obtain ⟨marks, counts⟩ := others y same
    rw [marks, counts]
    exact h.marked y

theorem JobsHeld.queuesWith (h : JobsHeld js s) {n : Prn} {f : List Job → List Job} (queues : t.queues = upd s.queues n f)
    (room : (f (rd s.queues n)).length ≤ 8) (m : Prn) : (rd t.queues m).length ≤ 8 := by
  rw [queues, rd_upd]
  split
  · exact room
  · exact h.queues m

/-- How the jobs of an account change with one queue. -/
theorem jobsFor_upd {n : Prn} {f : List Job → List Job} (queues : t.queues = upd s.queues n f) (a : Account) :
    jobsFor a t + (rd s.queues n).countP (fun j => j.account == a) =
      jobsFor a s + (f (rd s.queues n)).countP (fun j => j.account == a) := by
  rw [jobsFor_congr (s := s.updQueue n f) queues]
  exact jobsFor_updQueue n f a s

theorem countP_le_jobsFor (n : Prn) (a : Account) (s : State) :
    (rd s.queues n).countP (fun j => j.account == a) ≤ jobsFor a s := by
  have := jobsFor_updQueue n (fun _ => []) a s
  rw [List.countP_nil] at this
  omega

theorem placeJob_store (n : Prn) (j : Job) : (placeJob n j s).store =
    s.store.map fun r => if r.account == j.account then { r with jobMark := true } else r := by
  unfold placeJob
  dsimp only
  split <;> simp

theorem placeJob_queues (n : Prn) (j : Job) : (placeJob n j s).queues = upd s.queues n (· ++ [j]) := by
  unfold placeJob
  dsimp only
  split <;> simp

/-- A job placed: one that was on its way, or a new one for an account without (R129, R131). -/
theorem placeJob_held (n : Prn) (j : Job) (h : JobsHeld js s) (room : takesJob s n = true) {ks : List Job}
    (others : ∀ y, y ≠ j.account → ks.countP (fun i => i.account == y) = js.countP fun i => i.account == y)
    (none : jobsFor j.account s + ks.countP (fun i => i.account == j.account) = 0)
    (known : ∃ r ∈ s.store, r.account = j.account) : JobsHeld ks (placeJob n j s) := by
  have few := ((takesJob_iff s n).1 room).2
  have jobs := jobsFor_upd (placeJob_queues (s := s) n j)
  refine h.changed j.account ?_ (h.queuesWith (placeJob_queues n j) (by simpa using few)) (fun y hy => ⟨?_, ?_⟩) ?_
  · rw [placeJob_store]
    exact h.fits.map (fun r => by split <;> rfl) fun r => by split <;> exact le_rfl
  · rw [placeJob_store]
    exact marked_other (fun _ => rfl) hy
  · have one := jobs y
    have this : ([j].countP fun i => i.account == y) = 0 := by simp [Ne.symm hy]
    rw [List.countP_append] at one
    rw [others y hy]
    omega
  · have one := jobs j.account
    have this : ([j].countP fun i => i.account == j.account) = 1 := by simp
    have marked : Marked (placeJob n j s).store j.account := by
      obtain ⟨r, mem, account⟩ := known
      rw [placeJob_store]
      exact ⟨_, List.mem_map_of_mem mem, by simp [account], by simp [account]⟩
    rw [List.countP_append] at one
    simp only [marked, iff_true]
    omega

/-- A store in which an account has lost its mark (R124, R128). -/
theorem clearJobMark_fits (a : Account) (h : RecordsFit s.store) : RecordsFit (clearJobMark a s).store := by
  refine RecordsFit.filter (h.map (fun r => ?_) fun r => ?_) _
  · split <;> rfl
  · split <;> exact le_rfl

theorem marked_clearJobMark (a y : Account) : Marked (clearJobMark a s).store y ↔ y ≠ a ∧ Marked s.store y := by
  refine marked_dropped.trans ?_
  by_cases same : y = a
  · subst same
    refine ⟨?_, fun h => absurd rfl h.1⟩
    rintro ⟨_, mem, named, mark⟩
    obtain ⟨r, mem, rfl⟩ := List.mem_map.1 mem
    by_cases this : r.account = y
    · simp [this] at mark
    · simp [this] at named
  · exact (marked_other (f := fun r => { r with jobMark := false }) (fun _ => rfl) same).trans (by simp [same])

/-- The one job of an account gone, and its mark with it (R128). -/
theorem clearJobMark_held (h : JobsHeld js s) (a : Account) {ks : List Job} (store : t.store = (clearJobMark a s).store)
    (queues : ∀ n, (rd t.queues n).length ≤ 8)
    (others : ∀ y, y ≠ a → jobsFor y t + ks.countP (fun j => j.account == y) = jobsFor y s + js.countP fun j => j.account == y)
    (gone : jobsFor a t + ks.countP (fun j => j.account == a) = 0) : JobsHeld ks t := by
  refine h.changed a (store ▸ clearJobMark_fits a h.fits) queues (fun y hy => ⟨?_, others y hy⟩) ?_
  · rw [store, marked_clearJobMark]
    simp [hy]
  · rw [gone, store, marked_clearJobMark]
    simp

@[simp] theorem removeHead_held (n : Prn) (h : JobsHeld js s) : JobsHeld js (removeHead n s) := by
  unfold removeHead
  cases hq : rd s.queues n with
  | nil => exact h
  | cons j rest =>
    dsimp only
    generalize hu : clearJobMark j.account _ = u
    have queues : u.queues = upd s.queues n fun _ => rest := by rw [← hu]; rfl
    have store : u.store = (clearJobMark j.account s).store := by rw [← hu]; rfl
    have long := h.queues n
    have jobs (y : Account) := jobsFor_upd queues y
    simp only [hq] at long jobs
    refine clearJobMark_held h j.account store (h.queuesWith queues (by simp at long; omega)) (fun y hy => ?_) ?_
    · have one := jobs y
      rw [List.countP_cons_of_neg (by simpa using Ne.symm hy)] at one
      omega
    · have one := jobs j.account
      have most := (h.marked j.account).1
      have here := countP_le_jobsFor n j.account s
      rw [hq, List.countP_cons_of_pos (by simp)] at here
      rw [List.countP_cons_of_pos (by simp)] at one
      omega

/-- The jobs of an account taken out of the queue that holds one (R130). -/
@[simp] theorem cancelQueued_held {n : Prn} {a : Account} (h : JobsHeld js s) (here : ∃ j ∈ rd s.queues n, j.account = a) :
    JobsHeld js (cancelQueued n a s) := by
  have queues : (cancelQueued n a s).queues = upd s.queues n (·.filter fun j => j.account != a) := by
    unfold cancelQueued
    dsimp only
    split <;> simp
  have store : (cancelQueued n a s).store = (clearJobMark a s).store := by
    unfold cancelQueued
    dsimp only
    split <;> simp [clearJobMark]
  have jobs (y : Account) := jobsFor_upd queues y
  refine clearJobMark_held h a store (h.queuesWith queues ((List.length_filter_le ..).trans (h.queues n))) (fun y hy => ?_) ?_
  · have one := jobs y
    rw [List.countP_filter] at one
    have same : (rd s.queues n).countP (fun j => j.account == y && j.account != a) =
        (rd s.queues n).countP fun j => j.account == y :=
      List.countP_congr fun j _ => by
        by_cases named : j.account = y
        · simp [named, hy]
        · simp [named]
    omega
  · have one := jobs a
    rw [List.countP_filter] at one
    have none : (rd s.queues n).countP (fun j => j.account == a && j.account != a) = 0 := by simp
    have some : 0 < (rd s.queues n).countP fun j => j.account == a :=
      List.countP_pos_iff.2 (by simpa using here)
    have most := (h.marked a).1
    have least := countP_le_jobsFor n a s
    omega

@[simp] theorem jobsHeld_emptied (fits : RecordsFit t.store) (queues : ∀ n, rd t.queues n = []) (marks : ∀ a, ¬Marked t.store a) :
    JobsHeld [] t := by
  refine ⟨fits, fun n => by simp [queues n], fun a => ?_⟩
  have none : jobsFor a t = 0 := by simp [jobsFor, queues]
  simp [none, marks a]

theorem removeAllJobs_queues (n : Prn) : rd (removeAllJobs s).queues n = [] := by simp [removeAllJobs]

@[simp] theorem removeAllJobs_held (h : JobsHeld js s) : JobsHeld [] (removeAllJobs s) := by
  have store : (removeAllJobs s).store =
      (s.store.map fun r => { r with jobMark := false }).filter fun r => r.jobMark || !r.lines.isEmpty := by
    unfold removeAllJobs
    generalize hu : eachPrn _ s = u
    have : u.store = s.store := by
      rw [← hu]
      exact foldl_keeps State.store _ (by intros; dsimp only; split <;> simp) allPrn s
    simp [this]
  refine jobsHeld_emptied ?_ removeAllJobs_queues fun a => ?_
  · rw [store]
    exact (h.fits.map (f := fun r => { r with jobMark := false }) (fun _ => rfl) fun _ => le_rfl).filter _
  · rw [store, marked_dropped]
    rintro ⟨_, mem, -, mark⟩
    obtain ⟨r, -, rfl⟩ := List.mem_map.1 mem
    cases mark

/-! ### Jobs attempted and moved -/

@[simp] theorem setNoPrinter_held (p : Pos) (b : Bool) (h : JobsHeld js s) : JobsHeld js (setNoPrinter p b s) := h.of_eq rfl rfl

/-- A job attempted for an account of the store without one (R129). -/
theorem attemptJob_held (p : Pos) {a : Account} (h : JobsHeld [] s) (unmarked : jobMarked a s = false)
    (known : ∃ r ∈ s.store, r.account = a) : JobsHeld [] (attemptJob p a s) := by
  have none : jobsFor a s = 0 := by
    have not : ¬Marked s.store a := fun m => by
      rw [(jobMarked_iff h.fits.nodup).2 m] at unmarked
      cases unmarked
    have := (h.marked a).2
    simp only [not, iff_false] at this
    omega
  unfold attemptJob
  split
  · dsimp only
    split
    · next n hn =>
      have room : takesJob s n = true := by
        rcases (Option.orElse_eq_some _ _ _).1 hn with home | ⟨-, alt⟩
        · exact (Option.filter_eq_some_iff.1 home).2
        · exact (Option.filter_eq_some_iff.1 alt).2
      exact placeJob_held n ⟨a, p⟩ h room (fun _ _ => rfl) none known
    · exact setNoPrinter_held p true h
  · exact h

theorem jobForKept_held (p : Pos) {a : Account} (h : JobsHeld [] s) (known : ∃ r ∈ s.store, r.account = a) :
    JobsHeld [] (jobForKept p a s) := by
  unfold jobForKept
  split
  · exact h
  · next unmarked => exact attemptJob_held p h (by simpa using unmarked) known

/-- A job on its way moved to another printer, or dropped (R131). -/
theorem moveJob_held (n : Prn) (j : Job) (h : JobsHeld (j :: js) s) : JobsHeld js (moveJob n s j) := by
  have one := h.marked j.account
  rw [List.countP_cons_of_pos (by simp)] at one
  have others (y : Account) (hy : y ≠ j.account) :
      js.countP (fun i => i.account == y) = (j :: js).countP fun i => i.account == y :=
    (List.countP_cons_of_neg (by simpa using Ne.symm hy)).symm
  have none : jobsFor j.account s + js.countP (fun i => i.account == j.account) = 0 := by omega
  unfold moveJob
  split
  · next m hm =>
    have room := (Option.filter_eq_some_iff.1 hm).2
    simp only [Bool.and_eq_true] at room
    obtain ⟨r, mem, named, -⟩ := one.2.1 (by omega)
    exact placeJob_held m j h room.2 others none ⟨r, mem, named⟩
  · refine setNoPrinter_held _ true (clearJobMark_held h j.account rfl h.queues (fun y hy => ?_) none)
    rw [others y hy]
    rfl

@[simp] theorem moveQueue_held (n : Prn) (h : JobsHeld [] s) : JobsHeld [] (moveQueue n s) := by
  have start : JobsHeld (rd s.queues n) (s.updQueue n fun _ => []) := by
    refine ⟨h.fits, h.queuesWith (f := fun _ => []) rfl (Nat.zero_le _), fun a => ?_⟩
    have jobs := jobsFor_updQueue n (fun _ => []) a s
    have one := h.marked a
    rw [List.countP_nil] at jobs one
    rw [jobs]
    exact one
  have moved (js : List Job) (t : State) (ht : JobsHeld js t) : JobsHeld [] (js.foldl (moveJob n) t) := by
    induction js generalizing t with
    | nil => exact ht
    | cons j js ih => exact ih _ (moveJob_held n j ht)
  exact moved _ _ start

@[simp] theorem printResult_held (n : Prn) (w : PrintReason) (h : JobsHeld js s) : JobsHeld js (printResult n w s) :=
  h.of_eq (by simp) (by simp)

@[simp] theorem endJob_held (n : Prn) (w : PrintReason) (h : JobsHeld js s) : JobsHeld js (endJob n w s) :=
  removeHead_held n (printResult_held n w h)

@[simp] theorem faultPrinter_held (n : Prn) (c : OfflineCause) (h : JobsHeld [] s) : JobsHeld [] (faultPrinter n c s) := by
  have ended : JobsHeld [] (if (rd s.printers n).holds then endJob n .fault (if (rd s.printers n).state = .printing then
      (withdrawPrompt n s).updPrinter n fun r => { r with job := { r.job with faultDuringLine := true } } else withdrawPrompt n s)
      else withdrawPrompt n s) := by
    split
    · refine endJob_held n _ ?_
      split
      · exact updPrinter_held n _ (withdrawPrompt_held n h)
      · exact withdrawPrompt_held n h
    · exact withdrawPrompt_held n h
  exact report_held _ _ (moveQueue_held n (updPrinter_held n _ ended))

@[simp] theorem cancelHead_held (n : Prn) (h : JobsHeld js s) : JobsHeld js (cancelHead n s) := by
  unfold cancelHead
  split
  · exact becomeEmpty_held n (endJob_held n _ (withdrawPrompt_held n h))
  all_goals exact h.of_eq rfl rfl

end

end Sys2Proof.Machine

namespace Sys2Proof.Machine

/-! ## What entries take of the journal's room -/

/-- A control record that checks good leaves room for the CLOSE entry. -/
def GoodFits (m : JournalMem) : Prop := m.control.good = true → ClosingFits m

/-- The recorded day is OPEN or CUTOFF. -/
def RecordedOpen (m : JournalMem) : Prop := m.control.fields.day = some .opened ∨ m.control.fields.day = some .cutoff

/-- The journal goes on from s by entries of at most some slots in the day as recorded; if the room for the CLOSE entry is not
touched, no cut of its writes leaves a good control record without it (R45). -/
structure Grows (k : Nat) (s t : State) : Prop where
  used : slotsUsed t ≤ slotsUsed s + k
  day : t.nv.control.fields.day = s.nv.control.fields.day
  cuts : (RecordedOpen s.nv → slotsUsed s + k ≤ 16383) → CutsHold GoodFits s → CutsHold GoodFits t

section
variable {j k : Nat} {s t u : State}

theorem Grows.quiet (q : Quiet s t) : Grows 0 s t :=
  ⟨by unfold slotsUsed; rw [q.1]; exact le_rfl, by rw [q.1], fun _ h => h.quiet q⟩

theorem Grows.refl (s : State) : Grows 0 s s := .quiet (Quiet.rfl s)

theorem Grows.trans (h : Grows j s t) (k' : Grows k t u) : Grows (j + k) s u where
  used := k'.used.trans (by have := h.used; omega)
  day := k'.day.trans h.day
  cuts room cuts := by
    have used := h.used
    refine k'.cuts (fun rec_ => ?_) (h.cuts (fun rec_ => ?_) cuts)
    · unfold RecordedOpen at rec_
      rw [h.day] at rec_
      have := room rec_
      omega
    · have := room rec_
      omega

theorem Grows.mono (h : Grows j s t) (le : j ≤ k) : Grows k s t :=
  ⟨h.used.trans (by omega), h.day, fun room => h.cuts fun rec_ => by have := room rec_; omega⟩

theorem Grows.andQuiet (h : Grows k s t) (q : Quiet t u) : Grows k s u := (h.trans (.quiet q)).mono (by omega)

theorem Grows.write {w : NvWrite} (control : (s.nv.write w).control = s.nv.control) : Grows 0 s (nvWrite w s) := by
  refine ⟨?_, ?_, fun _ cuts => cuts.write ?_⟩
  · exact (congrArg (fun c : ControlRec => c.fields.slotsUsed) control).le
  · exact congrArg (fun c : ControlRec => c.fields.day) control
  · have now := cuts.now
    unfold GoodFits ClosingFits at now ⊢
    rw [control]
    exact now

/-- The control record rewritten in the day as recorded. -/
theorem Grows.control {c : ControlRec} (used : c.fields.slotsUsed ≤ slotsUsed s + k)
    (day : c.fields.day = s.nv.control.fields.day) : Grows k s (nvWrite (.control c) s) :=
  ⟨used, day, fun room cuts => cuts.write fun _ (rec_ : c.fields.day = _ ∨ c.fields.day = _) => by
    rw [day] at rec_
    exact used.trans (room rec_)⟩

theorem appendWith_grows (b : EntryBody) {f : ControlFields → ControlFields} (used : ∀ c, (f c).slotsUsed = c.slotsUsed)
    (day : ∀ c, (f c).day = c.day) (s : State) : Grows (kindSlots b) s (appendWith f b s) := by
  have slots : Grows 0 s (nvWrite (.slots (makeEntry b s)) s) := .write rfl
  have control : Grows (kindSlots b) (nvWrite (.slots (makeEntry b s)) s) (writeControl (fun c => f { c with
      slotsUsed := c.slotsUsed + kindSlots b, entryCount := c.entryCount + 1 }) (nvWrite (.slots (makeEntry b s)) s)) :=
    .control (used _).le (day _)
  have entered := (slots.trans control).mono (k := kindSlots b) (by omega)
  unfold appendWith
  dsimp only
  refine Grows.andQuiet ?_ (lowSpaceCheck_quiet _)
  split
  · exact entered.andQuiet ⟨rfl, rfl, rfl, rfl⟩
  · exact entered

theorem append_grows (b : EntryBody) (s : State) : Grows (kindSlots b) s (append b s) :=
  appendWith_grows b (fun _ => rfl) (fun _ => rfl) s

theorem appendAll_grows (bs : List EntryBody) (s : State) : Grows (bs.map kindSlots).sum s (appendAll bs s) := by
  unfold appendAll
  induction bs generalizing s with
  | nil => exact .refl s
  | cons b bs ih => exact (append_grows b s).trans (ih _)

/-- The slots a request's MIDNIGHT takes, if one goes ahead of it (R47). -/
def midnightSlots (c : CapClass) (s : State) : Nat := if midnightAhead c s then 1 else 0

theorem placeMidnight_grows (c : CapClass) (s : State) : Grows (midnightSlots c s) s (placeMidnight c s) := by
  unfold placeMidnight midnightSlots
  split
  · exact (append_grows (.midnight s.clock.midnights) s).andQuiet ⟨rfl, rfl, rfl, rfl⟩
  · exact .refl s

theorem fits_iff (c : CapClass) (n : Nat) (s : State) : fits c n s = true ↔ slotsUsed s + n + midnightSlots c s ≤ c.limit := by
  simp [fits, midnightSlots]

theorem appendBacklog_grows (b : Account × List Nat) (s : State) : Grows 1 s (appendBacklog s b) := by
  have slots : Grows 0 s (nvWrite (.slots (makeEntry (.backlog b.1 b.2) s)) s) := .write rfl
  unfold appendBacklog
  dsimp only
  refine Grows.andQuiet ((slots.trans (k := 1) ?_).mono (by omega)) (lowSpaceCheck_quiet _)
  exact ⟨le_rfl, rfl, fun room cuts => cuts.write fun _ rec_ => room rec_⟩

theorem appendBacklogs_grows (bs : List (Account × List Nat)) (s : State) : Grows bs.length s (bs.foldl appendBacklog s) := by
  induction bs generalizing s with
  | nil => exact .refl s
  | cons b bs ih => exact ((appendBacklog_grows b s).trans (ih _)).mono (by simp; omega)

theorem changePrint_grows (q : Nat) (x : PrintState) (s : State) : Grows 0 s (changePrint q x s) := by
  unfold changePrint
  split
  · split
    · exact .write rfl
    · exact .refl s
  · exact .refl s

theorem changeForward_grows (q : Nat) (s : State) : Grows 0 s (changeForward q s) := by
  unfold changeForward
  split
  · next e _ =>
    split
    · exact (Grows.write (w := .states (q - 1) e.print .forwarded) rfl).andQuiet ⟨rfl, rfl, rfl, rfl⟩
    · exact .refl s
  · exact .refl s

theorem setDelivered_grows (n : Nat) (s : State) : Grows 0 s (setDelivered n s) := by
  unfold setDelivered
  dsimp only
  split
  · exact .control le_rfl rfl
  · exact .refl s

theorem writeRetained_grows (c : RetainedCause) (rb : Option RetainedRec) (s : State) : Grows 0 s (writeRetained c rb s) := by
  have retained (r : RetainedRec) : Grows 0 s (nvWrite (.retained r) s) := .write rfl
  unfold writeRetained
  dsimp only
  split
  · exact (retained _).andQuiet ⟨rfl, rfl, rfl, rfl⟩
  · next found =>
    split
    · exact (retained _).andQuiet ⟨rfl, rfl, rfl, rfl⟩
    · have marked := (retained found).andQuiet (u := (nvWrite (.retained found) s).updDay fun d => { d with retainedBad := true })
        ⟨rfl, rfl, rfl, rfl⟩
      exact (marked.trans (.write rfl)).andQuiet (report_quiet ..)

/-! ### The entries of requests -/

theorem captureOne_grows (b : BalKind) (l : Option Pos) (p : Pos) (s : State) : Grows 4 s (captureOne b l p s) :=
  (append_grows (.capture ⟨p, b, nextCapture (rd s.drawers p), l, (rd s.drawers p).lines⟩) s).andQuiet
    (.trans (t := State.updDrawer p _ _) ⟨rfl, rfl, rfl, rfl⟩ (report_quiet ..))

theorem captures_grows (b : BalKind) (l : Option Pos) (ps : List Pos) (s : State) :
    Grows (4 * ps.length) s (ps.foldl (fun s q => captureOne b l q s) s) := by
  induction ps generalizing s with
  | nil => exact .refl s
  | cons p ps ih => exact ((captureOne_grows b l p s).trans (ih _)).mono (by simp; omega)

theorem completeGroup_grows (l : Pos) (g : GroupRec) (s : State) : Grows 1 s (completeGroup l g s) :=
  (append_grows (.groupEnd l g.kind g.abandoned) s).andQuiet
    (.trans (t := { append _ s with groups := _ }) ⟨rfl, rfl, rfl, rfl⟩ (report_quiet ..))

theorem leaveGroup_grows (p : Pos) (l : Option Pos) (ab : Bool) (s : State) :
    Grows (if emptiesGroup p l s then 1 else 0) s (leaveGroup p l ab s) := by
  rcases leaveGroup_cases p l ab s with ⟨-, same⟩ | ⟨l, g, rfl, -, left⟩
  · rw [same]
    exact (Grows.refl s).mono (Nat.zero_le _)
  · rw [left]
    split
    · exact completeGroup_grows _ _ s
    · exact .quiet ⟨rfl, rfl, rfl, rfl⟩

theorem groups_quiet (g : Vector (Option GroupRec) 16) (s : State) : Quiet s { s with groups := g } := ⟨rfl, rfl, rfl, rfl⟩

theorem groupBalanceEvent_grows (b : BalKind) (l : Pos) (s : State) :
    Grows (groupSlots s l + midnightSlots .control s) s (groupBalanceEvent b l s) := by
  have begun (g off on : List Pos) := (((placeMidnight_grows .control s).trans (append_grows (.groupBegin l b g off) _)).trans
    (captures_grows b (some l) g _)).andQuiet (beginBalances_quiet b (some l) on _)
  unfold groupBalanceEvent groupSlots
  dsimp only
  have last : ((groupOf s.tables.positions l).filter fun q => (rd s.posns q).state != .signedOff).isEmpty =
      (groupOf s.tables.positions l).all fun q => (rd s.posns q).state == .signedOff := by
    rw [Bool.eq_iff_iff]
    simp
  rw [last]
  split
  · exact ((begun _ _ _).trans (completeGroup_grows _ _ _)).mono (by simp only [kindSlots]; omega)
  · exact ((begun _ _ _).andQuiet (groups_quiet ..)).mono (by simp only [kindSlots]; omega)

theorem singleBalance_grows (b : BalKind) (p : Pos) (s : State) : Grows (4 + midnightSlots .control s) s (singleBalance b p s) :=
  (((placeMidnight_grows .control s).trans (captureOne_grows b none p _)).andQuiet (beginBalance_quiet ..)).mono (by omega)

theorem emptiesGroup_same (p : Pos) (l : Option Pos) (h : t.groups = s.groups) : emptiesGroup p l t = emptiesGroup p l s := by
  unfold emptiesGroup
  rw [h]

theorem leaveBalance_quiet (p : Pos) (b : BalKind) (form : Option (Fin 32)) (s : State) : Quiet s (leaveBalance p b form s) := by
  cases b <;> simp [Quiet, leaveBalance]

theorem takeDeclaration_grows (p : Pos) (c : BalCtx) (r : DeclRec) (s : State) :
    Grows (4 + (if emptiesGroup p c.leader s then 1 else 0) + midnightSlots .control s) s (takeDeclaration p c r s) := by
  obtain ⟨u, hu⟩ : ∃ u, u = leaveBalance p r.kind c.returnForm
      (applyLegs (declLegs r) (append (.declaration r) (placeMidnight .control s))) := ⟨_, rfl⟩
  have entered : Grows (midnightSlots .control s + 4) s u :=
    ((placeMidnight_grows .control s).trans (append_grows (.declaration r) _)).andQuiet
      (by rw [hu]; exact (applyLegs_quiet ..).trans (leaveBalance_quiet ..))
  have groups : u.groups = s.groups := by simp [hu]
  rw [takeDeclaration_eq, ← hu, ← emptiesGroup_same p c.leader groups]
  exact ((entered.trans (leaveGroup_grows p c.leader false u)).andQuiet (report_quiet ..)).mono (by omega)

theorem abandonBalance_grows (p : Pos) (c : BalCtx) (s : State) :
    Grows (1 + (if emptiesGroup p c.leader s then 1 else 0) + midnightSlots .control s) s (abandonBalance p c s) := by
  obtain ⟨u, hu⟩ : ∃ u, u = signOffPos p (append (.abandoned p c.kind c.number .forceSignOff) (placeMidnight .control s)) :=
    ⟨_, rfl⟩
  have entered : Grows (midnightSlots .control s + 1) s u :=
    ((placeMidnight_grows .control s).trans (append_grows (.abandoned p c.kind c.number .forceSignOff)
      (placeMidnight .control s))).andQuiet (by rw [hu]; simp [Quiet])
  have groups : u.groups = s.groups := by simp [hu]
  have last : abandonBalance p c s = leaveGroup p c.leader true u := by rw [hu]; rfl
  rw [last, ← emptiesGroup_same p c.leader groups]
  exact (entered.trans (leaveGroup_grows p c.leader true u)).mono (by omega)

theorem offerLine_grows (a : Account) (b : Option Nat) (l : PLine) (s : State) : Grows 0 s (offerLine a b l s) := by
  unfold offerLine
  split
  · exact ((Grows.quiet (by simp [Quiet])).trans (changePrint_grows _ _ _)).mono (by omega)
  · exact changePrint_grows _ _ s

theorem handOnLine_grows (p : Pos) (line : Option (Account × Option Nat × PLine)) (s : State) :
    Grows 0 s (handOnLine p line s) := by
  unfold handOnLine
  split
  · exact .refl s
  split
  · exact (offerLine_grows _ _ _ s).andQuiet (jobForKept_quiet ..)
  · exact offerLine_grows _ _ _ s

theorem applyPosting_grows (late : Bool) (req : PostReq) (pl : Plan) (s : State) :
    Grows (2 + midnightSlots .business s) s (applyPosting late req pl s).1 := by
  have booked (r : PostingRec) : Grows (midnightSlots .business s + 2) s
      (applyLegs r.legs (append (.posting r) (placeMidnight .business s))) :=
    ((placeMidnight_grows .business s).trans (append_grows (.posting r) _)).andQuiet (applyLegs_quiet ..)
  exact ((booked _).trans (handOnLine_grows pl.pos _ _)).mono (by omega)

theorem offerLines_grows (a : Account) (b seq : Nat) (ls : List BookLineItem) (s : State) :
    Grows 0 s (offerLines a b seq ls s).1 := by
  induction ls generalizing s seq with
  | nil => exact .refl s
  | cons l ls ih => exact ((offerLine_grows _ _ _ s).trans (ih _ _)).mono (by omega)

theorem linePrinted_grows (a : Account) (s : State) : Grows 0 s (linePrinted a s) := by
  unfold linePrinted
  split
  · exact .refl s
  · exact (changePrint_grows _ _ s).andQuiet ⟨rfl, rfl, rfl, rfl⟩

theorem ackBlock_grows (b : BatchKind) (n : Nat) (s : State) : Grows 0 s (ackBlock b n s) := by
  unfold ackBlock
  split
  · exact .refl s
  · next f _ =>
    have forwarded (xs : List (Nat × Entry)) : Grows 0 s (xs.foldl (fun s x => changeForward x.2.seq s) s) :=
      List.foldlRecOn (motive := Grows 0 s) xs _ (.refl s) fun t ht x _ =>
        (ht.trans (changeForward_grows x.2.seq t)).mono (by omega)
    cases b with
    | day => exact (setDelivered_grows (f.last + 1) s).andQuiet ⟨rfl, rfl, rfl, rfl⟩
    | forward => exact (forwarded (flightEntries .forward f s)).andQuiet ⟨rfl, rfl, rfl, rfl⟩

theorem ackThrough_grows (b : Batch) (n : Nat) (s : State) : Grows 0 s (ackThrough b n s) :=
  (List.foldlRecOn (motive := Grows 0 s) _ _ (.refl s) fun t ht i _ =>
    (ht.trans (ackBlock_grows b.kind i t)).mono (by omega)).andQuiet ⟨rfl, rfl, rfl, rfl⟩

theorem refuseAck_grows (b : Batch) (n : Nat) (s : State) : Grows 0 s (refuseAck b n s) := by
  have acked : Grows 0 s (if b.acked < n - 1 then ackThrough b (n - 1) s else s) := by
    split
    · exact ackThrough_grows b _ s
    · exact .refl s
  exact acked.andQuiet (by simp [Quiet, refuseAck])

theorem takeAck_grows (a : AckBody) (s : State) : Grows 0 s (takeAck a s) := by
  unfold takeAck
  split
  · exact .refl s
  split
  · split
    · exact (ackThrough_grows _ _ s).andQuiet (acceptAck_quiet ..)
    · exact refuseAck_grows _ _ s
  · exact .refl s

end

end Sys2Proof.Machine

namespace Sys2Proof.Machine

/-! ## Balance contexts -/

/-- A position with a balance context is BALANCING (R24). -/
def Contexts (s : State) : Prop := ∀ p, (rd s.drawers p).ctx ≠ none → (rd s.posns p).state = .balancing

/-- The positions with a balance context (R24). -/
def openBalances (s : State) : Nat := allPos.countP fun p => (rd s.drawers p).ctx.isSome

/-- Balances may have ended, and none has begun. -/
def NoneBegun (s t : State) : Prop := ∀ p, (rd s.drawers p).ctx = none → (rd t.drawers p).ctx = none

section
variable {s t u : State}

theorem openBalances_le (s : State) : openBalances s ≤ 16 := List.countP_le_length

theorem NoneBegun.refl (s : State) : NoneBegun s s := fun _ h => h

theorem NoneBegun.trans (h : NoneBegun s t) (k : NoneBegun t u) : NoneBegun s u := fun p c => k p (h p c)

theorem NoneBegun.openBalances (h : NoneBegun s t) : openBalances t ≤ openBalances s :=
  List.countP_mono_left fun p _ some => by
    by_contra none
    rw [h p (by simpa using none)] at some
    cases some

theorem NoneBegun.of_eq (drawers : t.drawers = s.drawers) : NoneBegun s t := fun p h => by rw [drawers]; exact h

theorem Contexts.of_eq (h : Contexts s) (drawers : t.drawers = s.drawers) (posns : t.posns = s.posns) : Contexts t := by
  unfold Contexts
  rw [drawers, posns]
  exact h

/-- No balance begun, and the balances that go on at positions that stay BALANCING. -/
theorem Contexts.kept (h : Contexts s) (none : NoneBegun s t)
    (held : ∀ p, (rd t.drawers p).ctx ≠ .none → (rd s.posns p).state = .balancing → (rd t.posns p).state = .balancing) :
    Contexts t := fun p c => held p c (h p fun d => c (none p d))

theorem Contexts.updPos (h : Contexts s) (p : Pos) {f : PosRec → PosRec}
    (hf : (rd s.posns p).state = .balancing → (f (rd s.posns p)).state = .balancing) : Contexts (s.updPos p f) :=
  h.kept (.refl s) fun q _ st => by
    rw [State.updPos_posns, rd_upd]
    split
    · next same => exact hf (same ▸ st)
    · exact st

/-- The contexts kept when a drawer changes beside its context. -/
theorem ctx_upd (v : Vector Drawer 16) (p q : Pos) {f : Drawer → Drawer} (hf : ∀ d, (f d).ctx = d.ctx) :
    (rd (upd v p f) q).ctx = (rd v q).ctx := by
  rw [rd_upd]
  split
  · next same => rw [hf, same]
  · rfl

theorem applyLegs_ctx (gs : List Leg) (s : State) (p : Pos) : (rd (applyLegs gs s).drawers p).ctx = (rd s.drawers p).ctx :=
  foldl_keeps (fun t : State => (rd t.drawers p).ctx) _ (fun t g => ctx_upd t.drawers g.pos p
    (f := fun d => { d with lines := upd d.lines g.line (applyToLine g.amount) }) fun _ => rfl) gs s

theorem captureOne_ctx (k : BalKind) (l : Option Pos) (p q : Pos) (s : State) :
    (rd (captureOne k l p s).drawers q).ctx = (rd s.drawers q).ctx := by
  rw [captureOne_drawers]
  exact ctx_upd s.drawers p q (f := fun d => { d with captureNo := captureAfter s p, lines := mapV d.lines DLine.clearMark })
    fun _ => rfl

theorem captures_ctx (k : BalKind) (l : Option Pos) (ps : List Pos) (s : State) (q : Pos) :
    (rd (ps.foldl (fun s p => captureOne k l p s) s).drawers q).ctx = (rd s.drawers q).ctx :=
  foldl_keeps (fun t : State => (rd t.drawers q).ctx) _ (fun t p => captureOne_ctx k l p q t) ps s

theorem captures_posns (k : BalKind) (l : Option Pos) (ps : List Pos) (s : State) :
    (ps.foldl (fun s p => captureOne k l p s) s).posns = s.posns :=
  foldl_keeps State.posns _ (fun t p => by simp) ps s

theorem OthersKept.contexts {p : Pos} (others : OthersKept p s t) (h : Contexts s)
    (this : (rd t.drawers p).ctx ≠ none → (rd t.posns p).state = .balancing) : Contexts t := fun q c => by
  by_cases same : q = p
  · rw [same] at c ⊢
    exact this c
  · obtain ⟨posn, -, -, drawer⟩ := others q same
    rw [drawer] at c
    rw [posn]
    exact h q c

theorem OthersKept.noneBegun {p : Pos} (others : OthersKept p s t) (ended : (rd t.drawers p).ctx = none) : NoneBegun s t :=
  fun q c => by
    by_cases same : q = p
    · rw [same]
      exact ended
    · rw [(others q same).2.2.2]
      exact c

theorem signOffPos_ended (p : Pos) (s : State) : (rd (signOffPos p s).drawers p).ctx = none := by
  rw [(signOffPos_signedOff p s).2.1]

theorem signOffPos_noneBegun (p : Pos) (s : State) : NoneBegun s (signOffPos p s) :=
  (signOffPos_others p s).noneBegun (signOffPos_ended p s)

theorem signOffPos_contexts (p : Pos) (h : Contexts s) : Contexts (signOffPos p s) :=
  (signOffPos_others p s).contexts h fun c => absurd (signOffPos_ended p s) c

theorem beginBalance_contexts (k : BalKind) (l : Option Pos) (p : Pos) (h : Contexts s) : Contexts (beginBalance k l p s) :=
  (beginBalance_others p s k l).contexts h fun _ => by
    rw [(beginBalance_pos p s k l).1]
    unfold leftFor
    split <;> rfl

theorem makeInDoubt_contexts (p : Pos) (x : PState) (h : Contexts s) (free : (rd s.posns p).state ≠ .balancing) :
    Contexts (makeInDoubt p x s) :=
  h.updPos p fun busy => absurd busy free

theorem release_contexts (p : Pos) (h : Contexts s) : Contexts (release p s) := by
  unfold release
  split
  · next awaiting => exact makeInDoubt_contexts p _ h (by rw [awaiting]; decide)
  · exact h

theorem matchEntry_contexts (p : Pos) (ref : Option Nat) (h : Contexts s) : Contexts (matchEntry p ref s) := by
  unfold matchEntry
  split
  · exact h
  · dsimp only
    split
    · next n answers =>
      have awaiting : (rd s.posns p).state = .awaiting := by
        simp only [answersOutstanding, Bool.and_eq_true, beq_iff_eq] at answers
        exact answers.1
      exact h.updPos p fun busy => by rw [awaiting] at busy; cases busy
    split
    · exact h.updPos p id
    · exact h

end

/-! ## Room while an event runs -/

/-- The law of R45 and what keeps it, while an event runs: no cut of the writes so far leaves a good control record without
room for the CLOSE entry, and a trading day has room for the abandonment of every balance and for the CLOSE entry. -/
structure Rooms (s : State) : Prop where
  cuts : CutsHold GoodFits s
  used : s.jc.unreadable = false → slotsUsed s ≤ 16384
  fits : s.jc.unreadable = false → ClosingFits s.nv
  trading : s.day.state = .opened ∨ s.day.state = .cutoff → slotsUsed s + openBalances s + 1 ≤ 16384
  closed : s.jc.unreadable = true → ∃ u, s.day.state = .closed u
  idle : s.day.state = .recovering ∨ s.jc.unreadable = true → s.engine.batch = none
  contexts : Contexts s

/-- What the events keep between them: every bound, as an event meets it. -/
structure Sound (s : State) : Prop where
  tidy : Tidy s
  jobs : JobsHeld [] s
  rooms : Rooms s

section
variable {s t : State} {k : Nat}

theorem WithinBounds.sound (h : WithinBounds s) : Sound s.begin := by
  obtain ⟨outbound, keys, queues, time, midnights, unset, screens, forms, store, jobs, used, trading, fits, -, closed, idle, contexts⟩ := h
  exact ⟨⟨outbound, keys, time, midnights, unset, fun p => by
      obtain ⟨sorted, rows, column, review⟩ := screens p
      exact ⟨⟨sorted, rows⟩, column, review⟩, forms⟩,
    (jobsHeld_iff.2 ⟨store, jobs, queues⟩).of_eq rfl rfl,
    .start fun good => fits (Or.inr good), used, fun readable => fits (Or.inl readable), trading, closed, idle, contexts⟩

theorem Sound.withinBounds (h : Sound s) : WithinBounds s := by
  obtain ⟨⟨outbound, keys, time, midnights, unset, screens, forms⟩, held, ⟨cuts, used, fits, trading, closed, idle, contexts⟩⟩ := h
  obtain ⟨store, jobs, queues⟩ := jobsHeld_iff.1 held
  exact ⟨outbound, keys, queues, time, midnights, unset, fun p =>
      ⟨(screens p).rows.1, (screens p).rows.2, (screens p).column, (screens p).review⟩, forms, store, jobs,
    used, trading, fun c => c.elim fits cuts.now, cuts.2, closed, idle, contexts⟩

theorem Sound.begin (h : Sound s) : Sound s.begin := h.withinBounds.sound

theorem Rooms.readable (h : Rooms s) (trading : s.day.state = .opened ∨ s.day.state = .cutoff) : s.jc.unreadable = false := by
  cases unreadable : s.jc.unreadable with
  | false => rfl
  | true =>
    obtain ⟨u, closed⟩ := h.closed unreadable
    rw [closed] at trading
    rcases trading with c | c <;> cases c

/-- The journal memory as it was, and no balance begun. -/
theorem Rooms.quiet (h : Rooms s) (q : Quiet s t) (unreadable : t.jc.unreadable = s.jc.unreadable)
    (day : t.day.state = s.day.state)
    (idle : s.day.state = .recovering ∨ s.jc.unreadable = true → s.engine.batch = none → t.engine.batch = none)
    (none : NoneBegun s t) (contexts : Contexts t) : Rooms t := by
  obtain ⟨nv, -, -, -⟩ := id q
  have slots : slotsUsed t = slotsUsed s := by unfold slotsUsed; rw [nv]
  refine ⟨h.cuts.quiet q, ?_, ?_, fun c => ?_, ?_, fun c => ?_, contexts⟩
  · rw [unreadable, slots]
    exact h.used
  · rw [unreadable, nv]
    exact h.fits
  · rw [day] at c
    have := h.trading c
    have := none.openBalances
    omega
  · rw [unreadable, day]
    exact h.closed
  · rw [day, unreadable] at c
    exact idle c (h.idle c)

/-- A readable journal gone on: by entries within the control limit, or by none and no balance begun (R42, R45). -/
theorem Rooms.entered (h : Rooms s) (readable : s.jc.unreadable = false) (grows : Grows k s t)
    (room : slotsUsed s + k ≤ 16256 ∨ k = 0 ∧ NoneBegun s t) (unreadable : t.jc.unreadable = s.jc.unreadable)
    (day : t.day.state = s.day.state) (idle : s.day.state = .recovering → s.engine.batch = none → t.engine.batch = none)
    (contexts : Contexts t) : Rooms t := by
  have used := grows.used
  have close (rec_ : RecordedOpen s.nv) : slotsUsed s + k ≤ 16383 := by
    have := h.fits readable rec_
    unfold slotsUsed at *
    omega
  refine ⟨grows.cuts close h.cuts, fun _ => ?_, fun _ rec_ => ?_, fun c => ?_, fun c => ?_, fun c => ?_, contexts⟩
  · have := h.used readable
    omega
  · rw [grows.day] at rec_
    exact used.trans (close rec_)
  · rw [day] at c
    have := h.trading c
    have := openBalances_le t
    rcases room with room | ⟨rfl, none⟩
    · omega
    · have := none.openBalances
      omega
  · rw [unreadable, readable] at c
    cases c
  · rw [day, unreadable, readable] at c
    rcases c with c | c
    · exact idle c (h.idle (Or.inl c))
    · cases c

/-- Nothing of the journal, the store, the queues, the drawers or the positions changed. -/
def KeepsSpine (s t : State) : Prop :=
  t.nv = s.nv ∧ t.nvBefore = s.nvBefore ∧ t.nvLog = s.nvLog ∧ t.pending = s.pending ∧ t.store = s.store ∧ t.queues = s.queues ∧
    t.jc.unreadable = s.jc.unreadable ∧ t.jc.replay = s.jc.replay ∧ t.day.state = s.day.state ∧ t.drawers = s.drawers ∧
    t.posns = s.posns ∧ t.engine.batch = s.engine.batch

theorem Sound.spine (h : Sound s) (tidy : Tidy t) (same : KeepsSpine s t) : Sound t := by
  obtain ⟨nv, before, log, pending, store, queues, unreadable, -, day, drawers, posns, batch⟩ := same
  exact ⟨tidy, h.jobs.of_eq store queues, h.rooms.quiet ⟨nv, before, log, pending⟩ unreadable day (fun _ none => batch.trans none)
    (.of_eq drawers) (h.rooms.contexts.of_eq drawers posns)⟩

end

/-! ## Rest outside trading, within an event -/

/-- The part of R67's law that a message meets and leaves: a replay only while RECOVERING; in CLOSED, RECOVERING and CLOSING
every position SIGNED_OFF and no job queued. -/
def Calm (s : State) : Prop :=
  (s.jc.replay ≠ none → s.day.state = .recovering) ∧
    (atRest s.day.state = true → (∀ p, (rd s.posns p).state = .signedOff) ∧ ∀ n, rd s.queues n = [])

theorem RestsOutsideTrading.calm {s : State} (h : RestsOutsideTrading s) : Calm s := ⟨h.1, h.2.2⟩

/-- What every message meets and leaves. -/
structure Steady (s : State) : Prop where
  sound : Sound s
  calm : Calm s

section
variable {s t : State}

theorem Calm.noReplay (h : Calm s) (other : s.day.state ≠ .recovering) : s.jc.replay = none := by
  by_contra some
  exact other (h.1 some)

theorem Calm.kept (h : Calm s) (replay : t.jc.replay = s.jc.replay) (day : t.day.state = s.day.state)
    (rest : (∀ p, (rd s.posns p).state = .signedOff) → (∀ n, rd s.queues n = []) →
      (∀ p, (rd t.posns p).state = .signedOff) ∧ ∀ n, rd t.queues n = []) : Calm t := by
  unfold Calm
  rw [replay, day]
  exact ⟨h.1, fun c => rest (h.2 c).1 (h.2 c).2⟩

/-- A trading day that goes on. -/
theorem Calm.trading (h : Calm s) (trading : s.day.state = .opened ∨ s.day.state = .cutoff)
    (replay : t.jc.replay = s.jc.replay) (day : t.day.state = s.day.state) : Calm t := by
  unfold Calm
  rw [replay, day]
  refine ⟨h.1, fun rest => ?_⟩
  rcases trading with c | c <;> rw [c] at rest <;> cases rest

theorem Steady.spine (h : Steady s) (tidy : Tidy t) (same : KeepsSpine s t) : Steady t := by
  refine ⟨h.sound.spine tidy same, ?_⟩
  obtain ⟨-, -, -, -, -, queues, -, replay, day, -, posns, -⟩ := same
  exact h.calm.kept replay day fun off none => ⟨posns ▸ off, queues ▸ none⟩

theorem Steady.begin (h : Steady s) : Steady s.begin := ⟨h.sound.begin, h.calm⟩

@[simp] theorem Steady.reply (hd : Hdr) (st : Status) (h : Steady s) : Steady (reply hd st s) :=
  h.spine (reply_tidy hd st h.sound.tidy) (by simp [KeepsSpine])

theorem Steady.replyWith (hd : Hdr) (st : Status) (x : Extra) (h : Steady s) : Steady (replyWith hd st x s) :=
  h.spine (replyWith_tidy hd st x h.sound.tidy) (by simp [KeepsSpine])

theorem Steady.report (p : Nat) (r : Report) (h : Steady s) : Steady (report p r s) :=
  h.spine (report_tidy p r h.sound.tidy) (by simp [KeepsSpine])

theorem arrive_batch (s : State) : (arrive s).engine.batch = s.engine.batch := by
  unfold arrive
  dsimp only
  split
  · rfl
  · rfl

theorem Steady.arrive (h : Steady s) : Steady (arrive s) :=
  h.spine (arrive_tidy h.sound.tidy) (by simp [KeepsSpine, arrive_batch])

/-- A change of the positions alone, none of those BALANCING or SIGNED_OFF (R78). -/
theorem Sound.positions (h : Sound s) (tidy : Tidy t) (quiet : Quiet s t) (store : t.store = s.store) (queues : t.queues = s.queues)
    (jc : t.jc.unreadable = s.jc.unreadable) (day : t.day.state = s.day.state) (drawers : t.drawers = s.drawers)
    (batch : t.engine.batch = s.engine.batch) (contexts : Contexts t) : Sound t :=
  ⟨tidy, h.jobs.of_eq store queues, h.rooms.quiet quiet jc day (fun _ none => batch.trans none) (.of_eq drawers) contexts⟩

theorem Sound.release (p : Pos) (h : Sound s) : Sound (release p s) :=
  h.positions (release_tidy p h.tidy) (release_quiet p s) (by simp) (by simp) (by simp) (by simp) (by simp) (by simp)
    (release_contexts p h.rooms.contexts)

theorem Steady.release (p : Pos) (h : Steady s) : Steady (release p s) := by
  refine ⟨h.sound.release p, h.calm.kept (by simp) (by simp) fun off none => ?_⟩
  have same : Machine.release p s = s := if_neg (by rw [off p]; decide)
  rw [same]
  exact ⟨off, none⟩

end

/-! ## Events and messages -/

/-- A command that keeps every bound where the law of R67 holds. -/
def Bounded (o : State → Host.Outcome State Fault Refusal) : Prop :=
  ∀ s t, WithinBounds s → RestsOutsideTrading s → o s = .next t → WithinBounds t

/-- A command that changes nothing, or leaves what messages meet. -/
def Steadied (o : State → Host.Outcome State Fault Refusal) : Prop :=
  ∀ s t, Steady s.begin → o s = .next t → t = s ∨ Steady t

section
variable {f : State → State}

theorem Bounded.event (h : ∀ s, Sound s → RestsOutsideTrading s → Sound (f s)) : Bounded (event f) := by
  intro s t within rests run
  cases run
  split
  · exact (h s.begin within.sound rests).withinBounds
  · exact within

/-- An event that keeps the bounds wherever they hold. -/
theorem Bounded.plain (h : ∀ s, Sound s → Sound (f s)) : Bounded (Machine.event f) := .event fun s sound _ => h s sound

theorem Steadied.bounded {o : State → Host.Outcome State Fault Refusal} (h : Steadied o) : Bounded o := by
  intro s t within rests run
  rcases h s t ⟨within.sound, rests.calm⟩ run with rfl | steady
  · exact within
  · exact steady.sound.withinBounds

theorem Steadied.event (h : ∀ s, Steady s → Steady (f s)) : Steadied (Machine.event f) := by
  intro s t steady run
  cases run
  split
  · exact Or.inr (h s.begin steady)
  · exact Or.inl rfl

theorem Steadied.message {hd : Hdr} (h : ∀ s, Steady s → s.day.state ≠ .recovering → Steady (f s)) : Steadied (message hd f) := by
  refine .event fun s steady => ?_
  dsimp only
  split
  · exact steady.arrive.reply hd .recovering
  · next day => exact h _ steady.arrive day

theorem Steadied.tableMessage (h : ∀ s, Steady s → Steady (f s)) : Steadied (tableMessage f) := .event fun _ steady => h _ steady.arrive

theorem Steadied.silentMessage (h : ∀ s, Steady s → s.day.state ≠ .recovering → Steady (f s)) : Steadied (silentMessage f) := by
  refine .event fun s steady => ?_
  dsimp only
  split
  · exact steady.arrive
  · next day => exact h _ steady.arrive day

theorem atPosition_steady {hd : Hdr} {g : Pos → State → State} {s : State} (h : ∀ p, Steady (g p s)) (steady : Steady s) :
    Steady (atPosition hd g s) := by
  unfold atPosition
  split
  · exact h _
  · exact steady.reply hd .badPosition

end

end Sys2Proof.Machine

namespace Sys2Proof.Machine

section
variable {s t : State}

/-! ## Loads and queries keep the bounds -/

theorem answerLoad_steady (hd : Hdr) {r : Except Status State} (steady : Steady s) (h : ∀ t, r = .ok t → Steady t) :
    Steady (answerLoad hd r s) := by
  unfold answerLoad
  split
  · exact (h _ rfl).reply hd .accepted
  · exact steady.reply hd _

/-- A change of the tables beside the forms. -/
theorem Steady.withTables (h : Steady s) {f : Tables → Tables} (forms : (f s.tables).forms = s.tables.forms) :
    Steady (s.updTables f) :=
  h.spine (h.sound.tidy.withForms (by rw [forms]; exact h.sound.tidy.forms)) (by simp [KeepsSpine])

theorem loadFormFields_steady (hd : Hdr) (i : Nat) (c : Content FormDesc) (steady : Steady s) :
    Steady (loadFormFields hd i c s) := by
  refine answerLoad_steady hd steady fun t ok => ?_
  split_ifs at ok with index bad
  cases ok
  have tidy := steady.sound.tidy
  refine steady.spine (tidy.withForms fun n d hd => ?_) (by simp [KeepsSpine])
  rw [rd_updN _ ⟨i, index⟩ n] at hd
  split at hd
  · next same =>
    subst same
    cases c with
    | define e =>
      obtain rfl : e = d := Option.some.inj hd
      simpa [Content.bad] using bad
    | clear => cases hd
    | incomplete => cases hd
  · exact tidy.forms n d hd

theorem loadFormText_steady (hd : Hdr) (i : Nat) (c : Content FormText) (steady : Steady s) : Steady (loadFormText hd i c s) :=
  answerLoad_steady hd steady fun t ok => by split_ifs at ok; cases ok; exact steady.withTables rfl

theorem loadCode_steady (hd : Hdr) (i : Nat) (c : Content CodeEntry) (steady : Steady s) : Steady (loadCode hd i c s) :=
  answerLoad_steady hd steady fun t ok => by split_ifs at ok; cases ok; exact steady.withTables rfl

theorem loadCurrency_steady (hd : Hdr) (i : Nat) (c : Content CurrencyEntry) (steady : Steady s) :
    Steady (loadCurrency hd i c s) :=
  answerLoad_steady hd steady fun t ok => by split_ifs at ok; cases ok; exact steady.withTables rfl

theorem loadRate_steady (hd : Hdr) (i : Nat) (c : Content RateEntry) (steady : Steady s) : Steady (loadRate hd i c s) :=
  answerLoad_steady hd steady fun t ok => by split_ifs at ok; cases ok; exact steady.withTables rfl

theorem loadLimit_steady (hd : Hdr) (i : Nat) (c : Content Nat) (steady : Steady s) : Steady (loadLimit hd i c s) :=
  answerLoad_steady hd steady fun t ok => by split_ifs at ok; cases ok; exact steady.withTables rfl

theorem loadPosition_steady (hd : Hdr) (i : Nat) (c : Content PositionEntry) (steady : Steady s) :
    Steady (loadPosition hd i c s) := by
  refine answerLoad_steady hd steady fun t ok => ?_
  split at ok
  · cases ok
  · dsimp only at ok
    split_ifs at ok
    cases ok
    exact steady.withTables rfl

theorem loadLayout_steady (hd : Hdr) (i : Nat) (c : Content Layout) (steady : Steady s) : Steady (loadLayout hd i c s) :=
  answerLoad_steady hd steady fun t ok => by split_ifs at ok; cases ok; exact steady.withTables rfl

theorem loadParams_steady (hd : Hdr) (i : Nat) (c : Content Params) (steady : Steady s) : Steady (loadParams hd i c s) :=
  answerLoad_steady hd steady fun t ok => by split_ifs at ok; cases ok; exact steady.withTables rfl

theorem loadBare_steady (hd : Hdr) (body : Option (Nat × Nat)) (steady : Steady s) : Steady (loadBare hd body s) := by
  unfold loadBare
  split
  · exact steady.reply hd _
  · split
    · exact loadFormFields_steady hd _ _ steady
    · exact loadFormText_steady hd _ _ steady
    · exact loadCode_steady hd _ _ steady
    · exact loadCurrency_steady hd _ _ steady
    · exact loadRate_steady hd _ _ steady
    · exact loadLimit_steady hd _ _ steady
    · exact loadPosition_steady hd _ _ steady
    · exact loadLayout_steady hd _ _ steady
    · exact loadParams_steady hd _ _ steady
    · split
      · exact steady.reply hd _
      · exact steady.reply hd _

theorem answerQuery_steady (hd : Hdr) (x i : Nat) (steady : Steady s) : Steady (answerQuery hd x i s) := by
  unfold answerQuery
  split
  · exact steady.replyWith hd _ _
  · exact steady.reply hd _

theorem tableQuery_steadied (hd : Hdr) (b : Option (Nat × Nat)) : Steadied (execTableQuery hd b) := by
  refine .tableMessage fun s steady => ?_
  split
  · exact steady.reply hd _
  · exact answerQuery_steady hd _ _ steady

theorem unknownKind_steadied (hd : Hdr) (k : Byte) : Steadied (execUnknownKind hd k) := by
  unfold execUnknownKind
  split
  · exact .event fun s steady => steady
  · exact .message fun s steady _ => steady.reply hd _

/-! ## Screen messages keep the bounds -/

theorem finishScreen_steady (hd : Hdr) (p : Pos) (b : Bool) (steady : Steady s) : Steady (finishScreen hd p b s) := by
  refine Steady.reply hd _ ?_
  split
  · exact steady.release p
  · exact steady

theorem paint_steadied (hd : Hdr) (b : PaintBody) : Steadied (execPaint hd b) := by
  refine .message fun s steady _ => atPosition_steady (fun p => ?_) steady
  split
  · exact steady.reply hd _
  · next good =>
    refine finishScreen_steady hd p _ (steady.spine ?_ (by simp [KeepsSpine]))
    have row : b.row ≤ 15 := by
      simp only [paintBad, Bool.or_eq_true, not_or, beq_iff_eq, decide_eq_true_eq] at good
      omega
    unfold paintWrites
    have start : Tidy (if b.erase then clearArea p s else s) := by
      split
      · exact clearArea_tidy p steady.sound.tidy
      · exact steady.sound.tidy
    exact start.updScreen p ((start.screens p).paintRun _ _ _ row)

theorem form_steadied (hd : Hdr) (n : Nat) (b : Bool) : Steadied (execForm hd n b) := by
  refine .message fun s steady _ => atPosition_steady (fun p => ?_) steady
  split
  · split
    · next d known =>
      exact finishScreen_steady hd p b (steady.spine (showForm_tidy p known steady.sound.tidy) (by simp [KeepsSpine]))
    · exact steady.reply hd _
  · exact steady.reply hd _

theorem notice_steadied (hd : Hdr) (b : NoticeBody) : Steadied (execNotice hd b) := by
  refine .message fun s steady _ => atPosition_steady (fun p => ?_) steady
  split
  · exact steady.reply hd _
  · exact finishScreen_steady hd p _ (steady.spine (noticeWrites_tidy p _ _ steady.sound.tidy) (by simp [KeepsSpine]))

/-! ## The clock's messages keep the bounds -/

theorem setTime_steadied (hd : Hdr) (n : Nat) : Steadied (execSetTime hd n) := by
  refine .message fun s steady _ => ?_
  split
  · exact steady.reply hd _
  · next time =>
    have tidy := steady.sound.tidy
    have set : Tidy { s with clock := { s.clock with time := n, isSet := true } } :=
      tidy.withClock (by simpa using time) tidy.midnights (fun c => nomatch c)
    exact (steady.spine (t := setClock n s) (markRow0All_tidy set) (by simp [KeepsSpine, setClock])).reply hd _

theorem setCutoff_steadied (hd : Hdr) (n : Nat) : Steadied (execSetCutoff hd n) := by
  refine .message fun s steady _ => ?_
  split
  · exact steady.reply hd _
  · exact (steady.spine (t := s.updDay _) steady.sound.tidy (by simp [KeepsSpine])).reply hd _

theorem clearCutoff_steadied (hd : Hdr) : Steadied (execClearCutoff hd) :=
  .message fun _ steady _ => (steady.spine (t := State.updDay _ _) steady.sound.tidy (by simp [KeepsSpine])).reply hd _

/-! ## Position requests keep the bounds -/

theorem unlock_steadied (hd : Hdr) : Steadied (execUnlock hd) := by
  refine .message fun s steady _ => atPosition_steady (fun p => ?_) steady
  split
  · exact (steady.release p).reply hd _
  · exact steady.reply hd _

theorem signOn_steadied (hd : Hdr) (b : SignOnBody) : Steadied (execSignOn hd b) := by
  refine .message fun s steady _ => ?_
  cases b with
  | noKnownRequest => exact steady.reply hd _
  | request teller =>
    refine atPosition_steady (fun p => ?_) steady
    unfold signOnRequest
    split
    · exact steady.reply hd _
    · next x _ =>
      split
      · exact steady.reply hd _
      split
      · exact steady.reply hd _
      · next opened off =>
        have opened : s.day.state = .opened := not_not.1 opened
        have off : (rd s.posns p).state = .signedOff := not_not.1 off
        refine Steady.reply hd _ ⟨?_, steady.calm.trading (Or.inl opened) rfl rfl⟩
        exact steady.sound.positions (markRow0_tidy p (updPos_tidy p _ steady.sound.tidy)) ⟨rfl, rfl, rfl, rfl⟩ rfl rfl rfl rfl rfl rfl
          (steady.sound.rooms.contexts.updPos p fun busy => by rw [off] at busy; cases busy)

/-- A position signed off (R86). -/
theorem Steady.signOffPos (p : Pos) (h : Steady s) : Steady (signOffPos p s) := by
  have rooms := h.sound.rooms
  refine ⟨⟨signOffPos_tidy p h.sound.tidy, h.sound.jobs.of_eq (by simp) (by simp), rooms.quiet (by simp [Quiet]) (by simp) (by simp)
      (fun _ none => by simpa using none) (signOffPos_noneBegun p s) (signOffPos_contexts p rooms.contexts)⟩,
    h.calm.kept (by simp) (by simp) fun off none => ⟨fun q => ?_, by simpa using none⟩⟩
  by_cases same : q = p
  · rw [same, (signOffPos_signedOff p s).1]
    unfold leftFor
    split <;> rfl
  · rw [(signOffPos_others p s q same).1]
    exact off q

end

end Sys2Proof.Machine

namespace Sys2Proof.Machine

section
variable {s t : State} {k : Nat}

/-! ## Requests that enter the journal keep the bounds -/

theorem refusal_none {c : CapClass} {n : Nat} (h : refusal c n s = none) :
    (∀ u, s.day.state ≠ .closed u) ∧ s.day.state ≠ .closing ∧ fits c n s = true := by
  unfold refusal at h
  cases day : s.day.state <;> simp_all

theorem fits_control_room {n : Nat} (h : fits .control n s = true) : slotsUsed s + (n + midnightSlots .control s) ≤ 16256 := by
  have := (fits_iff .control n s).1 h
  simp only [CapClass.limit, Config.controlLimit] at this
  omega

theorem fits_business_control {n : Nat} (h : fits .business n s = true) :
    slotsUsed s + (n + midnightSlots .business s) ≤ 16256 := by
  have := (fits_iff .business n s).1 h
  simp only [CapClass.limit, Config.businessLimit] at this
  omega

/-- An event of a trading day whose entries stay within the control limit (R42). -/
theorem Steady.entered (h : Steady s) (trading : s.day.state = .opened ∨ s.day.state = .cutoff) (tidy : Tidy t)
    (jobs : JobsHeld [] t) (grows : Grows k s t) (room : slotsUsed s + k ≤ 16256) (unreadable : t.jc.unreadable = s.jc.unreadable)
    (replay : t.jc.replay = s.jc.replay) (day : t.day.state = s.day.state) (batch : t.engine.batch = s.engine.batch)
    (contexts : Contexts t) : Steady t :=
  ⟨⟨tidy, jobs, h.sound.rooms.entered (h.sound.rooms.readable trading) grows (Or.inl room) unreadable day
    (fun _ none => batch.trans none) contexts⟩, h.calm.trading trading replay day⟩

theorem singleBalance_steady (b : BalKind) (p : Pos) (h : Steady s) (trading : s.day.state = .opened ∨ s.day.state = .cutoff)
    (room : fits .control 4 s = true) : Steady (singleBalance b p s) := by
  refine h.entered trading ?_ (h.sound.jobs.of_eq (by simp) (by simp)) (singleBalance_grows b p s) (fits_control_room room)
    (by simp) (by simp) (by simp) (by simp) ?_
  · exact beginBalance_tidy b none p (captureOne_tidy b none p (placeMidnight_tidy .control h.sound.tidy))
  · refine beginBalance_contexts b none p (h.sound.rooms.contexts.kept (fun q none => ?_) fun q _ held => by simpa using held)
    rw [captureOne_ctx]
    simpa using none

theorem completeGroup_contexts (l : Pos) (g : GroupRec) (h : Contexts s) : Contexts (completeGroup l g s) :=
  h.of_eq (by simp) (by simp)

theorem groupBalanceEvent_steady (b : BalKind) (l : Pos) (h : Steady s)
    (trading : s.day.state = .opened ∨ s.day.state = .cutoff) (room : fits .control (groupSlots s l) s = true) :
    Steady (groupBalanceEvent b l s) := by
  refine h.entered trading (groupBalanceEvent_tidy b l h.sound.tidy) (h.sound.jobs.of_eq (by simp) (by simp))
    (groupBalanceEvent_grows b l s) (fits_control_room room) (by simp) (by simp) (by simp) (by simp) ?_
  have begun (g off on : List Pos) : Contexts (on.foldl (fun s q => beginBalance b (some l) q s)
      (g.foldl (fun s q => captureOne b (some l) q s) (append (.groupBegin l b g off) (placeMidnight .control s)))) := by
    refine List.foldlRecOn (motive := Contexts) on _ ?_ fun t ht q _ => beginBalance_contexts b (some l) q ht
    refine h.sound.rooms.contexts.kept (fun q none => ?_) fun q _ held => ?_
    · rw [captures_ctx]
      simpa using none
    · rw [captures_posns]
      simpa using held
  unfold groupBalanceEvent
  dsimp only
  split
  · exact completeGroup_contexts _ _ (begun _ _ _)
  · exact begun _ _ _

theorem takeDeclaration_steady (p : Pos) (c : BalCtx) (r : DeclRec) (h : Steady s) (hc : (rd s.drawers p).ctx = some c)
    (own : r.pos = p) (trading : s.day.state = .opened ∨ s.day.state = .cutoff)
    (room : fits .control (4 + if emptiesGroup p c.leader s then 1 else 0) s = true) : Steady (takeDeclaration p c r s) := by
  have busy := h.sound.rooms.contexts p (by rw [hc]; exact Option.some_ne_none c)
  obtain ⟨-, drawer, others, -⟩ := takeDeclaration_spec p c r s busy own
  exact h.entered trading (takeDeclaration_tidy p c r h.sound.tidy) (h.sound.jobs.of_eq (by simp) (by simp))
    (takeDeclaration_grows p c r s) (fits_control_room room) (by simp) (by simp) (by simp) (by simp)
    (others.contexts h.sound.rooms.contexts fun some => absurd (by rw [drawer]) some)

theorem abandonBalance_steady (p : Pos) (c : BalCtx) (h : Steady s) (trading : s.day.state = .opened ∨ s.day.state = .cutoff)
    (room : fits .control (1 + if emptiesGroup p c.leader s then 1 else 0) s = true) : Steady (abandonBalance p c s) := by
  obtain ⟨-, ⟨-, drawer, -⟩, others, -⟩ := abandonBalance_spec p c s
  exact h.entered trading (leaveGroup_tidy p c.leader true (signOffPos_tidy p (append_tidy _ (placeMidnight_tidy .control h.sound.tidy))))
    (h.sound.jobs.of_eq (by simp) (by simp)) (abandonBalance_grows p c s) (fits_control_room room) (by simp) (by simp) (by simp)
    (by simp) (others.contexts h.sound.rooms.contexts fun some => absurd (by rw [drawer]) some)

theorem balanceTime_trading (h : balanceTimeRefusal s = none) : s.day.state = .opened ∨ s.day.state = .cutoff := by
  unfold balanceTimeRefusal at h
  by_contra closed
  rw [if_pos closed] at h
  cases h

theorem groupRefusal_none {l : Pos} (h : groupRefusal s l = none) : fits .control (groupSlots s l) s = true := by
  unfold groupRefusal at h
  split_ifs at h
  exact (refusal_none h).2.2

/-- A day in which a position is signed on is a trading day (R67). -/
theorem Calm.trades (h : Calm s) {p : Pos} (on : (rd s.posns p).state ≠ .signedOff) :
    s.day.state = .opened ∨ s.day.state = .cutoff := by
  have awake : atRest s.day.state ≠ true := fun rest => on ((h.2 rest).1 p)
  cases day : s.day.state with
  | opened => exact Or.inl rfl
  | cutoff => exact Or.inr rfl
  | closed u => rw [day] at awake; exact absurd rfl awake
  | recovering => rw [day] at awake; exact absurd rfl awake
  | closing => rw [day] at awake; exact absurd rfl awake

theorem withKind_steady {hd : Hdr} {b : Option BalKind} {g : BalKind → State → State} (h : ∀ x, Steady (g x s))
    (steady : Steady s) : Steady (withKind hd b g s) := by
  unfold withKind
  split
  · exact steady.reply hd _
  · exact h _

theorem balanceRequest_steadied (hd : Hdr) (b : Option BalKind) : Steadied (execPositionControlBalance hd b) := by
  refine .message fun s steady _ => withKind_steady (fun x => ?_) steady
  split
  · exact steady.reply hd _
  · next time =>
    refine atPosition_steady (fun p => ?_) steady
    split
    · exact steady.reply hd _
    split
    · exact steady.reply hd _
    · next room =>
      exact (singleBalance_steady x p steady (balanceTime_trading time) (refusal_none room).2.2).reply hd _

theorem groupRequest_steadied (hd : Hdr) (b : Option BalKind) : Steadied (execPositionControlGroupBalance hd b) := by
  refine .message fun s steady _ => withKind_steady (fun x => ?_) steady
  split
  · exact steady.reply hd _
  · next time =>
    refine atPosition_steady (fun p => ?_) steady
    split
    · exact steady.reply hd _
    · next room =>
      exact (groupBalanceEvent_steady x p steady (balanceTime_trading time) (groupRefusal_none room)).reply hd _

theorem forceOffBalancing_steady (hd : Hdr) (p : Pos) (h : Steady s) (busy : (rd s.posns p).state = .balancing) :
    Steady (forceOffBalancing hd p s) := by
  unfold forceOffBalancing
  split
  · exact (h.signOffPos p).reply hd _
  · split
    · exact h.reply hd _
    · next room =>
      obtain ⟨-, -, room⟩ := refusal_none room
      exact (abandonBalance_steady p _ h (h.calm.trades (by rw [busy]; decide)) room).reply hd _

theorem forceSignOff_steadied (hd : Hdr) : Steadied (execForceSignOff hd) := by
  refine .message fun s steady _ => atPosition_steady (fun p => ?_) steady
  split
  · exact steady.reply hd _
  · exact (steady.signOffPos p).reply hd _
  · exact (steady.signOffPos p).reply hd _
  · next busy => exact forceOffBalancing_steady hd p steady busy

/-! ## Postings and lines keep the bounds -/

/-- The account of a line that is kept has a record (R125). -/
theorem offerLine_known {a : Account} (room : storeKeeps a s = true) (b : Option Nat) (l : PLine) :
    ∃ r ∈ (offerLine a b l s).store, r.account = a := by
  unfold offerLine
  rw [if_pos room, (changePrint_store _ _ _).1]
  unfold addLine
  cases found : findAccount a s with
  | none => exact ⟨_, List.mem_append_right _ (List.mem_singleton_self _), rfl⟩
  | some r =>
    refine ⟨_, List.mem_map_of_mem (List.mem_of_find?_eq_some found), ?_⟩
    split
    · exact findAccount_account a s (r := r) found
    · exact findAccount_account a s found

theorem handOnLine_held (p : Pos) (line : Option (Account × Option Nat × PLine)) (h : JobsHeld [] s) :
    JobsHeld [] (handOnLine p line s) := by
  unfold handOnLine
  split
  · exact h
  · next a b l =>
    split
    · next room => exact jobForKept_held p (offerLine_held a b l h) (offerLine_known room b l)
    · exact offerLine_held a b l h

theorem applyPosting_steady (late : Bool) (req : PostReq) (pl : Plan) (h : Steady s)
    (trading : s.day.state = .opened ∨ s.day.state = .cutoff) (room : fits .business 2 s = true) :
    Steady (applyPosting late req pl s).1 := by
  obtain ⟨-, posns, -, -, day, -, engine, -, -, -, -, -, drawers, -⟩ := applyPosting_frame late req pl s
  refine h.entered trading (applyPosting_tidy late req pl h.sound.tidy) ?_ (applyPosting_grows late req pl s)
    (fits_business_control room) (by simp [applyPosting]) (by simp [applyPosting]) (by rw [day]) (by rw [engine])
    (h.sound.rooms.contexts.kept (fun p none => ?_) fun p _ held => ?_)
  · exact handOnLine_held pl.pos _ (h.sound.jobs.of_eq (by simp) (by simp))
  · rw [drawers, applyLegs_ctx]
    exact none
  · rw [posns]
    exact held

theorem checkPosting_trading {req : PostReq} {pl : Plan} (h : checkPosting req s = .ok pl) :
    (s.day.state = .opened ∨ s.day.state = .cutoff) ∧ fits .business 2 s = true := by
  obtain ⟨cur, ok⟩ := checkPosting_ok h
  exact ⟨ok.day.imp_right And.right, ok.room⟩

theorem Steady.matchEntry (p : Pos) (ref : Option Nat) (h : Steady s) (trading : s.day.state = .opened ∨ s.day.state = .cutoff) :
    Steady (matchEntry p ref s) :=
  ⟨h.sound.positions (matchEntry_tidy p ref h.sound.tidy) (by simp [Quiet]) (by simp) (by simp) (by simp) (by simp) (by simp) (by simp)
    (matchEntry_contexts p ref h.sound.rooms.contexts), h.calm.trading trading (by simp) (by simp)⟩

theorem post_steadied (hd : Hdr) (b : PostBody) : Steadied (execPost hd b) := by
  refine .message fun s steady _ => ?_
  split
  · exact steady.reply hd _
  split
  · exact steady.reply hd _
  · next pl ok =>
    obtain ⟨trading, room⟩ := checkPosting_trading ok
    have posted := applyPosting_steady (lateFlag (rd s.posns pl.pos) (postRequest hd b).entryRef) (postRequest hd b) pl steady
      trading room
    have day := (applyPosting_frame (lateFlag (rd s.posns pl.pos) (postRequest hd b).entryRef) (postRequest hd b) pl s).2.2.2.2.1
    have matched := (posted.reply hd .accepted).matchEntry pl.pos (postRequest hd b).entryRef (by simpa [day] using trading)
    unfold takePost reportLate
    dsimp only
    split
    · split
      · exact matched
      · exact matched.report _ _
    · exact matched

theorem offerLines_held (a : Account) (b seq : Nat) (ls : List BookLineItem) (h : JobsHeld [] s) :
    JobsHeld [] (offerLines a b seq ls s).1 := by
  induction ls generalizing s seq with
  | nil => exact h
  | cons l ls ih => exact ih _ (offerLine_held _ _ _ h)

theorem Steady.jobForKept (p : Pos) {a : Account} (h : Steady s) (trading : s.day.state = .opened ∨ s.day.state = .cutoff)
    (known : ∃ r ∈ s.store, r.account = a) : Steady (jobForKept p a s) :=
  ⟨⟨jobForKept_tidy p a h.sound.tidy, jobForKept_held p h.sound.jobs known, h.sound.rooms.quiet (jobForKept_quiet p a s) (by simp)
    (by simp) (fun _ none => by simpa using none) (.of_eq (by simp)) (h.sound.rooms.contexts.of_eq (by simp) (by simp))⟩,
    h.calm.trading trading (by simp) (by simp)⟩

theorem bookLinesRefusal_trading {hd : Hdr} {n : Nat} {p : Pos} (h : bookLinesRefusal hd n s = .ok p) :
    (s.day.state = .opened ∨ s.day.state = .cutoff) ∧ fits .business n s = true := by
  unfold bookLinesRefusal at h
  by_cases trading : s.day.state = .opened ∨ s.day.state = .cutoff
  · rw [if_neg (not_not.2 trading)] at h
    refine ⟨trading, ?_⟩
    by_contra full
    rw [Bool.not_eq_true] at full
    split at h
    · cases h
    · cases pos : posOf hd.pos <;> simp [full, pos] at h
  · rw [if_pos trading] at h
    cases h

theorem bookLineEntries_slots (a : Account) (b : Nat) (ls : List BookLineItem) :
    ((bookLineEntries a b ls).map kindSlots).sum = ls.length := by
  induction ls with
  | nil => rfl
  | cons l ls ih => exact (congrArg (1 + ·) ih).trans (Nat.add_comm 1 _)

theorem takeBookLines_steady (hd : Hdr) (p : Pos) (a : Account) (b : Nat) (ls : List BookLineItem) (h : Steady s)
    (trading : s.day.state = .opened ∨ s.day.state = .cutoff) (room : fits .business ls.length s = true) :
    Steady (takeBookLines hd p a b ls s) := by
  obtain ⟨u, hu⟩ : ∃ u, u = appendAll (bookLineEntries a b ls) (placeMidnight .business s) := ⟨_, rfl⟩
  obtain ⟨r, hr⟩ : ∃ r, r = offerLines a b (nextSeq (placeMidnight .business s)) ls u := ⟨_, rfl⟩
  have jobs : JobsHeld [] u := h.sound.jobs.of_eq (by simp [hu]) (by simp [hu])
  have kept := offerLines_offered (a := a) (t := b) (seq := nextSeq (placeMidnight .business s)) (ls := ls) jobs.fits.nodup
  rw [← hr] at kept
  have entered : Grows (midnightSlots .business s + ls.length) s u := by
    rw [hu, ← bookLineEntries_slots a b ls]
    exact (placeMidnight_grows .business s).trans (appendAll_grows (bookLineEntries a b ls) _)
  have grows := entered.trans (hr ▸ offerLines_grows a b (nextSeq (placeMidnight .business s)) ls u : Grows 0 u r.1)
  have day : r.1.day = s.day := by rw [kept.frame]; simp [hu]
  have offered : Steady r.1 := by
    refine h.entered trading ?_ (hr ▸ offerLines_held a b _ ls jobs) (grows.mono (by omega)) (fits_business_control room)
      ?_ ?_ (by rw [day]) ?_ (h.sound.rooms.contexts.of_eq ?_ ?_)
    · rw [hr, hu]
      exact offerLines_tidy a b _ ls (appendAll_tidy _ (placeMidnight_tidy .business h.sound.tidy))
    all_goals rw [kept.frame]; simp [hu]
  have result : takeBookLines hd p a b ls s =
      Machine.replyWith hd .accepted (.kept r.2) (if r.2 = 0 then r.1 else Machine.jobForKept p a r.1) := by rw [hr, hu]; rfl
  rw [result]
  refine Steady.replyWith hd _ _ ?_
  split
  · exact offered
  · next some =>
    obtain ⟨x, found, -⟩ := kept.some (Nat.pos_of_ne_zero some)
    exact offered.jobForKept p (by rwa [day]) ⟨x, List.mem_of_find?_eq_some found, findAccount_account a r.1 found⟩

theorem bookLines_steadied (hd : Hdr) (b : BookLinesBody) : Steadied (execBookLines hd b) := by
  refine .message fun s steady _ => ?_
  cases b with
  | incomplete => exact steady.reply hd _
  | full a ty ls =>
    dsimp only
    split
    · exact steady.reply hd _
    split
    · exact steady.reply hd _
    · next p ok =>
      obtain ⟨trading, room⟩ := bookLinesRefusal_trading ok
      exact takeBookLines_steady hd p a ty ls steady trading room

end

end Sys2Proof.Machine

namespace Sys2Proof.Machine

section
variable {s t : State}

/-! ## The engine keeps the bounds -/

/-- A day state in which no batch is started: RECOVERING or CLOSED. -/
def Halted (s : State) : Prop := s.day.state ≠ .opened ∧ s.day.state ≠ .cutoff ∧ s.day.state ≠ .closing

theorem Rooms.halted (h : Rooms s) (stopped : s.day.state = .recovering ∨ s.jc.unreadable = true) : Halted s := by
  rcases stopped with day | unreadable
  · unfold Halted
    simp [day]
  · obtain ⟨u, day⟩ := h.closed unreadable
    unfold Halted
    simp [day]

/-- Nothing changed but the queues and blocks without a part in the journal, and the engine. -/
def KeepsRest (s t : State) : Prop :=
  t.nv = s.nv ∧ t.nvBefore = s.nvBefore ∧ t.nvLog = s.nvLog ∧ t.pending = s.pending ∧ t.store = s.store ∧ t.queues = s.queues ∧
    t.jc.unreadable = s.jc.unreadable ∧ t.jc.replay = s.jc.replay ∧ t.day.state = s.day.state ∧ t.drawers = s.drawers ∧
    t.posns = s.posns

/-- A doing of the engine, in which no batch begins while the day is halted (R56, R167, R170). -/
theorem Steady.engine (h : Steady s) (tidy : Tidy t) (same : KeepsRest s t)
    (idle : Halted s → s.engine.batch = none → t.engine.batch = none) : Steady t := by
  obtain ⟨nv, before, log, pending, store, queues, unreadable, replay, day, drawers, posns⟩ := same
  have rooms := h.sound.rooms
  exact ⟨⟨tidy, h.sound.jobs.of_eq store queues, rooms.quiet ⟨nv, before, log, pending⟩ unreadable day
      (fun stopped => idle (rooms.halted stopped)) (.of_eq drawers) (rooms.contexts.of_eq drawers posns)⟩,
    h.calm.kept replay day fun off none => ⟨posns ▸ off, queues ▸ none⟩⟩

theorem resendAll_idle (none : s.engine.batch = none) : (resendAll s).engine.batch = .none := by
  unfold resendAll
  rw [none]
  exact none

theorem resumePaused_idle (none : s.engine.batch = none) : (resumePaused s).engine.batch = .none :=
  resendAll_idle (by simp [none])

theorem startFromIdle_halted (halted : Halted s) : startFromIdle s = s := by
  obtain ⟨opened, cutoff, closing⟩ := halted
  have unwanted : forwardWanted s = false := by simp [forwardWanted, opened, cutoff]
  unfold startFromIdle
  rw [if_neg closing, unwanted]
  split <;> rfl

theorem Steady.resendAll (h : Steady s) : Steady (resendAll s) :=
  h.engine (resendAll_tidy h.sound.tidy) (by simp [KeepsRest]) fun _ none => resendAll_idle none

theorem Steady.resumePaused (h : Steady s) : Steady (resumePaused s) :=
  h.engine (resumePaused_tidy h.sound.tidy) (by simp [KeepsRest]) fun _ none => resumePaused_idle none

theorem Steady.startFromIdle (h : Steady s) : Steady (startFromIdle s) :=
  h.engine (startFromIdle_tidy h.sound.tidy) (by simp [KeepsRest]) fun halted none => by rwa [startFromIdle_halted halted]

theorem Steady.engineLoss (h : Steady s) : Steady (engineLoss s) :=
  h.engine (engineLoss_tidy h.sound.tidy) (by simp [KeepsRest]) fun _ none => by
    unfold Machine.engineLoss
    split
    · exact none
    · exact none

theorem Steady.engineReturn (h : Steady s) : Steady (engineReturn s) := by
  unfold Machine.engineReturn
  split
  · exact h.resumePaused
  · exact h.startFromIdle
  · exact h
  · exact h

/-- The engine changed beside its batch. -/
theorem Steady.updEngine (h : Steady s) {f : Engine → Engine} (batch : (f s.engine).batch = s.engine.batch) :
    Steady (s.updEngine f) :=
  h.engine (updEngine_tidy f h.sound.tidy) (by simp [KeepsRest]) fun _ none => batch.trans none

theorem Steady.takeNotices (h : Steady s) : Steady (takeNotices s) := by
  refine List.foldlRecOn (motive := Steady) s.engine.notices _ (h.updEngine rfl) fun t ht n _ => ?_
  cases n with
  | loss => exact ht.engineLoss
  | back => exact ht.engineReturn

theorem withNotices_steady (b : Bool) {f : State → State} (hf : ∀ u, Steady u → u.day.state = s.day.state →
    u.jc.unreadable = s.jc.unreadable → Steady (f u)) (h : Steady s) : Steady (withNotices b f s) := by
  unfold withNotices
  split
  · exact hf _ h.takeNotices (by simp) (by simp)
  · exact hf _ h rfl rfl

theorem startBatch_steady (k : BatchKind) (h : Steady s) (running : ¬Halted s) : Steady (startBatch k s) :=
  h.engine (startBatch_tidy k h.sound.tidy) (by simp [KeepsRest]) fun halted => absurd halted running

theorem resumeFailed_steady (h : Steady s) : Steady (resumeFailed s) := h.resumePaused

theorem not_halted_trading (trading : s.day.state = .opened ∨ s.day.state = .cutoff) : ¬Halted s := fun halted =>
  trading.elim halted.1 halted.2.1

/-- A doing of the engine while the journal can be read. -/
theorem Steady.engineReadable (h : Steady s) (tidy : Tidy t) (same : KeepsRest s t) (readable : s.jc.unreadable = false)
    (settled : s.day.state ≠ .recovering) : Steady t := by
  obtain ⟨nv, before, log, pending, store, queues, unreadable, replay, day, drawers, posns⟩ := same
  have rooms := h.sound.rooms
  exact ⟨⟨tidy, h.sound.jobs.of_eq store queues, rooms.quiet ⟨nv, before, log, pending⟩ unreadable day
      (fun stopped => by
        rcases stopped with c | c
        · exact absurd c settled
        · rw [readable] at c; cases c) (.of_eq drawers) (rooms.contexts.of_eq drawers posns)⟩,
    h.calm.kept replay day fun off none => ⟨posns ▸ off, queues ▸ none⟩⟩

theorem sendDay_steadied (h : EngineHdr) : Steadied (execSendDay h) := by
  refine .message fun s steady settled => ?_
  split
  · next may =>
    have readable : s.jc.unreadable = false := by
      rcases may with may | closing
      · exact may.2
      · cases unreadable : s.jc.unreadable with
        | false => rfl
        | true =>
          obtain ⟨u, closed⟩ := steady.sound.rooms.closed unreadable
          rw [closing] at closed
          cases closed
    refine withNotices_steady _ (fun u hu day unreadable => Steady.reply h.hdr _ ?_) steady
    unfold sendDayEffect
    split
    · exact hu.engineReadable (startBatch_tidy .day hu.sound.tidy) (by simp [KeepsRest]) (unreadable.trans readable) (by rwa [day])
    · split
      · exact resumeFailed_steady hu
      · exact hu
  · exact steady.reply h.hdr _

theorem sendForward_steadied (h : EngineHdr) (k : SendKind) : Steadied (execSendForward h k) := by
  refine .message fun s steady _ => ?_
  cases k with
  | noKnownRequest => exact steady.reply h.hdr _
  | noKnownKind => exact withNotices_steady _ (fun u hu _ _ => hu.reply h.hdr _) steady
  | forward =>
    refine withNotices_steady _ (fun u hu _ _ => ?_) steady
    unfold takeSendForward
    split
    · next trading =>
      refine Steady.reply h.hdr _ ?_
      unfold sendForwardEffect
      split
      · split
        · exact startBatch_steady .forward hu (not_halted_trading trading)
        · exact hu
      · split
        · exact resumeFailed_steady hu
        · exact hu
    · exact hu.reply h.hdr _

theorem takeAck_steady (a : AckBody) (h : Steady s) : Steady (takeAck a s) := by
  cases batch : s.engine.batch with
  | none =>
    have same : takeAck a s = s := by
      unfold takeAck
      rw [batch]
    rwa [same]
  | some b =>
    have rooms := h.sound.rooms
    have running (stopped : s.day.state = .recovering ∨ s.jc.unreadable = true) : False := by
      have := rooms.idle stopped
      rw [batch] at this
      cases this
    have readable : s.jc.unreadable = false := by
      cases unreadable : s.jc.unreadable with
      | false => rfl
      | true => exact (running (Or.inr unreadable)).elim
    have frame : (takeAck a s).store = s.store ∧ (takeAck a s).queues = s.queues ∧ (takeAck a s).drawers = s.drawers ∧
        (takeAck a s).posns = s.posns ∧ (takeAck a s).jc.unreadable = s.jc.unreadable ∧
        (takeAck a s).jc.replay = s.jc.replay ∧ (takeAck a s).day.state = s.day.state := by
      unfold takeAck
      rw [batch]
      dsimp only
      split
      · split <;> simp
      · simp
    obtain ⟨store, queues, drawers, posns, unreadable, replay, day⟩ := frame
    exact ⟨⟨takeAck_tidy a h.sound.tidy, h.sound.jobs.of_eq store queues, rooms.entered readable (takeAck_grows a s)
        (Or.inr ⟨rfl, .of_eq drawers⟩) unreadable day (fun recovering => (running (Or.inl recovering)).elim)
        (rooms.contexts.of_eq drawers posns)⟩,
      h.calm.kept replay day fun off none => ⟨posns ▸ off, queues ▸ none⟩⟩

theorem transferAck_steadied (h : EngineHdr) (a : AckBody) : Steadied (execTransferAck h a) :=
  .silentMessage fun _ steady _ => withNotices_steady _ (fun _ hu _ _ => takeAck_steady a hu) steady

/-! ## RESTART keeps the bounds -/

theorem Steady.removeAllJobs (h : Steady s) : Steady (removeAllJobs s) :=
  ⟨⟨removeAllJobs_tidy h.sound.tidy, removeAllJobs_held h.sound.jobs, h.sound.rooms.quiet (removeAllJobs_quiet s) (by simp) (by simp)
      (fun _ none => by simpa using none) (.of_eq (by simp)) (h.sound.rooms.contexts.of_eq (by simp) (by simp))⟩,
    h.calm.kept (by simp) (by simp) fun off _ => ⟨by simpa using off, removeAllJobs_queues⟩⟩

theorem rangeRows_tidy : RowsTidy (List.range 20) := ⟨List.pairwise_lt_range, fun r hr => by rw [List.mem_range] at hr; omega⟩

theorem repaint_steady (p : Pos) (h : Steady s) : Steady (repaint p s) := by
  have shown := showByPart_tidy p (repaintForm s p) h.sound.tidy
  refine h.spine (shown.updScreen p ?_) (by simp [KeepsSpine, repaint])
  exact ⟨rangeRows_tidy, (shown.screens p).column, Nat.zero_le _⟩

theorem eachPos_steady {f : Pos → State → State} (hf : ∀ p u, Steady u → Steady (f p u)) (h : Steady s) : Steady (eachPos f s) :=
  List.foldlRecOn allPos _ h fun t ht p _ => hf p t ht

theorem restartEngine_steady (h : Steady s) : Steady (restartEngine s) := by
  unfold restartEngine
  split
  · exact h.resendAll
  · exact h.resumePaused
  · exact h
  · exact h

theorem restart_steadied (h : EngineHdr) : Steadied (execRestart h) := by
  refine .silentMessage fun s steady _ => ?_
  have keys : Steady { s with keys := mapV s.keys KeyUnit.restart } :=
    steady.spine (steady.sound.tidy.withKeys fun p => by simp [KeyUnit.restart]) (by simp [KeepsSpine])
  unfold restart
  exact withNotices_steady _ (fun u hu _ _ => restartEngine_steady hu)
    (eachPos_steady (fun p u hu => repaint_steady p hu) (eachPos_steady (fun p u hu => hu.release p) keys)).removeAllJobs

end

end Sys2Proof.Machine

namespace Sys2Proof.Machine

section
variable {s t : State}

/-! ## The day's opening keeps the bounds -/

theorem openRefusal_closed {b : OpenBody} (h : openRefusal b s = none) : ∃ u, s.day.state = .closed u := by
  unfold openRefusal at h
  split at h
  · next u day => exact ⟨u, day⟩
  · cases h

theorem openingEntries_slots (src : OpenSource) (b : OpenBody) (s : State) :
    ((openingEntries src b s).map kindSlots).sum = 32 := by
  unfold openingEntries
  have two (p : Pos) : kindSlots (.opening p b.date src (b.discard && s.day.state == .closed true) (rd (openingAmounts b s) p)) = 2 :=
    rfl
  have sixteen : allPos.length = 16 := by decide
  simp [Function.comp_def, two, sixteen]

theorem openEvent_steady (src : OpenSource) (b : OpenBody) (h : Steady s) (closed : ∃ u, s.day.state = .closed u) :
    Steady (openEvent src b s) := by
  obtain ⟨u, day⟩ := closed
  have rest := h.calm.2 (by rw [day]; rfl)
  have tidy := openEvent_tidy src b h.sound.tidy
  obtain ⟨v, hv⟩ : ∃ v, v = appendAll (openingEntries src b s) (openCleared b s) := ⟨_, rfl⟩
  have cleared : CutsHold GoodFits (openCleared b s) :=
    (h.sound.rooms.cuts.write (w := .control ⟨⟨b.date, some .opened, 0, 0, 0, true⟩, _⟩) fun _ _ => Nat.zero_le _).quiet ⟨rfl, rfl, rfl, rfl⟩
  have grows : Grows 32 (openCleared b s) v := by
    rw [hv, ← openingEntries_slots src b s]
    exact appendAll_grows _ _
  have start : slotsUsed (openCleared b s) = 0 := rfl
  have used := grows.used
  have cuts := grows.cuts (fun _ => by rw [start]; decide) cleared
  have unreadable : v.jc.unreadable = false := by simp [hv, openCleared]
  have replay : v.jc.replay = none := by
    have : v.jc.replay = s.jc.replay := by simp [hv, openCleared]
    rw [this]
    exact h.calm.noReplay (by rw [day]; exact fun c => nomatch c)
  have queues : v.queues = s.queues := by simp [hv, openCleared]
  have ctx (p : Pos) : (rd (openStarted b (openingAmounts b s) v).drawers p).ctx = none := by
    have drawers : (openStarted b (openingAmounts b s) v).drawers = tabV fun p => openDrawer (rd (openingAmounts b s) p) := rfl
    rw [drawers, rd_tabV]
    rfl
  have room : slotsUsed (openStarted b (openingAmounts b s) v) ≤ 32 := by
    have : slotsUsed (openStarted b (openingAmounts b s) v) = slotsUsed v := rfl
    omega
  have balances := openBalances_le (openStarted b (openingAmounts b s) v)
  rw [openEvent_eq, ← hv] at tidy ⊢
  have opened : (openStarted b (openingAmounts b s) v).day.state = .opened := rfl
  refine ⟨⟨tidy, jobsHeld_emptied .nil (fun n => ?_) fun a => ?_, ⟨cuts.quiet (openStarted_quiet ..), fun _ => ?_, fun _ _ => ?_,
    fun _ => ?_, fun c => ?_, fun c => ?_, fun p c => absurd (ctx p) c⟩⟩, fun c => ?_, fun c => ?_⟩
  · show rd v.queues n = []
    rw [queues]
    exact rest.2 n
  · rintro ⟨r, mem, -⟩
    cases mem
  · omega
  · exact room.trans (by decide)
  · omega
  · exact absurd (unreadable.symm.trans c) (by decide)
  · rcases c with c | c
    · cases opened.symm.trans c
    · exact absurd (unreadable.symm.trans c) (by decide)
  · exact absurd replay c
  · rw [opened] at c
    cases c

theorem openDay_steadied (hd : Hdr) (b : OpenBody) : Steadied (execOpen hd b) := by
  refine .message fun s steady _ => ?_
  split
  · exact steady.reply hd _
  split
  · exact steady.reply hd _
  · exact steady.reply hd _
  · next may => exact (openEvent_steady _ b steady (openRefusal_closed may)).reply hd _

/-! ## The entry to CUTOFF keeps the bounds -/

theorem enterCutoff_steady {c : CutoffCause} (h : Steady s) (trading : s.day.state = .opened ∨ s.day.state = .cutoff)
    (ok : enterCutoff c s = .ok t) : Steady t := by
  have tidy := enterCutoff_tidy h.sound.tidy ok
  have readable := h.sound.rooms.readable trading
  have replay : s.jc.replay = none := h.calm.noReplay (by rcases trading with c | c <;> rw [c] <;> decide)
  unfold enterCutoff at ok
  split at ok
  · cases ok
  next may =>
  have room := fits_control_room (refusal_none may).2.2
  obtain ⟨v, hv⟩ : ∃ v, v = append (.cutoff c) (placeMidnight .control s) := ⟨_, rfl⟩
  have grows : Grows (midnightSlots .control s + 1) s v :=
    hv ▸ (placeMidnight_grows .control s).trans (append_grows (.cutoff c) _)
  have used : slotsUsed v ≤ 16256 := grows.used.trans (by omega)
  have cuts := grows.cuts (fun _ => by omega) h.sound.rooms.cuts
  have frame : v.jc.unreadable = s.jc.unreadable ∧ v.jc.replay = s.jc.replay ∧ v.store = s.store ∧ v.queues = s.queues ∧
      v.drawers = s.drawers ∧ v.posns = s.posns := by simp [hv]
  obtain ⟨unreadable, vreplay, store, queues, drawers, posns⟩ := frame
  rw [readable] at unreadable
  rw [← hv] at ok
  have few (w : ControlRec) (hw : w.fields.slotsUsed = slotsUsed v) : ClosingFits { v.nv with control := w } := fun _ =>
    hw.le.trans (used.trans (by decide))
  cases ok
  refine ⟨⟨tidy, h.sound.jobs.of_eq store queues, ⟨CutsHold.quiet
      (s := writeControl (fun c => { c with day := some .cutoff }) v) (cuts.write fun _ => few _ rfl) ⟨rfl, rfl, rfl, rfl⟩,
    fun _ => used.trans (by decide), fun _ => few _ rfl, fun _ => ?_, fun c => ?_, fun c => ?_,
    h.sound.rooms.contexts.of_eq drawers posns⟩⟩, fun c => absurd (vreplay.trans replay) c, fun c => nomatch c⟩
  · have balances := openBalances_le (setDay .cutoff (State.updDay (fun d => { d with alarm := none })
      (writeControl (fun c => { c with day := some .cutoff }) v)))
    exact (Nat.add_le_add_right (Nat.add_le_add used balances) 1).trans (by decide)
  · exact absurd (unreadable.symm.trans c) (by decide)
  · rcases c with c | c
    · cases c
    · exact absurd (unreadable.symm.trans c) (by decide)

theorem reportCutoff_steady (c : CutoffCause) (h : Steady s) : Steady (reportCutoff c s) := h.report _ _

theorem closeDay_steadied (hd : Hdr) : Steadied (execClose hd) := by
  refine .message fun s steady _ => ?_
  split
  · exact steady.reply hd _
  · next opened =>
    split
    · exact steady.reply hd _
    · next ok =>
      exact reportCutoff_steady _ ((enterCutoff_steady steady (Or.inl (not_not.1 opened)) ok).reply hd _)

/-! ## The CLOSE entry -/

/-- The CLOSE entry and the day it records leave no cut without its room, and take one slot (R67, R69). -/
theorem appendClose_spec (forced : Bool) {day : RecDay} (last : day = .closing ∨ day = .closed) (cuts : CutsHold GoodFits s) :
    let t := appendClose forced day s
    CutsHold GoodFits t ∧ slotsUsed t = slotsUsed s + 1 ∧ ¬RecordedOpen t.nv := by
  obtain ⟨u, hu⟩ : ∃ u, u = nvWrite (.slots (makeEntry (.close forced (slotsUsed s + 1) (nextSeq s)) s)) s := ⟨_, rfl⟩
  obtain ⟨v, hv⟩ : ∃ v, v = writeControl (fun c => { c with
    slotsUsed := c.slotsUsed + 1, entryCount := c.entryCount + 1, day := some day, undelivered := c.undelivered || forced }) u :=
    ⟨_, rfl⟩
  have closed : ¬RecordedOpen v.nv := by
    rw [hv]
    rintro (c | c) <;> rcases last with rfl | rfl <;> cases c
  have written : CutsHold GoodFits v := by
    have slots : CutsHold GoodFits u := hu ▸ cuts.write cuts.now
    rw [hv] at closed ⊢
    exact slots.write fun _ c => absurd c closed
  have result : appendClose forced day s = lowSpaceCheck v := by rw [hv, hu]; rfl
  have quiet := lowSpaceCheck_quiet v
  have slots : slotsUsed v = slotsUsed s + 1 := by rw [hv, hu]; rfl
  dsimp only
  rw [result]
  refine ⟨written.quiet quiet, ?_, ?_⟩
  · unfold slotsUsed at slots ⊢
    rw [quiet.1]
    exact slots
  · rw [quiet.1]
    exact closed

end

/-! ## The forced close keeps the bounds -/

section
variable {s t : State}

theorem abandonEntries_slots (s : State) : ((abandonEntries s).map kindSlots).sum = openBalances s ∧
    (abandonEntries s).length = openBalances s := by
  unfold abandonEntries openBalances
  induction allPos with
  | nil => exact ⟨rfl, rfl⟩
  | cons p ps ih =>
    cases ctx : (rd s.drawers p).ctx with
    | none => simpa [ctx] using ih
    | some c => simpa [ctx, kindSlots, Nat.add_comm] using ih

theorem withGroups_contexts (g : Vector (Option GroupRec) 16) (h : Contexts s) : Contexts { s with groups := g } := h

theorem signOffAll_contexts (h : Contexts s) : Contexts (signOffAll s) := by
  refine withGroups_contexts _ (List.foldlRecOn (motive := Contexts) allPos _ h fun t ht p _ => ?_)
  dsimp only
  split
  · exact ht
  · exact signOffPos_contexts p ht

theorem forceCleared_contexts (h : Contexts s) : Contexts (forceCleared s) :=
  (signOffAll_contexts (s := disarmed s) h).of_eq (by simp [forceCleared, disarmed]) (by simp [forceCleared, disarmed])

theorem midnightSlots_closing (s : State) : midnightSlots .closing s = 0 ∨
    midnightSlots .closing s = 1 ∧ slotsUsed s + 1 ≤ 16256 := by
  unfold midnightSlots
  split
  · next ahead =>
    refine Or.inr ⟨rfl, ?_⟩
    simp only [midnightAhead, Bool.and_eq_true, Bool.or_eq_true, bne_self_eq_false, Bool.false_eq_true, false_or,
      decide_eq_true_eq] at ahead
    exact ahead.2
  · exact Or.inl rfl

/-- The entries of a forced close stay within the journal, and leave no cut without the CLOSE entry's room (R36, R69). -/
theorem forceCloseEntries_room (h : Rooms s) (trading : s.day.state = .opened ∨ s.day.state = .cutoff) {u : State}
    (q : Quiet s u) : let t := (forceCloseEntries (abandonEntries (disarmed s)) u).1
    CutsHold GoodFits t ∧ slotsUsed t ≤ 16384 ∧ ¬RecordedOpen t.nv := by
  obtain ⟨slots, count⟩ := abandonEntries_slots (disarmed s)
  have balances : openBalances (disarmed s) = openBalances s := rfl
  have same : slotsUsed u = slotsUsed s := by unfold slotsUsed; rw [q.1]
  have reserved := h.trading trading
  have few := openBalances_le s
  have midnight := midnightSlots_closing u
  obtain ⟨v, hv⟩ : ∃ v, v = appendAll (abandonEntries (disarmed s)) (placeMidnight .closing u) := ⟨_, rfl⟩
  have entered : Grows (midnightSlots .closing u + openBalances s) u v := by
    rw [hv, ← balances, ← slots]
    exact (placeMidnight_grows .closing u).trans (appendAll_grows _ _)
  have ends (w : State) (k : Nat) (grows : Grows k u w) (room : slotsUsed u + k ≤ 16383) :
      CutsHold GoodFits (appendClose true .closed w) ∧ slotsUsed (appendClose true .closed w) ≤ 16384 ∧
        ¬RecordedOpen (appendClose true .closed w).nv := by
    obtain ⟨cuts, used, closed⟩ := appendClose_spec true (Or.inr rfl) (grows.cuts (fun _ => room) (h.cuts.quiet q))
    have := grows.used
    exact ⟨cuts, by omega, closed⟩
  unfold forceCloseEntries
  dsimp only
  rw [← hv]
  split
  · next whole =>
    have fit := (fits_iff .closing _ u).1 whole
    simp only [CapClass.limit, Config.closingLimit] at fit
    exact ends _ _ (entered.trans (appendBacklogs_grows (backlogs u) v)) (by omega)
  · exact ends _ _ entered (by omega)

/-- The control record written with the day CLOSED and the slots as they were. -/
theorem recordClosed_spec {f : ControlFields → ControlFields} (day : ∀ c, (f c).day = some .closed)
    (slots : ∀ c, (f c).slotsUsed = c.slotsUsed) (cuts : CutsHold GoodFits s) : let t := writeControl f s
    CutsHold GoodFits t ∧ slotsUsed t = slotsUsed s ∧ ¬RecordedOpen t.nv := by
  have closed : ¬RecordedOpen (writeControl f s).nv := by
    rintro (c | c) <;> cases (day _).symm.trans c
  exact ⟨cuts.write fun _ c => absurd c closed, slots _, closed⟩

theorem abandonBatch_emptied (s : State) : let t := abandonBatch { s with store := [] }
    Quiet s t ∧ t.jc = s.jc ∧ t.posns = s.posns ∧ t.queues = s.queues ∧ t.drawers = s.drawers ∧ t.store = [] ∧
      t.engine.batch = none := ⟨⟨rfl, rfl, rfl, rfl⟩, rfl, rfl, rfl, rfl, rfl, rfl⟩

theorem forceJournaled_jc (s : State) : (forceJournaled s).1.jc.unreadable = s.jc.unreadable ∧
    (forceJournaled s).1.jc.replay = s.jc.replay := by
  obtain ⟨-, -, -, cleared, -⟩ := forceCleared_frame s
  unfold forceJournaled
  split
  · simp
  · obtain ⟨-, -, -, -, jc, -⟩ := forceCloseEntries_spec (ab := abandonEntries (disarmed s)) (abandonEntries_bodies s) (forceCleared s)
    rw [jc, cleared]
    exact ⟨rfl, rfl⟩

theorem forceCloseEvent_steady (rb : Option RetainedRec) (h : Steady s) (running : ¬isClosed s = true)
    (settled : s.day.state ≠ .recovering) : Steady (forceCloseEvent rb s).1 := by
  have tidy := forceCloseEvent_tidy rb h.sound.tidy
  have readable : s.jc.unreadable = false := by
    cases unreadable : s.jc.unreadable with
    | false => rfl
    | true => exact absurd ((isClosed_iff s).2 (h.sound.rooms.closed unreadable)) running
  have cleared : Quiet s (forceCleared s) := by simp [Quiet, forceCleared]
  have day : (forceCleared s).day.state = s.day.state := by rw [((forceCleared_frame s).2.2.2.2.1)]
  have journaled : CutsHold GoodFits (forceJournaled s).1 ∧ slotsUsed (forceJournaled s).1 ≤ 16384 ∧
      ¬RecordedOpen (forceJournaled s).1.nv := by
    unfold forceJournaled
    rw [day]
    by_cases closing : s.day.state = .closing
    · rw [if_pos closing]
      obtain ⟨cuts, used, closed⟩ := recordClosed_spec (f := fun c => { c with day := some .closed, undelivered := true }) (fun _ => rfl)
        (fun _ => rfl) (h.sound.rooms.cuts.quiet cleared)
      have same : slotsUsed (forceCleared s) = slotsUsed s := by unfold slotsUsed; rw [cleared.1]
      exact ⟨cuts, (used.trans same).le.trans (h.sound.rooms.used readable), closed⟩
    · rw [if_neg closing]
      have trading : s.day.state = .opened ∨ s.day.state = .cutoff := by
        cases state : s.day.state with
        | opened => exact Or.inl rfl
        | cutoff => exact Or.inr rfl
        | closing => exact absurd state closing
        | recovering => exact absurd state settled
        | closed u => exact absurd ((isClosed_iff s).2 ⟨u, state⟩) running
      exact forceCloseEntries_room h.sound.rooms trading cleared
  obtain ⟨cuts, used, closed⟩ := journaled
  obtain ⟨off, stays, -, -, queues, -⟩ := forceCleared_spec s
  obtain ⟨unread, replay⟩ := forceJournaled_jc s
  obtain ⟨-, posns, -, -, drawers, -, -, qs, -⟩ := forceJournaled_frame s
  have signedOff (p : Pos) : (rd (forceCleared s).posns p).state = .signedOff := by
    by_cases c : (rd s.posns p).state = .signedOff
    · rw [(stays p c).1, c]
    · rw [(off p c).1]
      unfold leftFor
      split
      · rfl
      · rfl
  have contexts := (forceCleared_contexts h.sound.rooms.contexts).of_eq (t := (forceJournaled s).1) drawers posns
  rw [forceCloseEvent_eq] at tidy ⊢
  unfold forceRetained at tidy ⊢
  obtain ⟨u, hu⟩ : ∃ u, u = (forceJournaled s).1 := ⟨_, rfl⟩
  rw [← hu] at cuts used closed unread replay posns qs contexts tidy ⊢
  obtain ⟨quiet, vjc, vposns, vqueues, vdrawers, store, batch⟩ := abandonBatch_emptied u
  obtain ⟨v, hv⟩ : ∃ v, v = abandonBatch { u with store := [] } := ⟨_, rfl⟩
  rw [← hv] at quiet vjc vposns vqueues vdrawers store batch tidy ⊢
  have retained := writeRetained_grows .forceClose rb v
  obtain ⟨w, hw⟩ : ∃ w, w = setDay (.closed true) (writeRetained .forceClose rb v) := ⟨_, rfl⟩
  have same : Quiet (writeRetained .forceClose rb v) w := by rw [hw]; exact ⟨rfl, rfl, rfl, rfl⟩
  have frame : w.jc = v.jc ∧ w.posns = v.posns ∧ w.queues = v.queues ∧ w.drawers = v.drawers ∧ w.store = v.store ∧
      w.engine = v.engine ∧ w.day.state = .closed true := by
    refine ⟨?_, ?_, ?_, ?_, ?_, ?_, by rw [hw]; rfl⟩ <;> simp [hw]
  obtain ⟨wjc, wposns, wqueues, wdrawers, wstore, wengine, wday⟩ := frame
  rw [← hw] at tidy ⊢
  show Steady w
  have grows := retained.andQuiet same
  have unread := (congrArg JournalCtl.unreadable (wjc.trans vjc)).trans unread
  have noReplay := ((congrArg JournalCtl.replay (wjc.trans vjc)).trans replay).trans (h.calm.noReplay settled)
  have slots : slotsUsed v = slotsUsed u := by unfold slotsUsed; rw [quiet.1]
  have notOpen : ¬RecordedOpen w.nv := by
    unfold RecordedOpen at closed ⊢
    rw [grows.day, quiet.1]
    exact closed
  have balances := openBalances_le w
  have empty (n : Prn) : rd w.queues n = [] := by rw [wqueues, vqueues, qs]; exact queues n
  have off (p : Pos) : (rd w.posns p).state = .signedOff := by rw [wposns, vposns, posns]; exact signedOff p
  refine ⟨⟨tidy, jobsHeld_emptied (wstore.trans store ▸ .nil) empty fun a => ?_, ⟨grows.cuts (fun c => ?_) (cuts.quiet quiet),
    fun _ => ?_, fun _ c => absurd c notOpen, fun c => ?_, fun _ => ⟨true, wday⟩, fun _ => ?_,
    contexts.of_eq (wdrawers.trans vdrawers) (wposns.trans vposns)⟩⟩, fun c => absurd noReplay c, fun _ => ⟨off, empty⟩⟩
  · rw [wstore, store]
    rintro ⟨r, mem, -⟩
    cases mem
  · rw [quiet.1] at c
    exact absurd c closed
  · have := grows.used
    omega
  · rw [wday] at c
    rcases c with c | c <;> cases c
  · rw [wengine]
    exact batch

theorem forceClose_steadied (hd : Hdr) (rb : Option RetainedRec) : Steadied (execForceClose hd rb) := by
  refine .message fun s steady settled => ?_
  split
  · exact steady.reply hd _
  · next running =>
    exact ((forceCloseEvent_steady rb steady running settled).reply hd _).report _ _

end

end Sys2Proof.Machine

namespace Sys2Proof.Machine

/-! ## Every message keeps the bounds -/

/-- Every message leaves what messages meet. -/
theorem takeMessage_steadied (c : Instr) : Steadied (takeMessage c) := by
  cases c with
  | unknownKind hd k => exact unknownKind_steadied hd k
  | lineCheck => exact .event fun _ steady => steady.arrive
  | paint hd b => exact paint_steadied hd b
  | form hd n b => exact form_steadied hd n b
  | notice hd b => exact notice_steadied hd b
  | post hd b => exact post_steadied hd b
  | bookLines hd b => exact bookLines_steadied hd b
  | formFieldsLoad hd i c => exact .tableMessage fun _ => loadFormFields_steady hd i c
  | formTextLoad hd i c => exact .tableMessage fun _ => loadFormText_steady hd i c
  | postingCodesLoad hd i c => exact .tableMessage fun _ => loadCode_steady hd i c
  | currenciesLoad hd i c => exact .tableMessage fun _ => loadCurrency_steady hd i c
  | ratesLoad hd i c => exact .tableMessage fun _ => loadRate_steady hd i c
  | limitClassesLoad hd i c => exact .tableMessage fun _ => loadLimit_steady hd i c
  | positionsLoad hd i c => exact .tableMessage fun _ => loadPosition_steady hd i c
  | bookLayoutsLoad hd i c => exact .tableMessage fun _ => loadLayout_steady hd i c
  | parametersLoad hd i c => exact .tableMessage fun _ => loadParams_steady hd i c
  | tableLoadReadOnly hd b => exact .tableMessage fun _ => loadBare_steady hd b
  | tableQuery hd b => exact tableQuery_steadied hd b
  | positionsQuery hd i => exact .tableMessage fun _ => answerQuery_steady hd 7 i
  | drawerQuery hd i => exact .tableMessage fun _ => answerQuery_steady hd 10 i
  | printerStatusQuery hd i => exact .tableMessage fun _ => answerQuery_steady hd 11 i
  | journalStatusQuery hd i => exact .tableMessage fun _ => answerQuery_steady hd 12 i
  | dayAndLineStatusQuery hd i => exact .tableMessage fun _ => answerQuery_steady hd 13 i
  | openDay hd b => exact openDay_steadied hd b
  | closeDay hd => exact closeDay_steadied hd
  | setTime hd n => exact setTime_steadied hd n
  | setCutoff hd n => exact setCutoff_steadied hd n
  | clearCutoff hd => exact clearCutoff_steadied hd
  | forceClose hd rb => exact forceClose_steadied hd rb
  | sendDay h => exact sendDay_steadied h
  | sendForward h k => exact sendForward_steadied h k
  | signOn hd b => exact signOn_steadied hd b
  | forceSignOff hd => exact forceSignOff_steadied hd
  | unlock hd => exact unlock_steadied hd
  | positionControlBalance hd k => exact balanceRequest_steadied hd k
  | positionControlGroupBalance hd k => exact groupRequest_steadied hd k
  | transferAck h b => exact transferAck_steadied h b
  | restart h => exact restart_steadied h
  | _ => exact .event fun _ steady => steady

/-- Bytes put out change no bound. -/
theorem Steady.putOut {s : State} (x : List Output) (h : Steady s) : Steady { s with out := x } :=
  h.spine h.sound.tidy ⟨rfl, rfl, rfl, rfl, rfl, rfl, rfl, rfl, rfl, rfl, rfl, rfl⟩

theorem handOn_steady (nf : Bool) (rb : Option RetainedRec) {s : State} (e : FrameEvent) (h : Steady s) : Steady (handOn nf rb s e) := by
  cases e with
  | discarded => exact h
  | message m =>
    obtain ⟨t, run, -⟩ := takeMessage_pending (frameCommand nf rb m) s
    rw [handOn_message nf rb s m run]
    rcases takeMessage_steadied _ s t h.begin run with rfl | steady
    · exact h.putOut _
    · exact steady.putOut _

/-- The bytes of the host line keep the bounds, message for message (R172). -/
theorem frameDiscard_steadied (i : Inbound) : Steadied (execFrameDiscard i) := by
  refine .event fun s h => ?_
  have messages := List.foldlRecOn (motive := Steady) (runFramer s.line.framer i.bytes).2 (handOn i.noticesFirst i.readBack) h
    fun t ht e _ => handOn_steady i.noticesFirst i.readBack e ht
  exact messages.spine (messages.sound.tidy.updLine messages.sound.tidy.outbound) (by simp [takeBytes, KeepsSpine])

end Sys2Proof.Machine

namespace Sys2Proof.Machine

section
variable {s t : State}

/-! ## The editor's own doings keep the bounds -/

theorem Steady.tone (p : Pos) (h : Steady s) : Steady (tone p s) := h.spine (tone_tidy p h.sound.tidy) (by simp [KeepsSpine])

theorem Steady.notice (p : Pos) {text : List Byte} (fits : text.length ≤ 80) (h : Steady s) : Steady (notice p text s) :=
  h.spine (notice_tidy p fits h.sound.tidy) (by simp [KeepsSpine])

theorem Steady.statusNotice (p : Pos) (st : Status) (h : Steady s) : Steady (Machine.notice p st.name s) :=
  h.notice p (statusName_length st)

theorem Steady.setCursor (p : Pos) (i x : Nat) (h : Steady s) : Steady (setCursor p i x s) :=
  h.spine (setCursor_tidy p i x h.sound.tidy) (by simp [KeepsSpine])

theorem Steady.setValue (p : Pos) (i : Nat) (v : List Byte) (h : Steady s) : Steady (setValue p i v s) :=
  h.spine (setValue_tidy p i v h.sound.tidy) (by simp [KeepsSpine])

theorem Steady.clearForm (p : Pos) (h : Steady s) : Steady (clearForm p s) :=
  h.spine (clearForm_tidy p h.sound.tidy) (by simp [KeepsSpine])

theorem atCursor_steady {p : Pos} {f : Nat → FieldDesc → State → State} (hf : ∀ i d, Steady (f i d s)) (h : Steady s) :
    Steady (atCursor p f s) := by
  unfold atCursor
  split
  · exact h.tone p
  split
  · exact h.tone p
  · exact hf _ _

theorem typeText_steady (p : Pos) (b : Byte) (i : Nat) (d : FieldDesc) (h : Steady s) : Steady (typeText p b i d s) := by
  unfold typeText
  dsimp only
  split
  · exact (h.setValue p i _).setCursor p _ _
  · exact (h.setValue p i _).setCursor p _ _

theorem typeChar_steady (p : Pos) (b : Byte) (h : Steady s) : Steady (typeChar p b s) := by
  refine atCursor_steady (fun i d => ?_) h
  split
  · split
    · exact typeText_steady p b i d h
    · exact h.tone p
  · split
    · exact h.setValue p i _
    · exact h.tone p

theorem backspaceField_steady (p : Pos) (h : Steady s) : Steady (backspaceField p s) := by
  refine atCursor_steady (fun i d => ?_) h
  dsimp only
  split
  · split
    · exact h.tone p
    · exact (h.setValue p i _).setCursor p i _
  · split
    · exact h.tone p
    · exact h.setValue p i _

theorem eraseCursorField_steady (p : Pos) (h : Steady s) : Steady (eraseCursorField p s) := by
  refine atCursor_steady (fun i d => ?_) h
  split
  · exact (h.setValue p i _).setCursor p i 0
  · exact h.setValue p i _

/-! ## The take of a token -/

/-- A token taken from a queue leaves the queue shorter. -/
theorem Steady.popped (p : Pos) {x : Token} {rest : List Token} (queue : (rd s.keys p).queue = x :: rest) (h : Steady s) :
    Steady (s.updKeys p fun k => { k with queue := rest }) := by
  refine h.spine (h.sound.tidy.updKeys p ?_) (by simp [KeepsSpine])
  have := h.sound.tidy.keys p
  rw [queue, List.length_cons] at this
  exact (Nat.le_succ _).trans this

theorem takeToken_steady (p : Pos) (want : Token → Bool) {act : Token → State → State}
    (hact : ∀ x u, Steady u → Steady (act x u)) (h : Steady s) : Steady (takeToken p want act s) := by
  unfold takeToken
  split
  · exact h
  · next x rest queue =>
    have popped := h.popped p queue
    split
    · dsimp only
      split
      · exact h
      · exact hact x _ popped
      · split
        · exact hact x _ popped
        · exact popped.tone p
      · exact popped.tone p
    · exact h

theorem Steadied.key {p : Pos} {want : Token} {act : State → State} (hact : ∀ s, Steady s → Steady (act s)) :
    Steadied (keyCommand p want act) := .event fun _ h => takeToken_steady p _ (fun _ => hact) h

theorem keyToken_steadied (p : Pos) (x : Token) : Steadied (execKeyToken p x) := by
  refine .event fun s h => ?_
  split
  · next room =>
    refine h.spine (h.sound.tidy.updKeys p ?_) (by simp [KeepsSpine])
    simpa [Config.keyMax] using room
  · exact h.tone p

theorem character_steadied (p : Pos) : Steadied (execCharacter p) := by
  refine .event fun s h => takeToken_steady p _ (fun x u hu => ?_) h
  split
  · exact typeChar_steady p _ hu
  · exact hu

theorem fieldNext_steadied (p : Pos) : Steadied (execFieldNext p) :=
  .key fun _ h => atCursor_steady (fun _ _ => h.setCursor p _ 0) h

theorem fieldBack_steadied (p : Pos) : Steadied (execFieldBack p) :=
  .key fun _ h => atCursor_steady (fun _ _ => h.setCursor p _ 0) h

theorem clear_steadied (p : Pos) : Steadied (execClear p) := by
  refine .key fun s h => ?_
  split
  · exact h.tone p
  · exact h.clearForm p

/-! ## TRANSMIT -/

theorem digitsAux_length (fuel n : Nat) (ds : List Nat) : (digitsAux fuel n ds).length ≤ ds.length + fuel := by
  induction fuel generalizing n ds with
  | zero => exact le_rfl
  | succ fuel ih =>
    unfold digitsAux
    split
    · omega
    · have := ih (n / 10) (n % 10 :: ds)
      rw [List.length_cons] at this
      omega

theorem textAccepted_fits (seq : Nat) : (textAccepted seq).length ≤ 80 := by
  have digits := digitsAux_length 40 seq []
  simp only [textAccepted, decimal, digitsPad, List.length_append, List.length_map, List.length_replicate, List.length_nil] at digits ⊢
  have name : Status.accepted.name.length ≤ 10 := by decide
  simp only [List.length_cons, List.length_nil]
  omega

/-- A position's record changed in its numbers. -/
theorem Steady.numbered (p : Pos) {f : PosRec → PosRec} (state : ∀ r, (f r).state = r.state) (h : Steady s) :
    Steady (s.updPos p f) := by
  refine ⟨h.sound.positions (updPos_tidy p f h.sound.tidy) ⟨rfl, rfl, rfl, rfl⟩ rfl rfl rfl rfl rfl rfl
    (h.sound.rooms.contexts.updPos p fun busy => (state _).trans busy), h.calm.kept rfl rfl fun off none => ⟨fun q => ?_, none⟩⟩
  rw [State.updPos_posns, rd_upd]
  split
  · next same => rw [state, ← same]; exact off _
  · exact off q

theorem Steady.enqueue (m : OutMsg) (h : Steady s) (room : outboundRoom s = true) : Steady (enqueue m s) :=
  h.spine (enqueue_tidy_of_room m h.sound.tidy room) (by simp [KeepsSpine])

theorem sendSignOn_steady (p : Pos) (n : Fin 32) (d : FormDesc) (h : Steady s) : Steady (sendSignOn p n d s) := by
  unfold sendSignOn
  split
  · next room => exact (h.enqueue _ room).numbered p fun _ => rfl
  · exact h.notice p (by decide)

theorem sendEntry_steady (p : Pos) (n : Fin 32) (d : FormDesc) (h : Steady s) (ready : (rd s.posns p).state = .ready) :
    Steady (sendEntry p n d s) := by
  unfold sendEntry
  split
  · next room =>
    have queued := h.enqueue (entryMessage s p n d) room
    have moved : Steady ((enqueue (entryMessage s p n d) s).updPos p moveToAwaiting) := by
      refine ⟨queued.sound.positions (updPos_tidy p _ queued.sound.tidy) ⟨rfl, rfl, rfl, rfl⟩ rfl rfl rfl rfl rfl rfl
        (queued.sound.rooms.contexts.updPos p fun busy => ?_), queued.calm.trading ?_ rfl rfl⟩
      · rw [show (enqueue (entryMessage s p n d) s).posns = s.posns by simp, ready] at busy
        cases busy
      · simpa using h.calm.trades (p := p) (by rw [ready]; decide)
    refine moved.spine ?_ (by simp [KeepsSpine])
    exact cursorToFirst_tidy p (markRow0_tidy p (moved.sound.tidy.editKeys p fun _ => rfl))
  · exact h.notice p (by decide)

theorem refuseStandIn_steady (p : Pos) (d : FormDesc) (st : Status) (h : Steady s) : Steady (refuseStandIn p d st s) := by
  unfold refuseStandIn
  dsimp only
  split
  · exact ((h.statusNotice p st).tone p).setCursor p _ 0
  · exact (h.statusNotice p st).tone p

theorem standInCheck_posting {p : Pos} {d : FormDesc} {req : PostReq} {pl : Plan} (h : standInCheck s p d = .ok (req, pl)) :
    checkPosting req s = .ok pl := by
  unfold standInCheck at h
  split_ifs at h
  split at h
  · cases h
  split at h
  · cases h
  · next ok =>
    split at h
    · cases h
    · cases h
      exact ok

theorem standInAttempt_steady (p : Pos) (d : FormDesc) (h : Steady s) : Steady (standInAttempt p d s) := by
  have numbered := h.numbered p (f := nextEntryNo) fun _ => rfl
  unfold standInAttempt
  dsimp only
  split
  · exact refuseStandIn_steady p d _ numbered
  · next req pl ok =>
    obtain ⟨trading, room⟩ := checkPosting_trading (standInCheck_posting ok)
    have posted := applyPosting_steady false req pl numbered trading room
    unfold takeStandIn
    dsimp only
    generalize applyPosting false req pl _ = x at posted
    refine Steady.clearForm p (Steady.notice p (textAccepted_fits x.2) (posted.numbered p ?_))
    exact fun _ => rfl

theorem refuseDeclaration_steady (p : Pos) (st : Status) (i : Option Nat) (h : Steady s) : Steady (refuseDeclaration p st i s) :=
  h.spine (refuseDeclaration_tidy p st i h.sound.tidy) (by simp [KeepsSpine])

theorem declare_steady (p : Pos) (d : FormDesc) (h : Steady s) : Steady (declare p d s) := by
  unfold declare
  split
  · exact h
  · next c ctx =>
    split
    · exact refuseDeclaration_steady p _ _ h
    split
    · exact refuseDeclaration_steady p _ _ h
    · next room =>
      have busy := h.sound.rooms.contexts p (by rw [ctx]; exact Option.some_ne_none c)
      exact takeDeclaration_steady p c _ h ctx rfl (h.calm.trades (by rw [busy]; decide)) (refusal_none room).2.2

theorem routeTransmit_steady (p : Pos) (n : Fin 32) (d : FormDesc) (h : Steady s) : Steady (routeTransmit p n d s) := by
  unfold routeTransmit
  split
  · split
    · exact sendSignOn_steady p n d h
    · exact (h.statusNotice p .tellerState).tone p
  · next ready =>
    split
    · exact h.tone p
    split
    · exact sendEntry_steady p n d h ready
    · exact standInAttempt_steady p d h
  · exact declare_steady p d h
  · exact h

theorem transmit_steadied (p : Pos) : Steadied (execTransmit p) := by
  refine .key fun s h => ?_
  unfold transmitForm
  split
  · exact h.tone p
  split
  · exact h.tone p
  split
  · exact (h.setCursor p _ 0).tone p
  · exact routeTransmit_steady p _ _ h

/-! ## Balance keys -/

theorem balanceKey_steady (b : BalKind) (p : Pos) (h : Steady s) : Steady (balanceKey b p s) := by
  unfold balanceKey
  split
  · exact h.tone p
  · next may =>
    split
    · exact (h.tone p).statusNotice p _
    · next room => exact singleBalance_steady b p h (not_not.1 may).2.1 (refusal_none room).2.2

theorem groupKey_steady (b : BalKind) (p : Pos) (h : Steady s) : Steady (groupKey b p s) := by
  unfold groupKey
  split
  · exact h.tone p
  · next may =>
    rw [not_or, not_not] at may
    split
    · exact (h.tone p).statusNotice p _
    · next room => exact groupBalanceEvent_steady b p h may.1.1 (groupRefusal_none room)

end

end Sys2Proof.Machine

namespace Sys2Proof.Machine

/-- Nothing changed but the store, the queues and blocks without a part in the journal or the engine's batch. -/
def KeepsJournal (s t : State) : Prop :=
  t.nv = s.nv ∧ t.nvBefore = s.nvBefore ∧ t.nvLog = s.nvLog ∧ t.pending = s.pending ∧ t.jc.unreadable = s.jc.unreadable ∧
    t.jc.replay = s.jc.replay ∧ t.day.state = s.day.state ∧ t.drawers = s.drawers ∧ t.posns = s.posns ∧
    t.engine.batch = s.engine.batch

section
variable {s t : State}

theorem Sound.jobsMoved (h : Sound s) (tidy : Tidy t) (jobs : JobsHeld [] t) (same : KeepsJournal s t) : Sound t := by
  obtain ⟨nv, before, log, pending, unreadable, -, day, drawers, posns, batch⟩ := same
  exact ⟨tidy, jobs, h.rooms.quiet ⟨nv, before, log, pending⟩ unreadable day (fun _ none => batch.trans none) (.of_eq drawers)
    (h.rooms.contexts.of_eq drawers posns)⟩

/-- A doing with the jobs of a trading day. -/
theorem Steady.jobsMoved (h : Steady s) (trading : s.day.state = .opened ∨ s.day.state = .cutoff) (tidy : Tidy t)
    (jobs : JobsHeld [] t) (same : KeepsJournal s t) : Steady t := by
  refine ⟨h.sound.jobsMoved tidy jobs same, ?_⟩
  obtain ⟨-, -, -, -, -, replay, day, -⟩ := same
  exact h.calm.trading trading replay day

/-! ## Passbook and attention keys -/

theorem accountLines_known {a : Account} (some : (accountLines a s).isEmpty ≠ true) : ∃ r ∈ s.store, r.account = a := by
  unfold accountLines at some
  cases found : findAccount a s with
  | none => rw [found] at some; exact absurd rfl some
  | some r => exact ⟨r, List.mem_of_find?_eq_some found, findAccount_account a s found⟩

theorem printBookOf_steady (p : Pos) (a : Account) (h : Steady s) : Steady (printBookOf p a s) := by
  unfold printBookOf
  split
  · exact h
  · next unmarked =>
    split
    · exact h.notice p (by decide)
    · next lines =>
      by_cases trading : s.day.state = .opened ∨ s.day.state = .cutoff
      · have same : jobForKept p a s = attemptJob p a s := if_neg unmarked
        exact same ▸ h.jobForKept p trading (accountLines_known lines)
      · rw [attemptJob, if_neg trading]
        exact h

/-- A day with a job queued is a trading day (R67). -/
theorem Calm.queued (h : Calm s) {n : Prn} (some : rd s.queues n ≠ []) : s.day.state = .opened ∨ s.day.state = .cutoff := by
  have awake : atRest s.day.state ≠ true := fun rest => some ((h.2 rest).2 n)
  cases day : s.day.state with
  | opened => exact Or.inl rfl
  | cutoff => exact Or.inr rfl
  | closed u => rw [day] at awake; exact absurd rfl awake
  | recovering => rw [day] at awake; exact absurd rfl awake
  | closing => rw [day] at awake; exact absurd rfl awake

theorem cancelBookOf_steady (p : Pos) (a : Account) (h : Steady s) : Steady (cancelBookOf p a s) := by
  unfold cancelBookOf
  split
  · exact (h.notice p (by decide)).tone p
  · next n found =>
    have here : ∃ j ∈ rd s.queues n, j.account = a := by
      have := List.find?_some found
      simp only [List.any_eq_true, Bool.and_eq_true, beq_iff_eq] at this
      obtain ⟨j, mem, account, -⟩ := this
      exact ⟨j, mem, account⟩
    have trading := h.calm.queued (n := n) fun none => by
      obtain ⟨j, mem, -⟩ := here
      rw [none] at mem
      cases mem
    split
    · exact h.jobsMoved trading (cancelHead_tidy n h.sound.tidy) (cancelHead_held n h.sound.jobs) (by simp [KeepsJournal])
    · exact h.jobsMoved trading (cancelQueued_tidy n a h.sound.tidy) (cancelQueued_held h.sound.jobs here) (by simp [KeepsJournal])

theorem printBook_steadied (p : Pos) : Steadied (execPrintBook p) := by
  refine .key fun s h => ?_
  split
  · exact printBookOf_steady p _ h
  · exact h.tone p

theorem cancelBook_steadied (p : Pos) : Steadied (execCancelBook p) := by
  refine .key fun s h => ?_
  split
  · exact cancelBookOf_steady p _ h
  · exact h.tone p

theorem attention_steadied (p : Pos) : Steadied (execAttention p) := .key fun _ h => h.report _ _

theorem entryTimerExpiry_steadied (p : Pos) : Steadied (execEntryTimerExpiry p) := by
  refine .event fun s h => ?_
  split
  · split
    · exact (h.release p).notice p (by decide)
    · exact h.spine (h.sound.tidy.editKeys p fun _ => rfl) (by simp [KeepsSpine])
  · exact h

/-! ## The station's events -/

theorem Steady.updScreen (p : Pos) {f : Screen → Screen} (h : Steady s) (hf : (f (rd s.screens p)).Tidy) :
    Steady (s.updScreen p f) := h.spine (h.sound.tidy.updScreen p hf) (by simp [KeepsSpine])

theorem reviewUp_steadied (p : Pos) : Steadied (execReviewUp p) := by
  refine .event fun s h => ?_
  split
  · next up => exact h.updScreen p ((h.sound.tidy.screens p).setReview (by omega))
  · exact h.tone p

theorem reviewDown_steadied (p : Pos) : Steadied (execReviewDown p) := by
  refine .event fun s h => ?_
  split
  · have := (h.sound.tidy.screens p).review
    exact h.updScreen p ((h.sound.tidy.screens p).setReview (by omega))
  · exact h.tone p

theorem present_steadied (p : Pos) : Steadied (execPresent p) :=
  .event fun _ h =>
    h.updScreen p ⟨rangeRows_tidy, (h.sound.tidy.screens p).column, (h.sound.tidy.screens p).review⟩

theorem rowTaken_steadied (p : Pos) : Steadied (execRowTaken p) :=
  .event fun _ h =>
    h.updScreen p ⟨(h.sound.tidy.screens p).rows, (h.sound.tidy.screens p).column, (h.sound.tidy.screens p).review⟩

theorem rowSend_steadied (p : Pos) : Steadied (execRowSend p) := by
  refine .event fun s h => ?_
  split
  · next r rest dirty =>
    split
    · obtain ⟨⟨sorted, rows⟩, column, review⟩ := h.sound.tidy.screens p
      rw [dirty] at sorted rows
      have sent := h.updScreen p (f := Screen.rowSent rest)
        ⟨⟨sorted.of_cons, fun x mem => rows x (List.mem_cons_of_mem r mem)⟩, column, review⟩
      exact sent.spine (emit_tidy _ sent.sound.tidy) (by simp [KeepsSpine, sendRow])
    · exact h
  · exact h

/-! ## The line's events -/

theorem loseLine_steady (h : Steady s) : Steady (loseLine s) := by
  have down : Steady (s.updLine fun l => { l with state := .standIn, timer := none }) :=
    h.spine (h.sound.tidy.updLine h.sound.tidy.outbound) (by simp [KeepsSpine])
  have released := eachPos_steady (fun p _ hu => hu.release p) down
  unfold loseLine
  dsimp only
  generalize eachPos Machine.release _ = u at released
  have told : Steady (markRow0All (noticeAll textLineDown u)) :=
    released.spine (markRow0All_tidy (noticeAll_tidy (by decide) released.sound.tidy)) (by simp [KeepsSpine])
  exact told.updEngine rfl

theorem lineLoss_steadied : Steadied execLineLoss := by
  refine .event fun s h => ?_
  split
  · exact loseLine_steady h
  · exact h

theorem outboundSendStart_steadied : Steadied execOutboundSendStart := by
  refine .event fun s h => ?_
  split
  · split
    · exact h
    · exact h.spine (emit_tidy _ (h.sound.tidy.updLine h.sound.tidy.outbound)) (by simp [KeepsSpine])
  · exact h

theorem offer_idle (none : s.engine.batch = none) : offer s = s := by
  have unoffered : offerBlock s = .none := by
    unfold offerBlock
    rw [none]
  change offerBlocks (27 + 1) s = s
  rw [offerBlocks, unoffered]

theorem Steady.offer (h : Steady s) : Steady (offer s) :=
  h.engine (offer_tidy h.sound.tidy) (by simp [KeepsRest]) fun _ none => by rwa [offer_idle none]

theorem outboundSendDone_steadied : Steadied execOutboundSendDone := by
  refine .event fun s h => ?_
  split
  · next m rest queue =>
    split
    · refine Steady.offer (h.spine (emit_tidy _ (h.sound.tidy.updLine ?_)) (by simp [KeepsSpine]))
      have := h.sound.tidy.outbound
      rw [queue, List.length_cons] at this
      exact (Nat.le_succ _).trans this
    · exact h
  · exact h

end

end Sys2Proof.Machine

namespace Sys2Proof.Machine

section
variable {s t : State}

/-! ## The clock's events keep the bounds -/

theorem tickTimers_steady (h : Steady s) : Steady (tickTimers s) := by
  have tidy := h.sound.tidy
  have lines : Tidy (s.updLine fun l => { l with timer := Timer.tick l.timer }) := tidy.updLine tidy.outbound
  refine h.spine (t := tickTimers s) ?_ (by simp [KeepsSpine, tickTimers])
  exact lines.withKeys (v := mapV s.keys KeyUnit.tick) fun p => by
    rw [rd_mapV]
    exact tidy.keys p

theorem Clock.advance_range {c : Clock} (time : c.time ≤ 86399) (midnights : c.midnights ≤ 255) :
    c.advance.time ≤ 86399 ∧ c.advance.midnights ≤ 255 ∧ c.advance.isSet = c.isSet := by
  unfold Clock.advance
  split
  · refine ⟨Nat.zero_le _, ?_, rfl⟩
    dsimp only
    split <;> omega
  · exact ⟨Nat.succ_le_of_lt (lt_of_le_of_ne time ‹_›), midnights, rfl⟩

theorem advanceClock_steady (h : Steady s) (set : s.clock.isSet = true) : Steady (advanceClock s) := by
  obtain ⟨time, midnights, same⟩ := Clock.advance_range h.sound.tidy.time h.sound.tidy.midnights
  have advanced : Steady { s with clock := s.clock.advance } :=
    h.spine (h.sound.tidy.withClock time midnights fun c => by rw [same, set] at c; cases c)
      ⟨rfl, rfl, rfl, rfl, rfl, rfl, rfl, rfl, rfl, rfl, rfl, rfl⟩
  have tested : Steady (testAlarm s.clock.advance.time { s with clock := s.clock.advance }) :=
    advanced.spine advanced.sound.tidy ⟨rfl, rfl, rfl, rfl, rfl, rfl, rfl, rfl, rfl, rfl, rfl, rfl⟩
  unfold advanceClock
  dsimp only
  split
  · exact tested
  · exact tested.spine (markRow0All_tidy tested.sound.tidy) (by simp [KeepsSpine])

theorem clockAdvance_steadied : Steadied execClockAdvance := by
  refine .event fun s h => ?_
  split
  · next set => exact advanceClock_steady (tickTimers_steady h) set
  · exact tickTimers_steady h

theorem cutoffAlarmFire_steadied : Steadied execCutoffAlarmFire := by
  refine .event fun s h => ?_
  split
  · next a _ =>
    split
    · next may =>
      unfold fireAlarm
      split
      · exact h.spine h.sound.tidy (by simp [KeepsSpine])
      · next ok => exact reportCutoff_steady _ (enterCutoff_steady h (Or.inl may.2) ok)
    · exact h
  · exact h

/-! ## The entry to CLOSING keeps the bounds -/

theorem closingJournaled_room (h : Rooms s) (fit : fits .closing ((backlogs s).length + 1) s = true) {k : List (Account × List Nat)}
    (hk : k = backlogs s) : let t := appendClose false .closing (k.foldl appendBacklog (placeMidnight .closing s))
    CutsHold GoodFits t ∧ slotsUsed t ≤ 16384 ∧ ¬RecordedOpen t.nv := by
  have grows := (placeMidnight_grows .closing s).trans (appendBacklogs_grows k (placeMidnight .closing s))
  have room := (fits_iff .closing _ s).1 fit
  simp only [CapClass.limit, Config.closingLimit] at room
  rw [← hk] at room
  obtain ⟨cuts, used, closed⟩ := appendClose_spec false (Or.inl rfl) (grows.cuts (fun _ => by omega) h.cuts)
  have := grows.used
  exact ⟨cuts, by omega, closed⟩

theorem reportClosing_day (n : Nat) (s : State) : (reportClosing n s).day = s.day := by simp [reportClosing]

theorem dayBatchAtClosing_steady (h : Steady s) (closing : s.day.state = .closing) : Steady (dayBatchAtClosing s) :=
  h.engine (dayBatchAtClosing_tidy h.sound.tidy) (by simp [KeepsRest]) fun halted => absurd closing halted.2.2

theorem closingEntries_frame (k : List (Account × List Nat)) (s : State) :
    let t := appendClose false .closing (k.foldl appendBacklog (placeMidnight .closing s))
    t.posns = s.posns ∧ t.queues = s.queues ∧ t.drawers = s.drawers ∧ t.jc.unreadable = s.jc.unreadable ∧
      t.jc.replay = s.jc.replay := by
  have backlogged : (k.foldl appendBacklog (placeMidnight .closing s)).posns = s.posns ∧
      (k.foldl appendBacklog (placeMidnight .closing s)).queues = s.queues ∧
      (k.foldl appendBacklog (placeMidnight .closing s)).drawers = s.drawers ∧
      (k.foldl appendBacklog (placeMidnight .closing s)).jc.unreadable = s.jc.unreadable ∧
      (k.foldl appendBacklog (placeMidnight .closing s)).jc.replay = s.jc.replay := by
    refine List.foldlRecOn (motive := fun t : State => t.posns = s.posns ∧ t.queues = s.queues ∧ t.drawers = s.drawers ∧
      t.jc.unreadable = s.jc.unreadable ∧ t.jc.replay = s.jc.replay) k appendBacklog (by simp) fun t ht b _ => ?_
    obtain ⟨posns, queues, drawers, unreadable, replay⟩ := ht
    simp [posns, queues, drawers, unreadable, replay]
  simpa using backlogged

/-- The retained store written and the day CLOSING, once the CLOSE entry stands in the journal (R67, R73). -/
theorem closing_steady (c : RetainedCause) (rb : Option RetainedRec) {v : State} (tidy : Tidy v) (cuts : CutsHold GoodFits v)
    (used : slotsUsed v ≤ 16384) (closed : ¬RecordedOpen v.nv) (readable : v.jc.unreadable = false) (replay : v.jc.replay = none)
    (off : ∀ p, (rd v.posns p).state = .signedOff) (queues : ∀ n, rd v.queues n = []) (contexts : Contexts v) :
    Steady (setDay .closing (writeRetained c rb { v with store := [] })) := by
  obtain ⟨w, hw⟩ : ∃ w, w = setDay .closing (writeRetained c rb { v with store := [] }) := ⟨_, rfl⟩
  have grows : Grows 0 v w := by
    have emptied : Grows 0 v { v with store := [] } := .quiet ⟨rfl, rfl, rfl, rfl⟩
    rw [hw]
    exact ((emptied.trans (writeRetained_grows c rb _)).mono le_rfl).andQuiet ⟨rfl, rfl, rfl, rfl⟩
  have written : Tidy w := hw ▸ setDay_tidy _ (writeRetained_tidy c rb (withStore_tidy [] tidy))
  have frame : w.jc = v.jc ∧ w.posns = v.posns ∧ w.queues = v.queues ∧ w.drawers = v.drawers ∧ w.store = [] := by simp [hw]
  have day : w.day.state = .closing := by rw [hw]; rfl
  obtain ⟨wjc, wposns, wqueues, wdrawers, store⟩ := frame
  rw [← hw]
  have notOpen : ¬RecordedOpen w.nv := by
    unfold RecordedOpen at closed ⊢
    rw [grows.day]
    exact closed
  rw [← wqueues] at queues
  refine ⟨⟨written, jobsHeld_emptied (store ▸ .nil) queues fun a => ?_, ⟨grows.cuts (fun c => absurd c closed) cuts,
    fun _ => grows.used.trans used, fun _ c => absurd c notOpen, fun c => ?_, fun c => ?_, fun c => ?_,
    contexts.of_eq wdrawers wposns⟩⟩, fun c => ?_, fun _ => ⟨wposns ▸ off, queues⟩⟩
  · rw [store]
    rintro ⟨r, mem, -⟩
    cases mem
  · rw [day] at c
    rcases c with c | c <;> cases c
  · rw [wjc, readable] at c
    cases c
  · rw [day, wjc, readable] at c
    rcases c with c | c <;> cases c
  · rw [wjc] at c
    exact absurd replay c

theorem enterClosing_steady (rb : Option RetainedRec) (h : Steady s) (cutoff : s.day.state = .cutoff)
    (off : ∀ p, (rd s.posns p).state = .signedOff) : Steady (enterClosing rb s) := by
  rw [enterClosing_eq]
  split
  · exact h
  next fit =>
  rw [Bool.not_eq_false] at fit
  have emptied := h.removeAllJobs
  have queues := removeAllJobs_queues (s := s)
  have frame : (removeAllJobs s).posns = s.posns ∧ (removeAllJobs s).day = s.day ∧ (removeAllJobs s).jc = s.jc := by simp
  obtain ⟨posns, day, jc⟩ := frame
  unfold closingRetained closingJournaled
  generalize removeAllJobs s = u at *
  obtain ⟨cuts, used, closed⟩ := closingJournaled_room emptied.sound.rooms fit rfl
  have replay : u.jc.replay = none := emptied.calm.noReplay (by rw [day, cutoff]; exact fun c => nomatch c)
  have readable := emptied.sound.rooms.readable (Or.inr (day ▸ cutoff))
  have tidy : Tidy (appendClose false .closing ((backlogs u).foldl appendBacklog (placeMidnight .closing u))) :=
    appendClose_tidy _ _ (appendBacklogs_tidy _ (placeMidnight_tidy _ emptied.sound.tidy))
  obtain ⟨vposns, vqueues, vdrawers, vjc, vreplay⟩ := closingEntries_frame (backlogs u) u
  generalize appendClose false .closing ((backlogs u).foldl appendBacklog (placeMidnight .closing u)) = v at *
  have entered := closing_steady .closing rb tidy cuts used closed (vjc.trans readable) (vreplay.trans replay)
    (by rw [vposns, posns]; exact off) (by rw [vqueues]; exact queues) (emptied.sound.rooms.contexts.of_eq vdrawers vposns)
  exact dayBatchAtClosing_steady (entered.report _ _) (congrArg DayCtl.state (reportClosing_day _ _))

theorem closingConditionTest_steadied (rb : Option RetainedRec) : Steadied (execClosingConditionTest rb) := by
  refine .event fun s h => ?_
  split
  · next may => exact enterClosing_steady rb h may.1 ((closingCondition_iff _).1 may.2).1
  · exact h

/-! ## The delivery of the day keeps the bounds -/

theorem deliverDay_steady (forced : Bool) (h : Steady s) (rest : s.day.state = .closing ∨ s.day.state = .closed true) :
    Steady (deliverDay forced s) := by
  obtain ⟨off, none⟩ := h.calm.2 (by rcases rest with c | c <;> rw [c] <;> rfl)
  have tidy := deliverDay_tidy forced h.sound.tidy
  obtain ⟨cuts, used, closed⟩ := recordClosed_spec (f := fun c => { c with day := some .closed, undelivered := false })
    (fun _ => rfl) (fun _ => rfl) h.sound.rooms.cuts
  have delivered : Steady (setDay (.closed false) (writeControl (fun c => { c with day := some .closed, undelivered := false }) s)) := by
    refine ⟨⟨markRow0All_tidy h.sound.tidy, h.sound.jobs.of_eq rfl rfl, ⟨cuts.quiet ⟨rfl, rfl, rfl, rfl⟩,
      fun c => used.le.trans (h.sound.rooms.used c), fun _ c => absurd c closed, fun c => ?_, fun _ => ⟨false, rfl⟩, fun c => ?_,
      h.sound.rooms.contexts⟩⟩, fun c => ?_, fun _ => ⟨off, none⟩⟩
    · rcases c with c | c <;> cases c
    · exact h.sound.rooms.idle (Or.inr (c.resolve_left fun c => nomatch c))
    · exact absurd (h.calm.noReplay (by rcases rest with c | c <;> rw [c] <;> exact fun c => nomatch c)) c
  exact delivered.report _ _

theorem dayBatchCompletion_steadied : Steadied execDayBatchCompletion := by
  refine .event fun s h => ?_
  split
  · exact h
  · next date rest _ =>
    have taken : Steady (s.updDay fun d => { d with completions := rest }) := h.spine h.sound.tidy (by simp [KeepsSpine])
    unfold takeCompletion
    split
    · exact taken
    split
    · next closing => exact deliverDay_steady _ taken (Or.inl closing)
    · next closed => exact deliverDay_steady _ taken (Or.inr closed)
    · exact taken

/-! ## The engine's events keep the bounds -/

theorem transferLineLoss_steadied : Steadied execTransferLineLoss := by
  refine .event fun s h => ?_
  split
  · exact (h.updEngine rfl).engineLoss
  · exact h

theorem transferLineReturn_steadied : Steadied execTransferLineReturn := by
  refine .event fun s h => ?_
  split
  · exact (h.updEngine rfl).engineReturn
  · exact h

theorem transferRecoveryFinish_steadied : Steadied execTransferRecoveryFinish := by
  refine .event fun s h => ?_
  split
  · have told : Steady (s.updEngine fun e => { e with recoveryDone := false }) := h.updEngine rfl
    dsimp only
    split
    · exact told.startFromIdle
    · exact told
  · exact h

theorem expireAck_steady {b : Batch} (h : Steady s) (batch : s.engine.batch = some b) : Steady (expireAck b s) := by
  have running : ¬(s.day.state = .recovering ∨ s.jc.unreadable = true) := fun c => by
    cases batch.symm.trans (h.sound.rooms.idle c)
  rw [not_or, Bool.not_eq_true] at running
  have retried : Steady (updBatch Batch.retry s) :=
    h.engineReadable (updBatch_tidy Batch.retry h.sound.tidy) (by simp [KeepsRest]) running.2 running.1
  unfold expireAck
  dsimp only
  split
  · exact retried.engineReadable (failBatch_tidy .retries retried.sound.tidy) (by simp [KeepsRest]) (by simpa using running.2)
      (by simpa using running.1)
  · exact retried.resendAll

theorem ackTimerExpiry_steadied : Steadied execAckTimerExpiry := by
  refine .event fun s h => ?_
  split
  · next b batch =>
    split
    · exact expireAck_steady h batch
    · exact h
  · exact h

end

end Sys2Proof.Machine

namespace Sys2Proof.Machine

section
variable {s t : State} {n : Prn}

/-! ## The printers' doings keep the bounds -/

theorem Sound.faultPrinter (n : Prn) (c : OfflineCause) (h : Sound s) : Sound (faultPrinter n c s) :=
  h.jobsMoved (faultPrinter_tidy n c h.tidy) (faultPrinter_held n c h.jobs) (by simp [KeepsJournal])

theorem Sound.becomeEmpty (n : Prn) (h : Sound s) : Sound (becomeEmpty n s) :=
  h.spine (becomeEmpty_tidy n h.tidy) (by simp [KeepsSpine])

theorem Sound.endJob (n : Prn) (w : PrintReason) (h : Sound s) : Sound (endJob n w s) :=
  h.jobsMoved (endJob_tidy n w h.tidy) (endJob_held n w h.jobs) (by simp [KeepsJournal])

theorem Sound.updPrinter (n : Prn) (f : Printer → Printer) (h : Sound s) : Sound (s.updPrinter n f) :=
  h.spine (updPrinter_tidy n f h.tidy) ⟨rfl, rfl, rfl, rfl, rfl, rfl, rfl, rfl, rfl, rfl, rfl, rfl⟩

theorem Sound.withdrawPrompt (n : Prn) (h : Sound s) : Sound (withdrawPrompt n s) :=
  h.spine (withdrawPrompt_tidy n h.tidy) ⟨rfl, rfl, rfl, rfl, rfl, rfl, rfl, rfl, rfl, rfl, rfl, rfl⟩

theorem Sound.homePrinter (n : Prn) (h : Sound s) : Sound (homePrinter n s) :=
  h.spine (homePrinter_tidy n h.tidy) ⟨rfl, rfl, rfl, rfl, rfl, rfl, rfl, rfl, rfl, rfl, rfl, rfl⟩

theorem Sound.eject (n : Prn) (b : Bool) (w : Option Reason) (h : Sound s) : Sound (eject n b w s) :=
  h.spine (eject_tidy n b w h.tidy) ⟨rfl, rfl, rfl, rfl, rfl, rfl, rfl, rfl, rfl, rfl, rfl, rfl⟩

theorem Sound.writeStripe (n : Prn) (w : Reason) (h : Sound s) : Sound (writeStripe n w s) :=
  h.spine (writeStripe_tidy n w h.tidy) ⟨rfl, rfl, rfl, rfl, rfl, rfl, rfl, rfl, rfl, rfl, rfl, rfl⟩

theorem Sound.startLine (n : Prn) (l : PLine) (h : Sound s) : Sound (startLine n l s) :=
  h.spine (startLine_tidy n l h.tidy) ⟨rfl, rfl, rfl, rfl, rfl, rfl, rfl, rfl, rfl, rfl, rfl, rfl⟩

theorem Sound.command (n : Prn) (c : PrnCmd) (h : Sound s) : Sound (command n c s) :=
  h.spine (command_tidy n c h.tidy) ⟨rfl, rfl, rfl, rfl, rfl, rfl, rfl, rfl, rfl, rfl, rfl, rfl⟩

theorem Sound.enterWait (n : Prn) (x : Prompt) (h : Sound s) : Sound (enterWait n x s) :=
  h.spine (enterWait_tidy n x h.tidy) (by simp [KeepsSpine])

theorem Sound.startWaiting (n : Prn) (h : Sound s) : Sound (startWaiting n s) :=
  h.spine (startWaiting_tidy n h.tidy) (by simp [KeepsSpine])

theorem Sound.report (p : Nat) (r : Report) (h : Sound s) : Sound (report p r s) :=
  h.spine (report_tidy p r h.tidy) (by simp [KeepsSpine])

/-! ## The printers' commands keep the bounds -/

theorem ready_bounded (n : Prn) : Bounded (execReady n) := by
  refine .plain fun s h => ?_
  split
  · exact h.homePrinter n
  · exact h.homePrinter n
  · exact (h.faultPrinter n .restarted).homePrinter n

theorem homeDone_bounded (n : Prn) : Bounded (execHomeDone n) := by
  refine .plain fun s h => ?_
  split
  · exact ((h.updPrinter n _).report _ _).startWaiting n
  · exact h

theorem bookIn_bounded (n : Prn) : Bounded (execBookIn n) := by
  refine .plain fun s h => ?_
  split
  · exact ((h.command n .readStripe).withdrawPrompt n).updPrinter n _
  · exact h.eject n false none
  · exact h

theorem failAttempt_sound (w : Reason) (h : Sound s) : Sound (failAttempt n w s) := (h.updPrinter n _).eject n true _

/-- A book accepted gives an account its type alone (R124, R140). -/
theorem acceptBook_sound (a : Account) (ty : Fin 4) (page line : Nat) (h : Sound s) : Sound (acceptBook n a ty page line s) := by
  have typed : Sound (updAccount a (fun r => { r with bookType := r.bookType.orElse fun _ => some ty.val }) s) :=
    h.jobsMoved h.tidy (updAccount_held h.jobs a (fun _ => rfl) (fun _ => rfl) fun _ => le_rfl) (by simp [KeepsJournal])
  exact typed.updPrinter n _

theorem takeStripe_sound (d : StripeData) (h : Sound s) : Sound (takeStripe n d s) := by
  unfold takeStripe
  split
  · split
    · exact failAttempt_sound _ h
    · unfold judgeStripe
      dsimp only
      split
      · exact failAttempt_sound _ h
      split
      · exact h.eject n true _
      · exact acceptBook_sound _ _ _ _ h
  · exact failAttempt_sound _ h

theorem stripeData_bounded (n : Prn) (d : StripeData) : Bounded (execStripeData n d) := by
  refine .plain fun s h => ?_
  split
  · exact takeStripe_sound d h
  · exact h

theorem stripeFail_bounded (n : Prn) : Bounded (execStripeFail n) := by
  refine .plain fun s h => ?_
  split
  · exact failAttempt_sound _ h
  · exact h

theorem decide_sound (h : Sound s) : Sound (decide_ n s) := by
  unfold decide_
  dsimp only
  split
  · exact h.writeStripe n _
  split
  · exact h.writeStripe n _
  split
  · exact h.startLine n _
  split
  · exact h.writeStripe n _
  · exact h.writeStripe n _

theorem printerDecision_bounded (n : Prn) : Bounded (execPrinterDecision n) := by
  refine .plain fun s h => ?_
  split
  · exact decide_sound h
  · exact h

/-- A line printed while the journal can be read. -/
theorem Sound.linePrinted (a : Account) (h : Sound s) (readable : s.jc.unreadable = false) : Sound (linePrinted a s) :=
  ⟨linePrinted_tidy a h.tidy, linePrinted_held a h.jobs, h.rooms.entered readable (linePrinted_grows a s)
    (Or.inr ⟨rfl, .of_eq (by simp)⟩) (by simp) (by simp) (fun _ none => by simpa using none)
    (h.rooms.contexts.of_eq (by simp) (by simp))⟩

/-- A line counted on a printer that goes on, or writes its stripe (R142). -/
theorem lineCounted_sound (f : Printer → Printer) (h : Sound s) :
    Sound (if (rd (s.updPrinter n f).printers n).job.cancelPending then writeStripe n .cancelled (s.updPrinter n f)
      else (s.updPrinter n f).updPrinter n Printer.hold) := by
  split
  · exact (h.updPrinter n f).writeStripe n _
  · exact (h.updPrinter n f).updPrinter n _

theorem lineDoneEvent_sound (h : Sound s) (readable : s.jc.unreadable = false) : Sound (lineDoneEvent n s) := by
  unfold lineDoneEvent
  cases rd s.queues n with
  | nil => exact lineCounted_sound _ h
  | cons j js => exact lineCounted_sound _ (h.linePrinted _ readable)

theorem lineDone_bounded (n : Prn) : Bounded (execLineDone n) := by
  refine .event fun s h rests => ?_
  split
  · next printing =>
    obtain ⟨-, held, -⟩ := id rests
    have job := held n (Or.inl (by unfold Printer.holds; rw [printing]))
    exact lineDoneEvent_sound h (h.rooms.readable (rests.calm.queued job))
  · exact h

theorem stripeWritten_bounded (n : Prn) : Bounded (execStripeWritten n) := by
  refine .plain fun s h => ?_
  split
  · exact (h.updPrinter n _).eject n true _
  · exact h

theorem stripeWriteFail_bounded (n : Prn) : Bounded (execStripeWriteFail n) := by
  refine .plain fun s h => ?_
  split
  · exact (h.updPrinter n _).eject n true _
  · exact h

theorem ejectEnded_sound (w : Reason) (h : Sound s) : Sound (ejectEnded n w s) := by
  have ended (x : PrintReason) : Sound (becomeEmpty n (endJob n x s)) := (h.endJob n x).becomeEmpty n
  have again (x : PrintReason) :
      Sound (if (rd s.printers n).job.attempts < 3 then enterWait n .wrongBook s else becomeEmpty n (endJob n x s)) := by
    split
    · exact h.enterWait n _
    · exact ended x
  cases w with
  | turnPage => exact h.enterWait n _
  | wrongBook => exact again _
  | unreadable => exact again _
  | complete => exact ended _
  | bookFull => exact ended _
  | cancelled => exact ended _

theorem ejectDone_bounded (n : Prn) : Bounded (execEjectDone n) := by
  refine .plain fun s h => ?_
  dsimp only
  split
  · split
    · exact ejectEnded_sound _ h
    · exact h.becomeEmpty n
  · exact h

theorem fault_bounded (n : Prn) : Bounded (execFault n) := by
  refine .plain fun s h => ?_
  split
  · exact h
  · exact h.faultPrinter n .fault

theorem printerTimerExpiry_bounded (n : Prn) : Bounded (execPrinterTimerExpiry n) := by
  refine .plain fun s h => ?_
  split
  · next c _ =>
    split
    · exact h.faultPrinter n c
    · exact h
  · exact h

theorem bookWaitExpiry_bounded (n : Prn) : Bounded (execBookWaitExpiry n) := by
  refine .plain fun s h => ?_
  split
  · exact ((h.endJob n .noBook).withdrawPrompt n).becomeEmpty n
  · exact h

end

end Sys2Proof.Machine

namespace Sys2Proof.Machine

section
variable {s t : State}

/-! ## Replay keeps the bounds -/

/-- A drawer written with no balance begun in it. -/
theorem Sound.updDrawer (p : Pos) {f : Drawer → Drawer} (h : Sound s) (ctx : ∀ d, (f d).ctx = none ∨ (f d).ctx = d.ctx) :
    Sound (s.updDrawer p f) := by
  have ended : NoneBegun s (s.updDrawer p f) := fun q none => by
    rw [State.updDrawer_drawers, rd_upd]
    split
    · next same =>
      rcases ctx (rd s.drawers p) with c | c
      · exact c
      · rw [c, ← same, none]
    · exact none
  exact ⟨h.tidy, h.jobs.of_eq rfl rfl, h.rooms.quiet ⟨rfl, rfl, rfl, rfl⟩ rfl rfl (fun _ none => none) ended
    (h.rooms.contexts.kept ended fun _ _ held => held)⟩

theorem Sound.applyLegs (gs : List Leg) (h : Sound s) : Sound (applyLegs gs s) := by
  have kept : NoneBegun s (Machine.applyLegs gs s) := fun p none => (applyLegs_ctx gs s p).trans none
  exact ⟨applyLegs_tidy gs h.tidy, h.jobs.of_eq (by simp) (by simp), h.rooms.quiet (applyLegs_quiet gs s) (by simp) (by simp)
    (fun _ none => by simpa using none) kept (h.rooms.contexts.kept kept fun p _ held => by simpa using held)⟩

/-- A position's stand-in usage counted or cleared. -/
theorem Sound.updUsage (p : Pos) {f : PosRec → PosRec} (state : ∀ r, (f r).state = r.state) (h : Sound s) : Sound (s.updPos p f) :=
  h.positions h.tidy ⟨rfl, rfl, rfl, rfl⟩ rfl rfl rfl rfl rfl rfl (h.rooms.contexts.updPos p fun busy => (state _).trans busy)

theorem Sound.withPending (n : Nat) (h : Sound s) : Sound { s with jc := { s.jc with pendingCount := n } } :=
  h.spine h.tidy ⟨rfl, rfl, rfl, rfl, rfl, rfl, rfl, rfl, rfl, rfl, rfl, rfl⟩

theorem readdLine_sound (e : Entry) (line : Option (Account × Option Nat × PLine)) (h : Sound s) :
    Sound (readdLine e line s).1 := by
  unfold readdLine
  split
  · next a ty l =>
    split
    · next kept =>
      exact h.jobsMoved (by simpa [Tidy] using h.tidy) (addLine_held h.jobs ((storeKeeps_iff a s).1 kept.2) ty l) (by simp [KeepsJournal])
    · exact h
  · exact h

theorem replayPosting_sound (e : Entry) (q : PostingRec) (h : Sound s) (r : Replay) (body : e.body = .posting q) :
    Sound (replayAct e r s).2 := by
  have line := readdLine_sound e (postingLine (businessDate s) e.seq q) (h.applyLegs q.legs)
  have used : Sound (if q.origin = .standIn then
      ((readdLine e (postingLine (businessDate s) e.seq q) (applyLegs q.legs s)).1).updPos q.pos
        fun r => { r with usage := r.usage + q.value }
      else (readdLine e (postingLine (businessDate s) e.seq q) (applyLegs q.legs s)).1) := by
    split
    · exact line.updUsage q.pos fun _ => rfl
    · exact line
  unfold replayAct
  rw [body]
  dsimp only
  split
  · exact used.withPending _
  · exact used

/-- What replay does with an entry keeps the bounds (R54). -/
theorem replayAct_sound (e : Entry) (r : Replay) (h : Sound s) : Sound (replayAct e r s).2 := by
  cases body : e.body with
  | posting q => exact replayPosting_sound e q h r body
  | opening p _ _ _ amounts =>
    unfold replayAct
    rw [body]
    exact h.updDrawer p fun _ => Or.inl rfl
  | bookLine b =>
    unfold replayAct
    rw [body]
    exact readdLine_sound e _ h
  | capture c =>
    unfold replayAct
    rw [body]
    exact h.updDrawer c.pos fun _ => Or.inr rfl
  | declaration d =>
    unfold replayAct
    rw [body]
    exact h.applyLegs _
  | groupBegin | groupEnd | abandoned | midnight | cutoff | recovery | backlog | close =>
    unfold replayAct
    rw [body]
    exact h

theorem failReplay_sound (slot : Nat) (h : Sound s) (recovering : s.day.state = .recovering) (queues : ∀ n, rd s.queues n = []) :
    Sound (failReplay slot s) := by
  obtain ⟨u, hu⟩ : ∃ u, u = setDay (.closed true) { s with
    drawers := Vector.replicate 16 Drawer.initial, store := [], posns := mapV s.posns clearUsage,
    jc := { s.jc with unreadable := true, pendingCount := 0, replay := none } } := ⟨_, rfl⟩
  have result : failReplay slot s = report 255 (.recoveryDone (.unreadable slot)) u := by rw [hu]; rfl
  have quiet : Quiet s u := by rw [hu]; exact ⟨rfl, rfl, rfl, rfl⟩
  have tidy : Tidy u := hu ▸ markRow0All_tidy (s := State.updDay _ _) h.tidy
  have day : u.day.state = .closed true := by rw [hu]; rfl
  have unreadable : u.jc.unreadable = true := by rw [hu]; rfl
  have ctx (p : Pos) : (rd u.drawers p).ctx = none := by
    have drawers : u.drawers = Vector.replicate 16 Drawer.initial := by rw [hu]; rfl
    rw [drawers]
    simp [rd, Drawer.initial]
  have batch : u.engine.batch = none := (show u.engine.batch = s.engine.batch by rw [hu]; rfl).trans (h.rooms.idle (Or.inl recovering))
  have store : u.store = [] := by rw [hu]; rfl
  have empty : u.queues = s.queues := by rw [hu]; rfl
  rw [result]
  refine Sound.report _ _ ⟨tidy, jobsHeld_emptied (store ▸ .nil) (fun n => by rw [empty]; exact queues n) fun a => ?_,
    ⟨h.rooms.cuts.quiet quiet, fun c => ?_, fun c => ?_, fun c => ?_, fun _ => ⟨true, day⟩, fun _ => batch, fun p c => absurd (ctx p) c⟩⟩
  · rw [store]
    rintro ⟨r, mem, -⟩
    cases mem
  · cases unreadable.symm.trans c
  · cases unreadable.symm.trans c
  · rw [day] at c
    rcases c with c | c <;> cases c

theorem Sound.withReplay (x : Option Replay) (h : Sound s) : Sound { s with jc := { s.jc with replay := x } } :=
  ⟨h.tidy, h.jobs.of_eq rfl rfl, h.rooms.quiet ⟨rfl, rfl, rfl, rfl⟩ rfl rfl (fun _ none => none) (.of_eq rfl) h.rooms.contexts⟩

theorem replayEntry_bounded : Bounded execReplayEntry := by
  refine .event fun s h rests => ?_
  split
  · exact h
  next r replay =>
  have recovering : s.day.state = .recovering := rests.1 (by rw [replay]; exact Option.some_ne_none r)
  obtain ⟨-, queues⟩ := rests.calm.2 (by rw [recovering]; rfl)
  have failed := failReplay_sound r.slot h recovering queues
  split
  · unfold replayNext
    split
    · exact failed
    · next e _ =>
      split
      · exact failed
      split
      · exact failed
      · exact (replayAct_sound e r h).withReplay _
  · exact h

/-! ## The finish of recovery keeps the bounds -/

theorem recoveryEntries_slots (d : RecDay) (r : Replay) (n : Nat) (s : State) :
    ((recoveryAbandons r ++ [recoveryEntry d r n s]).map kindSlots).sum = (recoveryAbandons r).length + 1 := by
  have abandoned : ((recoveryAbandons r).map kindSlots).sum = (recoveryAbandons r).length := by
    unfold recoveryAbandons
    induction allPos with
    | nil => rfl
    | cons p ps ih =>
      cases open_ : rd r.openBal p with
      | none => simpa [open_] using ih
      | some b => simpa [open_, kindSlots, Nat.add_comm] using ih
  rw [List.map_append, List.sum_append, abandoned]
  rfl

/-- The entries of a recovery go on from the journal found, within the control limit or not at all (R55). -/
theorem recoveryAppend_grows (d : RecDay) (r : Replay) (s : State) :
    ∃ k, Grows k s (recoveryAppend d r s).1 ∧ (slotsUsed s + k ≤ 16256 ∨ k = 0) := by
  unfold recoveryAppend
  dsimp only
  split
  · next room =>
    refine ⟨_, appendAll_grows _ s, Or.inl ?_⟩
    rw [recoveryEntries_slots]
    exact room.2
  · exact ⟨0, .refl s, Or.inr rfl⟩

theorem recoveryAppend_spine (d : RecDay) (r : Replay) (s : State) : let t := (recoveryAppend d r s).1
    t.store = s.store ∧ t.queues = s.queues ∧ t.jc.unreadable = s.jc.unreadable ∧ t.drawers = s.drawers ∧ t.posns = s.posns ∧
      t.engine = s.engine := by
  unfold recoveryAppend
  dsimp only
  split
  · simp
  · simp

theorem recoveryAppend_tidy (d : RecDay) (r : Replay) (h : Tidy s) : Tidy (recoveryAppend d r s).1 := by
  unfold recoveryAppend
  dsimp only
  split
  · exact appendAll_tidy _ h
  · exact h

theorem recoveredDay_trading {d : RecDay} {u : Bool} (h : recoveredDay d u = .opened ∨ recoveredDay d u = .cutoff) :
    d = .opened ∨ d = .cutoff := by
  cases d with
  | opened => exact Or.inl rfl
  | cutoff => exact Or.inr rfl
  | closing | closed => rcases h with h | h <;> cases h

theorem Rooms.readable_recovering (h : Rooms s) (recovering : s.day.state = .recovering) : s.jc.unreadable = false := by
  cases c : s.jc.unreadable with
  | false => rfl
  | true =>
    obtain ⟨x, closed⟩ := h.closed c
    cases recovering.symm.trans closed

/-- The day a recovery returns to meets the bounds (R55). -/
theorem recovered_sound (d : RecDay) (r : Replay) (u : Bool) (h : Sound s) (recovering : s.day.state = .recovering)
    (off : ∀ p, (rd s.posns p).state = .signedOff) (day : s.nv.control.fields.day = some d) :
    Sound (setDay (recoveredDay d u) (recoveryAppend d r s).1) := by
  obtain ⟨k, grows, room⟩ := recoveryAppend_grows d r s
  obtain ⟨store, queues, unreadable, drawers, posns, engine⟩ := recoveryAppend_spine d r s
  have tidy := setDay_tidy (recoveredDay d u) (recoveryAppend_tidy d r h.tidy)
  generalize (recoveryAppend d r s).1 = v at *
  have readable := h.rooms.readable_recovering recovering
  have ctx (p : Pos) : (rd s.drawers p).ctx = none := by
    by_contra some
    cases (off p).symm.trans (h.rooms.contexts p some)
  have room' (rec_ : RecordedOpen s.nv) : slotsUsed s + k ≤ 16383 := by
    have := h.rooms.fits readable rec_
    unfold slotsUsed at *
    omega
  have balances : openBalances v = 0 := by
    unfold openBalances
    rw [drawers, List.countP_eq_zero]
    intro p _
    rw [ctx p]
    exact Bool.false_ne_true
  have used := grows.used
  refine ⟨tidy, h.jobs.of_eq store queues, ⟨(grows.cuts room' h.rooms.cuts).quiet ⟨rfl, rfl, rfl, rfl⟩, fun _ => ?_, fun _ c => ?_,
    fun c => ?_, fun c => ?_, fun _ => ?_, h.rooms.contexts.of_eq drawers posns⟩⟩
  · have := h.rooms.used readable
    show slotsUsed v ≤ 16384
    omega
  · have same : RecordedOpen s.nv := by
      unfold RecordedOpen
      rw [← grows.day]
      exact c
    exact used.trans (room' same)
  · have same : RecordedOpen s.nv := by
      unfold RecordedOpen
      rw [day]
      exact (recoveredDay_trading c).imp (congrArg some) (congrArg some)
    have := room' same
    show slotsUsed v + openBalances v + 1 ≤ 16384
    omega
  · cases (unreadable.trans readable).symm.trans c
  · exact (congrArg Engine.batch engine).trans (h.rooms.idle (Or.inl recovering))

theorem writeRetained_dayState (c : RetainedCause) (rb : Option RetainedRec) (s : State) :
    (writeRetained c rb s).day.state = s.day.state := by
  unfold writeRetained
  dsimp only
  split
  · rfl
  · split
    · rfl
    · simp

theorem Sound.writeRetained (c : RetainedCause) (rb : Option RetainedRec) (h : Sound s) (readable : s.jc.unreadable = false) :
    Sound (writeRetained c rb s) :=
  ⟨writeRetained_tidy c rb h.tidy, h.jobs.of_eq (by simp) (by simp), h.rooms.entered readable (writeRetained_grows c rb s)
    (Or.inr ⟨rfl, .of_eq (t := Machine.writeRetained c rb s) (by simp)⟩) (by simp) (writeRetained_dayState c rb s)
    (fun _ none => by simpa using none) (h.rooms.contexts.of_eq (by simp) (by simp))⟩

/-- The retained store written again in CLOSING, and the engine told (R73, R167). -/
theorem recoveryTold_sound (d : RecDay) (rb : Option RetainedRec) (h : Sound s) (readable : s.jc.unreadable = false) :
    Sound ((if d = .closing then writeRetained .recovery rb s else s).updEngine fun e => { e with recoveryDone := true }) := by
  have written : Sound (if d = .closing then writeRetained .recovery rb s else s) := by
    split
    · exact h.writeRetained _ rb readable
    · exact h
  exact written.spine (updEngine_tidy _ written.tidy) ⟨rfl, rfl, rfl, rfl, rfl, rfl, rfl, rfl, rfl, rfl, rfl, rfl⟩

theorem finishRecovery_sound (d : RecDay) (r : Replay) (rb : Option RetainedRec) (h : Sound s) (recovering : s.day.state = .recovering)
    (off : ∀ p, (rd s.posns p).state = .signedOff) (day : s.nv.control.fields.day = some d) :
    Sound (finishRecovery d r rb s) := by
  have readable := h.rooms.readable_recovering recovering
  have returned (u : Bool) := recovered_sound d r u (h.withReplay none) recovering off day
  have unreadable := (recoveryAppend_spine d r { s with jc := { s.jc with replay := none } }).2.2.1
  unfold finishRecovery
  dsimp only
  generalize (recoveryAppend d r { s with jc := { s.jc with replay := none } }) = x at *
  exact recoveryTold_sound d rb ((returned _).report _ _) (by simpa using unreadable.trans readable)

theorem recoveryFinish_bounded (rb : Option RetainedRec) : Bounded (execRecoveryFinish rb) := by
  refine .event fun s h rests => ?_
  split
  · next r d replay day =>
    split
    · have recovering : s.day.state = .recovering := rests.1 (by rw [replay]; exact Option.some_ne_none r)
      exact finishRecovery_sound d r rb h recovering (rests.calm.2 (by rw [recovering]; rfl)).1 day
    · exact h
  · exact h

end

end Sys2Proof.Machine

namespace Sys2Proof.Machine

/-! ## Power keeps the bounds -/

/-- The blocks with queues, screens, jobs, drawers and the engine at their power-on values, no write made since (R53). -/
def StartsOver (t : State) : Prop :=
  t.line = State.reset.line ∧ t.keys = State.reset.keys ∧ t.clock = State.reset.clock ∧ t.screens = State.reset.screens ∧
    t.tables = State.reset.tables ∧ t.store = State.reset.store ∧ t.queues = State.reset.queues ∧
    t.drawers = State.reset.drawers ∧ t.posns = State.reset.posns ∧ t.engine = State.reset.engine ∧ t.nvBefore = t.nv ∧ t.nvLog = []

section
variable {s t : State}

/-- A part that has started over is within its bounds when its journal memory is. -/
theorem StartsOver.sound (h : StartsOver t) (good : GoodFits t.nv)
    (readable : t.jc.unreadable = false → slotsUsed t ≤ 16384 ∧ ClosingFits t.nv)
    (waits : t.day.state ≠ .opened ∧ t.day.state ≠ .cutoff) (closed : t.jc.unreadable = true → ∃ u, t.day.state = .closed u) :
    Sound t := by
  obtain ⟨line, keys, clock, screens, tables, store, queues, drawers, posns, engine, before, log⟩ := h
  obtain ⟨within, -⟩ := resetMeetsInvariants
  obtain ⟨tidy, jobs, rooms⟩ := within.sound
  refine ⟨?_, jobs.of_eq store queues, ⟨⟨by rw [log, before]; rfl, fun k => ?_⟩, fun c => (readable c).1, fun c => (readable c).2,
    fun c => ?_, closed, fun _ => by rw [engine]; rfl, rooms.contexts.of_eq drawers posns⟩⟩
  · unfold Tidy
    rw [line, keys, clock, screens, tables]
    exact tidy
  · rw [cutMemory_false, log, before, List.take_nil]
    exact good
  · exact (c.elim waits.1 waits.2).elim

theorem WithinBounds.goodFits (h : WithinBounds s) : GoodFits s.nv := h.sound.rooms.cuts.now

theorem good_slots {c : ControlRec} (good : c.good = true) : c.fields.slotsUsed ≤ 16384 := by
  unfold ControlRec.good at good
  simp only [Bool.and_eq_true, decide_eq_true_eq, Config.closingLimit] at good
  obtain ⟨⟨⟨-, used⟩, -⟩, -⟩ := good
  exact of_decide_eq_true used

/-- A part that takes power: its control record checks good within the slots, or the journal is unreadable and the day CLOSED. -/
theorem powerOn_sound (h : WithinBounds s) (run : exec .powerOn s = .next t) : Sound t := by
  obtain ⟨u, run', eq, -, -, -, -, -, bad, good⟩ := powerOnReadsControlRecord s
  cases run.symm.trans run'
  have anew : StartsOver t := by
    rw [eq]
    exact ⟨rfl, rfl, rfl, rfl, rfl, rfl, rfl, rfl, rfl, rfl, rfl, rfl⟩
  have nv : t.nv = s.nv := by rw [eq]
  have fits : GoodFits t.nv := by rw [nv]; exact h.goodFits
  cases checks : s.nv.control.good with
  | false =>
    obtain ⟨day, -, unreadable, -⟩ := bad checks
    refine anew.sound fits (fun c => ?_) ?_ fun _ => ⟨true, day⟩
    · cases unreadable.symm.trans c
    · rw [day]
      exact ⟨(fun c => nomatch c), fun c => nomatch c⟩
  | true =>
    obtain ⟨-, readable, closed, open_⟩ := good checks
    refine anew.sound fits (fun _ => ⟨?_, fits (by rw [nv, checks])⟩) ?_ fun c => ?_
    · unfold slotsUsed
      rw [nv]
      exact good_slots checks
    · by_cases day : s.nv.control.fields.day = some .closed
      · rw [(closed day).1]
        exact ⟨(fun c => nomatch c), fun c => nomatch c⟩
      · rw [(open_ day).1]
        exact ⟨(fun c => nomatch c), fun c => nomatch c⟩
    · cases readable.symm.trans c

/-- A write cut short leaves the control record, or one that does not check good (R45, R55 Caution). -/
theorem tornWrite_control (free : Nat) (w : NvWrite) (m : JournalMem) :
    (tornWrite free w m).control = m.control ∨ (tornWrite free w m).control.good = false := by
  cases w with
  | control c => exact Or.inr (tornControl_spec free m).1
  | backlogged c is => exact Or.inr (tornControl_spec free m).1
  | slots | states | retained | retainedCrc => exact Or.inl rfl

theorem GoodFits.of_control {m m' : JournalMem} (h : GoodFits m) (same : m'.control = m.control) : GoodFits m' := by
  unfold GoodFits ClosingFits at h ⊢
  rwa [same]

theorem cutMemory_goodFits (h : WithinBounds s) (n : Nat) (torn : Bool) : GoodFits (cutMemory n torn s) := by
  have complete : GoodFits (cutMemory n false s) := by
    obtain ⟨-, -, -, -, -, -, -, -, -, -, -, -, -, cuts, -⟩ := h
    exact cuts n
  cases torn with
  | false => exact complete
  | true =>
    cases write : s.nvLog[n]? with
    | none =>
      rw [cutMemory_past (by simpa using write)]
      exact complete
    | some w =>
      rw [cutMemory_torn write]
      rcases tornWrite_control s.freeUsed w (cutMemory n false s) with same | bad
      · exact complete.of_control same
      · exact fun good => absurd (bad.symm.trans good) Bool.false_ne_true

theorem powerFailure_sound (h : WithinBounds s) (n : Nat) (torn : Bool) : Sound (powerDown (cutMemory n torn s) s) := by
  have anew : StartsOver (powerDown (cutMemory n torn s) s) := 
    ⟨rfl, rfl, rfl, rfl, rfl, rfl, rfl, rfl, rfl, rfl, rfl, rfl⟩
  exact anew.sound (cutMemory_goodFits h n torn) (fun c => nomatch c) ⟨(fun c => nomatch c), fun c => nomatch c⟩ fun _ => ⟨true, rfl⟩

/-! ## Every command keeps the bounds -/

/-- Every command but those of power keeps the bounds. -/
theorem exec_bounded (c : Instr) (on : c ≠ .powerOn) (off : ∀ n torn, c ≠ .powerFailure n torn) : Bounded (exec c) := by
  by_cases message : isMessage c = true
  · rw [exec_message c message]
    exact (takeMessage_steadied c).bounded
  cases c with
  | powerOn => exact absurd rfl on
  | powerFailure n torn => exact absurd rfl (off n torn)
  | frameDiscard i => exact (frameDiscard_steadied i).bounded
  | replayEntry => exact replayEntry_bounded
  | recoveryFinish rb => exact recoveryFinish_bounded rb
  | keyToken p x => exact (keyToken_steadied p x).bounded
  | reviewUp p => exact (reviewUp_steadied p).bounded
  | reviewDown p => exact (reviewDown_steadied p).bounded
  | present p => exact (present_steadied p).bounded
  | rowTaken p => exact (rowTaken_steadied p).bounded
  | rowSend p => exact (rowSend_steadied p).bounded
  | character p => exact (character_steadied p).bounded
  | fieldNext p => exact (fieldNext_steadied p).bounded
  | fieldBack p => exact (fieldBack_steadied p).bounded
  | backspace p => exact (Steadied.key fun _ => backspaceField_steady p).bounded
  | eraseField p => exact (Steadied.key fun _ => eraseCursorField_steady p).bounded
  | clear p => exact (clear_steadied p).bounded
  | transmit p => exact (transmit_steadied p).bounded
  | balance p => exact (Steadied.key fun _ => balanceKey_steady .interim p).bounded
  | signOff p => exact (Steadied.key fun _ => balanceKey_steady .final p).bounded
  | groupBalance p => exact (Steadied.key fun _ => groupKey_steady .interim p).bounded
  | groupClose p => exact (Steadied.key fun _ => groupKey_steady .final p).bounded
  | printBook p => exact (printBook_steadied p).bounded
  | cancelBook p => exact (cancelBook_steadied p).bounded
  | attention p => exact (attention_steadied p).bounded
  | entryTimerExpiry p => exact (entryTimerExpiry_steadied p).bounded
  | lineLoss => exact lineLoss_steadied.bounded
  | clockAdvance => exact clockAdvance_steadied.bounded
  | cutoffAlarmFire => exact cutoffAlarmFire_steadied.bounded
  | closingConditionTest rb => exact (closingConditionTest_steadied rb).bounded
  | dayBatchCompletion => exact dayBatchCompletion_steadied.bounded
  | transferLineLoss => exact transferLineLoss_steadied.bounded
  | transferLineReturn => exact transferLineReturn_steadied.bounded
  | transferRecoveryFinish => exact transferRecoveryFinish_steadied.bounded
  | ackTimerExpiry => exact ackTimerExpiry_steadied.bounded
  | outboundSendStart => exact outboundSendStart_steadied.bounded
  | outboundSendDone => exact outboundSendDone_steadied.bounded
  | ready n => exact ready_bounded n
  | homeDone n => exact homeDone_bounded n
  | bookIn n => exact bookIn_bounded n
  | stripeData n d => exact stripeData_bounded n d
  | stripeFail n => exact stripeFail_bounded n
  | printerDecision n => exact printerDecision_bounded n
  | lineDone n => exact lineDone_bounded n
  | stripeWritten n => exact stripeWritten_bounded n
  | stripeWriteFail n => exact stripeWriteFail_bounded n
  | ejectDone n => exact ejectDone_bounded n
  | fault n => exact fault_bounded n
  | printerTimerExpiry n => exact printerTimerExpiry_bounded n
  | bookWaitExpiry n => exact bookWaitExpiry_bounded n
  | unknownKind hd k => exact (unknownKind_steadied hd k).bounded
  | _ => exact absurd rfl message

theorem exec_withinBounds (c : Instr) (h : WithinBounds s) (rests : RestsOutsideTrading s) (run : exec c s = .next t) :
    WithinBounds t := by
  by_cases on : c = .powerOn
  · subst on
    exact (powerOn_sound h run).withinBounds
  by_cases off : ∃ n torn, c = .powerFailure n torn
  · obtain ⟨n, torn, rfl⟩ := off
    cases powered : s.powered with
    | false =>
      cases run.symm.trans (exec_unpowered powered on)
      exact h
    | true =>
      cases run.symm.trans (exec_powerFailure powered n torn)
      exact (powerFailure_sound h n torn).withinBounds
  · exact exec_bounded c on (fun n torn e => off ⟨n, torn, e⟩) s t h rests run

end

/-- Settles O57: a step takes one command, on the state with the rest of the queue. -/
theorem stepKeepsBounds : Obligations.StepKeepsBounds := by
  intro s t h rests run
  unfold step at run
  split at run
  · cases run
    exact h
  · next c rest _ => exact exec_withinBounds (s := { s with pending := rest }) c h rests run

end Sys2Proof.Machine
